-- ==== Sys2Proof/Word.lean ====
section
/-! DEFINITION. The word types of the TB2: bytes, register words and 64-bit words (R87, R104). -/

namespace Sys2Proof

/-- One byte of memory or scratch. -/
abbrev Byte := BitVec 8

/-- A 16-bit word: an element of a 16-bit format, a cause word. -/
abbrev W16 := BitVec 16

/-- A register of register space: "Every register is 32 bits wide and aligned to 4 bytes" (R87). -/
abbrev W32 := BitVec 32

/-- A 64-bit word: counters, parameters, Gig registers, CVAs. -/
abbrev W64 := BitVec 64

end Sys2Proof
end

