-- ==== Sys2Proof/Machine/Bits.lean ====
section
/-! DEFINITION. Bit-field, sign and byte-order helpers, and lists of little-endian bytes (R63, R104). -/

namespace Sys2Proof.Machine

/-- The field [hi:lo] of a word, as a number. -/
def fld {n : Nat} (w : BitVec n) (hi lo : Nat) : Nat := w.toNat / 2 ^ lo % 2 ^ (hi + 1 - lo)

/-- The word with its field [hi:lo] replaced by v (mod the field's size). -/
def setFld {n : Nat} (w : BitVec n) (hi lo : Nat) (v : Nat) : BitVec n :=
  BitVec.ofNat n (w.toNat - fld w hi lo * 2 ^ lo + v % 2 ^ (hi + 1 - lo) * 2 ^ lo)

/-- Bit i of a word. -/
def wbit {n : Nat} (w : BitVec n) (i : Nat) : Bool := w.getLsbD i

/-- The word with bit i set to b. -/
def setBit {n : Nat} (w : BitVec n) (i : Nat) (b : Bool) : BitVec n := setFld w i i b.toNat

/-- The one-bit mask of bit i. -/
def bitMask (n i : Nat) : BitVec n := BitVec.ofNat n (2 ^ i)

/-- Two's complement reading of a number of n bits. -/
def signedOf (n v : Nat) : Int := if v % 2 ^ n < 2 ^ (n - 1) then (v % 2 ^ n : Nat) else (v % 2 ^ n : Nat) - 2 ^ n

/-- Two's complement encoding in n bits. -/
def ofSigned (n : Nat) (v : Int) : Nat := (v % (2 ^ n : Int)).toNat

/-- The little-endian bytes of a number, k of them. -/
def bytesLE : Nat → Nat → List Byte
  | 0, _ => []
  | k + 1, v => BitVec.ofNat 8 v :: bytesLE k (v / 256)

/-- The number whose little-endian bytes these are. -/
def ofBytesLE : List Byte → Nat
  | [] => 0
  | b :: bs => b.toNat + 256 * ofBytesLE bs

/-- The big-endian reading of a byte list. -/
def ofBytesBE (bs : List Byte) : Nat := ofBytesLE bs.reverse

/-- n consecutive numbers from a. -/
def rangeFrom (a n : Nat) : List Nat := (List.range n).map (a + ·)

/-- Ceiling of a / b. -/
def ceilDiv (a b : Nat) : Nat := (a + b - 1) / b

/-- The low word of a 64-bit word. -/
def lo32 (w : W64) : W32 := BitVec.ofNat 32 w.toNat

/-- The high word of a 64-bit word. -/
def hi32 (w : W64) : W32 := BitVec.ofNat 32 (w.toNat / 2 ^ 32)

/-- The 64-bit word of two register words. -/
def join32 (lo hi : W32) : W64 := BitVec.ofNat 64 (lo.toNat + 2 ^ 32 * hi.toNat)

/-- Add to a 32-bit counter that stops at 0xFFFF_FFFF (R93). -/
def satAdd (w : W32) (k : Nat) : W32 := BitVec.ofNat 32 (min (w.toNat + k) (2 ^ 32 - 1))

/-- A slice of a list: n elements from index i, short at the end. -/
def slice {α : Type} (i n : Nat) (l : List α) : List α := (l.drop i).take n

/-- Repeat an update k times. -/
def iter {α : Type} (f : α → α) : Nat → α → α
  | 0, a => a
  | k + 1, a => iter f k (f a)

/-- An update made only where a condition holds. -/
def upIf {α : Type} (c : Bool) (f : α → α) (a : α) : α := if c then f a else a

/-- The numbers i below n whose bit is set in a mask. -/
def maskBits {n : Nat} (w : BitVec n) : List Nat := (List.range n).filter (wbit w)

/-- Replace element i of a list, if there is one. -/
def setAt {α : Type} (l : List α) (i : Nat) (a : α) : List α := l.set i a

end Sys2Proof.Machine
end

