-- ==== Sys2Proof/Machine/Formats.lean ====
section
/-! DEFINITION. The fifteen number formats, their conversions and roundings, block scaling, and the accumulator format
(R102 to R129). A finite value is kept exactly: sign, magnitude m * 2^e, and a sticky bit that says the real magnitude
lies strictly between m and m + 1 units (results of division and square root). -/

namespace Sys2Proof.Machine

/-! ## Exact values -/

/-- An exact finite value. -/
structure Dy where
  neg : Bool
  m : Nat
  e : Int
  sticky : Bool
  deriving DecidableEq, Repr

/-- A value: a NaN, or a finite real. -/
inductive Val where
  | nan
  | num (x : Dy)
  deriving DecidableEq, Repr

/-- Zero. -/
def Dy.zero : Dy := ⟨false, 0, 0, false⟩

/-- An integer as a value. -/
def Dy.ofInt (i : Int) : Dy := ⟨decide (i < 0), i.natAbs, 0, false⟩

/-- The power of two 2^k. -/
def Dy.pow2 (k : Int) : Dy := ⟨false, 1, k, false⟩

/-- The value is zero. -/
def Dy.isZero (x : Dy) : Bool := x.m = 0 && !x.sticky

/-- The magnitude in units of 2^k, for k at most the exponent. -/
def Dy.mantAt (x : Dy) (k : Int) : Nat := x.m * 2 ^ (x.e - k).toNat

/-- The signed mantissa in units of 2^k. -/
def Dy.intAt (x : Dy) (k : Int) : Int := if x.neg then -(x.mantAt k : Int) else (x.mantAt k : Int)

/-- Negation; zero stays unsigned (R107). -/
def Dy.negate (x : Dy) : Dy := if x.isZero then x else { x with neg := !x.neg }

/-- Absolute value. -/
def Dy.abs (x : Dy) : Dy := { x with neg := false }

/-- Exact sum of two exact values. -/
def Dy.add (x y : Dy) : Dy :=
  let k := min x.e y.e
  let i := x.intAt k + y.intAt k
  ⟨decide (i < 0), i.natAbs, k, x.sticky || y.sticky⟩

/-- Exact difference. -/
def Dy.sub (x y : Dy) : Dy := x.add y.negate

/-- Exact product. -/
def Dy.mul (x y : Dy) : Dy := ⟨x.neg != y.neg, x.m * y.m, x.e + y.e, x.sticky || y.sticky⟩

/-- Multiply by 2^k. -/
def Dy.scale (x : Dy) (k : Int) : Dy := { x with e := x.e + k }

/-- x < y. -/
def Dy.lt (x y : Dy) : Bool :=
  let k := min x.e y.e
  decide (x.intAt k < y.intAt k)

/-- x = y. -/
def Dy.eq (x y : Dy) : Bool :=
  let k := min x.e y.e
  decide (x.intAt k = y.intAt k)

/-- floor(log2 |x|), for x not zero. -/
def Dy.log2 (x : Dy) : Int := (Nat.log2 x.m : Int) + x.e

/-- The quotient, with 80 bits below the larger operand and a sticky bit; y is not zero. -/
def Dy.div (x y : Dy) : Dy :=
  let sh := Nat.log2 y.m + 80
  let n := x.m * 2 ^ sh
  ⟨x.neg != y.neg, n / y.m, x.e - y.e - sh, decide (n % y.m ≠ 0)⟩

/-- The square root of a value that is not negative, with at least 70 bits and a sticky bit. -/
def Dy.sqrt (x : Dy) : Dy :=
  let odd := x.e % 2
  let m := x.m * 2 ^ (odd.toNat + 160)
  let r := Nat.sqrt m
  ⟨false, r, (x.e - odd - 160) / 2, decide (r * r ≠ m)⟩

/-- floor(|x| / 2^q) and what is left below it: the remainder in units of 2^(q - 14), with a sticky bit. -/
def Dy.quantum (x : Dy) (q : Int) : Nat × Nat × Bool :=
  let lo := q - 14
  if lo ≤ x.e then (x.mantAt lo / 2 ^ 14, x.mantAt lo % 2 ^ 14, x.sticky)
  else
    let sh := (lo - x.e).toNat
    (x.m / 2 ^ sh / 2 ^ 14, x.m / 2 ^ sh % 2 ^ 14, x.sticky || decide (x.m % 2 ^ sh ≠ 0))

/-! ## Formats (R102, R106) -/

/-- The format codes of R102; code 0xF is reserved. -/
inductive Fmt where
  | f32w | f16w | f16x | f8a | f8b | f6a | f4a | e8s | i32 | i16 | i8 | u8 | i4 | u32 | m1
  deriving DecidableEq, Repr

/-- A format's code (R102). -/
def Fmt.code : Fmt → Nat
  | .f32w => 0 | .f16w => 1 | .f16x => 2 | .f8a => 3 | .f8b => 4 | .f6a => 5 | .f4a => 6 | .e8s => 7 | .i32 => 8
  | .i16 => 9 | .i8 => 10 | .u8 => 11 | .i4 => 12 | .u32 => 13 | .m1 => 14

/-- The format of a code (R102). -/
def Fmt.ofCode : Nat → Option Fmt
  | 0 => some .f32w | 1 => some .f16w | 2 => some .f16x | 3 => some .f8a | 4 => some .f8b | 5 => some .f6a | 6 => some .f4a
  | 7 => some .e8s | 8 => some .i32 | 9 => some .i16 | 10 => some .i8 | 11 => some .u8 | 12 => some .i4 | 13 => some .u32
  | 14 => some .m1 | _ => none

/-- Width of an element in bits (R102). -/
def Fmt.width : Fmt → Nat
  | .f32w | .i32 | .u32 => 32 | .f16w | .f16x | .i16 => 16 | .f8a | .f8b | .e8s | .i8 | .u8 => 8 | .f6a => 6
  | .f4a | .i4 => 4 | .m1 => 1

/-- Exponent and fraction bits of a float format (R102). -/
def Fmt.ef : Fmt → Option (Nat × Nat)
  | .f32w => some (8, 23) | .f16w => some (5, 10) | .f16x => some (8, 7) | .f8a => some (4, 3) | .f8b => some (5, 2)
  | .f6a => some (3, 2) | .f4a => some (2, 1) | _ => none

/-- The block-scaled element formats (R109). -/
def Fmt.isBlock : Fmt → Bool
  | .f8a | .f8b | .f6a | .f4a => true
  | _ => false

/-- The formats with a NaN code (R107). -/
def Fmt.hasNan : Fmt → Bool
  | .f32w | .f16x => true
  | _ => false

/-- Range of an integer format (R113). -/
def Fmt.intRange : Fmt → Option (Int × Int)
  | .i32 => some (-2147483648, 2147483647) | .i16 => some (-32768, 32767) | .i8 => some (-128, 127)
  | .u8 => some (0, 255) | .i4 => some (-8, 7) | .u32 => some (0, 4294967295) | _ => none

/-- Largest exponent field's binade of a block element format, for the scale choice (R112). -/
def Fmt.emax : Fmt → Int
  | .f8a => 8 | .f8b => 16 | .f6a => 4 | .f4a => 2 | _ => 0

/-- The value of a float code of E exponent and F fraction bits (R106, R107). -/
def floatVal (E F : Nat) (nanCode : Bool) (c : Nat) : Val :=
  let s := c / 2 ^ (E + F) % 2 = 1
  let e := c / 2 ^ F % 2 ^ E
  let f := c % 2 ^ F
  let b : Int := 2 ^ (E - 1) - 1
  if e = 0 ∧ f = 0 then (if s ∧ nanCode then .nan else .num .zero)
  else if e = 0 then .num ⟨s, f, 1 - b - F, false⟩
  else .num ⟨s, 2 ^ F + f, (e : Int) - b - F, false⟩

/-- The value of an element's code (R106 to R109, R113, R114). -/
def Fmt.decode (t : Fmt) (c : Nat) : Val :=
  match t with
  | .e8s => .num (.pow2 ((c % 256 : Nat) - 127))
  | .i32 => .num (.ofInt (signedOf 32 c))
  | .i16 => .num (.ofInt (signedOf 16 c))
  | .i8 => .num (.ofInt (signedOf 8 c))
  | .i4 => .num (.ofInt (signedOf 4 c))
  | .u8 => .num (.ofInt ((c % 256 : Nat) : Int))
  | .u32 => .num (.ofInt ((c % 2 ^ 32 : Nat) : Int))
  | .m1 => .num (.ofInt ((c % 2 : Nat) : Int))
  | _ => match t.ef with
    | some (E, F) => floatVal E F t.hasNan (c % 2 ^ (E + F + 1))
    | none => .num .zero

/-! ## Flags (R128) -/

/-- FMT_STAT flags, as the register's low bits (R128). -/
abbrev FFlags := W32

/-- No flag. -/
def FFlags.none : FFlags := 0
/-- SAT. -/
def flSat : FFlags := 1
/-- NAN_IN. -/
def flNanIn : FFlags := 2
/-- NAN_LOST. -/
def flNanLost : FFlags := 4
/-- INVALID. -/
def flInvalid : FFlags := 8
/-- UFL. -/
def flUfl : FFlags := 16
/-- SCALE_CLAMP. -/
def flScaleClamp : FFlags := 32

/-- A flag set when a condition holds. -/
def flIf (c : Bool) (f : FFlags) : FFlags := if c then f else 0

/-! ## Rounding (R115 to R120) -/

/-- The rounding modes (R115). -/
inductive RMode where
  | rne | sr | rtz
  deriving DecidableEq, Repr

/-- Rounding control: FLUSH and MODE (R115). -/
structure Rc where
  flush : Bool
  mode : RMode
  deriving DecidableEq, Repr

/-- RC's default, 0b000. -/
def Rc.default : Rc := ⟨false, .rne⟩

/-- RC of its 3-bit encoding; MODE 0b11 is reserved (R115). -/
def Rc.ofBits (b : Nat) : Option Rc :=
  match b % 4 with
  | 0 => some ⟨b / 4 % 2 = 1, .rne⟩ | 1 => some ⟨b / 4 % 2 = 1, .sr⟩ | 2 => some ⟨b / 4 % 2 = 1, .rtz⟩ | _ => none

/-- Round a magnitude to a multiple of 2^q: the multiple (R117 to R119). draw is the SRG draw, of which SR takes the low
13 bits. -/
def Dy.roundAt (x : Dy) (q : Int) (mode : RMode) (draw : Nat) : Nat :=
  let d := x.quantum q
  match mode with
  | .rtz => d.1
  | .rne =>
    if 2 ^ 13 < d.2.1 ∨ (d.2.1 = 2 ^ 13 ∧ (d.2.2 = true ∨ d.1 % 2 = 1)) then d.1 + 1 else d.1
  | .sr => (d.1 * 2 ^ 14 + d.2.1 + draw % 2 ^ 13 * 2) / 2 ^ 14

/-- Round an exact value into a float format (R117 to R120): the code and the flags. -/
def roundFloat (E F : Nat) (rc : Rc) (draw : Nat) (x : Dy) : Nat × FFlags :=
  if x.isZero then (0, 0)
  else
    let b : Int := 2 ^ (E - 1) - 1
    let top : Int := 2 ^ E - 1 - b
    let maxM : Dy := ⟨false, 2 ^ (F + 1) - 1, top - F, false⟩
    let sgn := if x.neg then 2 ^ (E + F) else 0
    let maxCode := sgn + (2 ^ (E + F) - 1)
    if maxM.lt x.abs || (maxM.eq x.abs && x.sticky) then (maxCode, flSat)
    else
      let q : Int := max x.log2 (1 - b) - F
      let n := x.roundAt q rc.mode draw
      let r : Dy := ⟨false, n, q, false⟩
      if n = 0 then (0, 0)
      else if maxM.lt r then (maxCode, flSat)
      else if n < 2 ^ F then
        (if rc.flush then (0, flUfl) else (sgn + n, 0))
      else
        -- a carry out of the binade gives 2^(F+1), the next binade's first value
        let k := r.log2
        (sgn + ((k + b).toNat * 2 ^ F + (n * 2 ^ F / 2 ^ (Nat.log2 n) - 2 ^ F)), 0)

/-- Round an exact value into an integer range, judged on the exact source before rounding (R121). -/
def roundInt (lo hi : Int) (mode : RMode) (draw : Nat) (x : Dy) : Int × FFlags :=
  if (Dy.ofInt hi).lt x || ((Dy.ofInt hi).eq x && x.sticky && !x.neg) then (hi, flSat)
  else if x.lt (Dy.ofInt lo) || ((Dy.ofInt lo).eq x && x.sticky && x.neg) then (lo, flSat)
  else
    let n := x.roundAt 0 mode draw
    (if x.neg then -(n : Int) else (n : Int), 0)

/-! ## Conversions (R121 to R123) -/

/-- A value to E8S (R123). -/
def toE8s (v : Val) : Nat × FFlags :=
  match v with
  | .nan => (0, flNanIn)
  | .num x =>
    if x.isZero then (0, 0)
    else
      let s := x.log2 + 127
      (min 255 (max 0 s).toNat, flIf (decide (s < 0) || decide (255 < s)) flScaleClamp)

/-- Convert a value to a format: the code and the flags (R114, R121). A NaN source sets NAN_IN. -/
def Fmt.encode (t : Fmt) (rc : Rc) (draw : Nat) (v : Val) : Nat × FFlags :=
  match t with
  | .m1 => match v with | .nan => (1, flNanIn) | .num x => (if x.isZero then 0 else 1, 0)
  | .e8s => toE8s v
  | _ =>
    match v with
    | .nan =>
      if t.hasNan then (2 ^ (t.width - 1), flNanIn) else (0, flNanIn ||| flNanLost)
    | .num x =>
      match t.ef with
      | some (E, F) => roundFloat E F rc draw x
      | none =>
        match t.intRange with
        | some (lo, hi) =>
          let r := roundInt lo hi rc.mode draw x
          (ofSigned t.width r.1, r.2)
        | none => (0, 0)

/-- The scale of a block under R112, and SCALE_CLAMP. -/
def blockScale (t : Fmt) (vs : List Val) : Nat × FFlags :=
  let m := vs.foldl (fun m v => match v with | .nan => m | .num x => if m.lt x.abs then x.abs else m) Dy.zero
  if m.isZero then (127, 0)
  else
    let s := m.log2 - t.emax + 127
    if s < 0 ∨ 255 < s then (min 255 (max 0 s).toNat, flScaleClamp) else (s.toNat, 0)

/-- Convert a block of values to a block-scaled format: the elements' codes, the scale, the flags (R112). When the scale
is not clamped, an element that rounds above the largest magnitude saturates without a flag. draws gives each element's
own draw. -/
def blockEncode (t : Fmt) (rc : Rc) (draws : Nat → Nat) (vs : List Val) : List Nat × Nat × FFlags :=
  let s := blockScale t vs
  let one (i : Nat) (v : Val) : Nat × FFlags :=
    match v with
    | .nan => (0, flNanIn ||| flNanLost)
    | .num x =>
      let r := t.encode rc (draws i) (.num (x.scale (127 - s.1)))
      (r.1, if s.2 = 0 then r.2 &&& ~~~flSat else r.2)
  let rs := vs.zipIdx.map fun p => one p.2 p.1
  (rs.map (·.1), s.1, rs.foldl (fun f r => f ||| r.2) s.2)

/-- A block element at its scaled value (R111). -/
def Val.scaled (v : Val) (s : Nat) : Val :=
  match v with
  | .nan => .nan
  | .num x => .num (x.scale ((s : Int) - 127))

/-! ## Packed rows (R104, R105) -/

/-- Element i of a row of elements w bits wide, from the row's bytes. -/
def elemAt (w : Nat) (row : List Byte) (i : Nat) : Nat :=
  ofBytesLE (slice (w * i / 8) 5 row) / 2 ^ (w * i % 8) % 2 ^ w

/-- The bytes of a row of elements w bits wide; the bits after the last element are zero (R105). -/
def packRow (w : Nat) (es : List Nat) : List Byte :=
  bytesLE ((w * es.length + 7) / 8) (es.zipIdx.foldl (fun acc p => acc + p.1 % 2 ^ w * 2 ^ (w * p.2)) 0)

/-- Bytes of a row of n elements: whole blocks of 32 in a block-scaled format (R105, R110). -/
def Fmt.rowBytes (t : Fmt) (n : Nat) : Nat :=
  if t.isBlock then ceilDiv n 32 * (4 * t.width) else (t.width * n + 7) / 8

/-! ## Operations on values (R124) -/

/-- An operation of two finite values, with NaN operands giving NaN and NAN_IN. -/
def Val.op2 (f : Dy → Dy → Val × FFlags) (a b : Val) : Val × FFlags :=
  match a, b with
  | .num x, .num y => f x y
  | _, _ => (.nan, flNanIn)

/-- An operation of one finite value. -/
def Val.op1 (f : Dy → Val × FFlags) (a : Val) : Val × FFlags :=
  match a with
  | .num x => f x
  | .nan => (.nan, flNanIn)

/-- Round a result into F32W, the format intermediates are held in (R116, R124): RNE, no flush. -/
def toF32 (r : Val × FFlags) : Val × FFlags :=
  match r.1 with
  | .nan => (.nan, r.2)
  | .num x =>
    let c := Fmt.f32w.encode .default 0 (.num x)
    (Fmt.f32w.decode c.1, r.2 ||| c.2)

/-- The largest finite F32W value with a sign. -/
def f32Max (neg : Bool) : Dy := ⟨neg, 2 ^ 24 - 1, 105, false⟩

/-- Sum. -/
def Val.add := Val.op2 fun x y => (.num (x.add y), 0)
/-- Difference. -/
def Val.sub := Val.op2 fun x y => (.num (x.sub y), 0)
/-- Product. -/
def Val.mul := Val.op2 fun x y => (.num (x.mul y), 0)
/-- Maximum: NaN when any operand is NaN. -/
def Val.max := Val.op2 fun x y => (.num (if x.lt y then y else x), 0)
/-- Minimum. -/
def Val.min := Val.op2 fun x y => (.num (if y.lt x then y else x), 0)
/-- Quotient: zero by zero is invalid; a non-zero value by zero is unbounded (R124). -/
def Val.div := Val.op2 fun x y =>
  if y.isZero then (if x.isZero then (.nan, flInvalid) else (.num (f32Max x.neg), flSat)) else (.num (x.div y), 0)
/-- Square root: of a negative value, invalid. -/
def Val.sqrt := Val.op1 fun x => if x.isZero then (.num .zero, 0) else if x.neg then (.nan, flInvalid) else (.num x.sqrt, 0)

/-! ## The accumulator format (R125 to R127) -/

/-- An ACC value, in the 64-bit layout of R127: [63] NAN, [38] S, [37:30] E, [29:0] F. -/
abbrev Acc := W64

/-- The NaN marker. -/
def Acc.isNan (a : Acc) : Bool := a.getLsbD 63

/-- The exact finite value of an ACC value. -/
def Acc.val (a : Acc) : Dy :=
  match floatVal 8 30 false (a.toNat % 2 ^ 39) with
  | .num x => x
  | .nan => .zero

/-- ACC of an exact value: truncated toward zero; above the largest magnitude it saturates with SAT (R126). -/
def Acc.enter (nan : Bool) (x : Dy) : Acc × FFlags :=
  let r := roundFloat 8 30 ⟨false, .rtz⟩ 0 x
  (BitVec.ofNat 64 (r.1 + if nan then 2 ^ 63 else 0), r.2)

/-- The sum of an ACC value and an exact entering value, truncated to ACC precision. -/
def Acc.add (a : Acc) (nan : Bool) (x : Dy) : Acc × FFlags := Acc.enter (a.isNan || nan) (a.val.add x)

/-- The value of an ACC word for a conversion out of it (R126). -/
def Acc.out (a : Acc) : Val := if a.isNan then .nan else .num a.val

end Sys2Proof.Machine
end

