-- ==== Sys2Proof/Syntax.lean ====
section
/-! DEFINITION. The commands: one constructor of Instr per row of the opcode table, with its operands; and the decoded
fields of the Ethaqua instructions (R257 to R282). -/

namespace Sys2Proof.Machine

/-! ## Operand kinds (R258) -/

/-- SOFS: a byte offset in own scratch, or a parameter register. -/
inductive Sofs where
  | imm (o : BitVec 23)
  | preg (p : BitVec 8)
  deriving DecidableEq, Repr

/-- IDX: an immediate or a counter. -/
inductive Idx where
  | imm (v : BitVec 24)
  | ctr (c : Fin 16)
  deriving DecidableEq, Repr

/-- SOP: IMM, PREG, CTR, CAP (already replaced by the field's value, R258), FLG (false MXA, true TVU). -/
inductive Sop where
  | imm (v : W32)
  | preg (p : BitVec 8)
  | ctr (c : Fin 16)
  | cap (v : W32)
  | flg (tvu : Bool)
  deriving DecidableEq, Repr

/-! ## Matrix class (R138, R262) -/

/-- Dataflows (R133). -/
inductive Dflow where
  | ws | is | os
  deriving DecidableEq, Repr

/-- MMODE's mode word, by field (R138). -/
structure MmodeOp where
  df : Dflow
  fmtR : Fmt
  fmtC : Fmt
  rc : Rc
  sclR : Bool
  sclC : Bool
  deriving DecidableEq, Repr

/-- MLOAD (R262); kt and nt hold the extents less 1, as encoded. -/
structure MloadOp where
  desc : Sofs
  kt : BitVec 9
  nt : BitVec 7
  kofs : Idx
  rofs : Idx
  deriving DecidableEq, Repr

/-- MSTREAM (R262). -/
structure MstreamOp where
  swap : Bool
  add : Bool
  fmtO : Fmt
  rdesc : Sofs
  cdesc : Sofs
  odesc : Sofs
  pdesc : Sofs
  count : Idx
  kofs : Idx
  rofs : Idx
  orow : Idx
  mt : BitVec 7
  nt : BitVec 7
  deriving DecidableEq, Repr

/-- MDRAIN (R262). -/
structure MdrainOp where
  add : Bool
  fmtO : Fmt
  odesc : Sofs
  pdesc : Sofs
  orow : Idx
  deriving DecidableEq, Repr

/-! ## Vector class (R263, R264) -/

/-- Working formats (R263). -/
inductive Wf where
  | f32w | f16w | f16x | i32 | i16 | u32
  deriving DecidableEq, Repr

/-- Lane operations (R181, R263). -/
inductive LaneOp where
  | add | sub | mul | fma | fms | max | min | abs | neg | and | or | xor | shl | shr | sel | copy | transp
  | rcp | rsqrt | sqrt | exp2 | log2 | div | exp | log | tanh | erf | none
  deriving DecidableEq, Repr

/-- Broadcast codes (R264). -/
inductive Bcast where
  | full | rowb | colb
  deriving DecidableEq, Repr

/-- Reduction kinds (R189, R263). -/
inductive RedKind where
  | none | sum | sumsq | max | min | argmax | meanvar
  deriving DecidableEq, Repr

/-- VOP (R264). -/
structure VopOp where
  op : LaneOp
  zero : Bool
  wf : Wf
  td : Fin 32
  ta : Fin 32
  ba : Bcast
  tb : Fin 32
  bb : Bcast
  tc : Fin 32
  bc : Bcast
  mask : Fin 8
  ms : Fin 8
  deriving DecidableEq, Repr

/-- VTENS, form OP (R264). A source or descriptor field of 0 that the operation does not use is ignored. -/
structure VtensOp where
  rc : Rc
  rax : Bool
  red : RedKind
  op1 : LaneOp
  op2 : LaneOp
  ddesc : Sofs
  s0 : Sofs
  s1 : Sofs
  s2 : Sofs
  rdesc : Sofs
  mask : Fin 8
  wf : Wf
  sp : BitVec 8
  spos : Fin 4
  nod : Bool
  unbiased : Bool
  deriving DecidableEq, Repr

/-- VTENS, forms LD and ST (R264). -/
structure VtensLsOp where
  rc : Rc
  pair : Bool
  mask : Bool
  tdesc : Sofs
  tr : Fin 32
  i0 : Fin 16
  i1 : Fin 16
  i2 : Fin 16
  i3 : Fin 16
  wf : Wf
  deriving DecidableEq, Repr

/-- VRED (R264). -/
structure VredOp where
  red : RedKind
  axis : Bool
  unbiased : Bool
  td : Fin 32
  ts : Fin 32
  mask : Fin 8
  wf : Wf
  deriving DecidableEq, Repr

/-- VCVT (R264). -/
structure VcvtOp where
  rc : Rc
  dir : Bool
  td : Fin 32
  ts : Fin 32
  mask : Fin 8
  wfS : Wf
  wfD : Wf
  deriving DecidableEq, Repr

/-- VRNG SEED (R192, R264). -/
structure VseedOp where
  node : Bool
  p : BitVec 8
  deriving DecidableEq, Repr

/-- Forms of a VRNG draw (R195). -/
inductive RngForm where
  | bits | uniform | bern
  deriving DecidableEq, Repr

/-- VRNG draws (R195, R264). With ten, the draws go to the tensor of ddesc; otherwise to Td, or to mask register td mod 8
under BERN. -/
structure VdrawOp where
  form : RngForm
  frg : Bool
  td : Fin 32
  ten : Bool
  ddesc : Sofs
  p : BitVec 8
  mask : Fin 8
  deriving DecidableEq, Repr

/-- Mask operations (R185, R264). -/
inductive MaskOp where
  | cmpEq | cmpNe | cmpLt | cmpLe | cmpGt | cmpGe | unord | and | or | xor | andn | not | set | clr | firstn
  deriving DecidableEq, Repr

/-- VMASK (R264). a and b name tile registers for a comparison and mask registers (mod 8) otherwise. -/
structure VmaskOp where
  op : MaskOp
  mkd : Fin 8
  a : Fin 32
  b : Fin 32
  wf : Wf
  n : Fin 16
  deriving DecidableEq, Repr

/-! ## Data movement, fabric, collective, update (R265 to R275) -/

/-- Space codes of an address (R259). -/
inductive Space where
  | cva | own | peer
  deriving DecidableEq, Repr

/-- DCOPY (R266). -/
structure DcopyOp where
  cg : Fin 8
  ssp : Space
  dsp : Space
  sLc : BitVec 7
  dLc : BitVec 7
  src : Sop
  dst : Sop
  len : Sop
  deriving DecidableEq, Repr

/-- DGATHER and DSCATTER (R266): the indexed side's space, core and stride; base is SRC of a gather and DST of a
scatter; own is the own-scratch side. -/
structure DlistOp where
  cg : Fin 8
  sp : Space
  rowb : W32
  stride : W32
  lc : BitVec 7
  base : Sop
  own : Sop
  idx : Sop
  count : Sop
  deriving DecidableEq, Repr

/-- DSTASH and DUNSTASH (R266). -/
structure DstashOp where
  cg : Fin 8
  scr : Sofs
  cva : Sop
  len : Sop
  deriving DecidableEq, Repr

/-- XPUT (R271): ssp is 0 CVA or 1 own scratch; dspScr is DSP. -/
structure XputOp where
  cg : Fin 8
  srcOwn : Bool
  dspScr : Bool
  tag : BitVec 23
  dnode : Sop
  src : Sop
  dst : Sop
  len : Sop
  deriving DecidableEq, Repr

/-- XGET (R271). -/
structure XgetOp where
  cg : Fin 8
  dstOwn : Bool
  sspScr : Bool
  tag : W16
  rcore : BitVec 7
  dnode : Sop
  src : Sop
  dst : Sop
  len : Sop
  deriving DecidableEq, Repr

/-- Atomic operations (R271). -/
inductive Aop where
  | addI32 | addI64 | faddF32 | maxI32 | minI32 | maxF32 | minF32
  deriving DecidableEq, Repr

/-- XATOM (R271). -/
structure XatomOp where
  cg : Fin 8
  aop : Aop
  dnode : Sop
  dst : Sop
  val : Sop
  deriving DecidableEq, Repr

/-- XMSG (R271). -/
structure XmsgOp where
  cg : Fin 8
  decl : Bool
  mtag : W16
  dcore : BitVec 7
  dnode : Sop
  src : Sop
  len : BitVec 16
  deriving DecidableEq, Repr

/-- Combining operations of a collective (R274). -/
inductive Rop where
  | sum | max | min
  deriving DecidableEq, Repr

/-- The collective instructions (R274); extra is CNTS of CA2AV and PERM of CPERM, unused in the others. -/
structure CollOp where
  grp : Fin 64
  rop : Rop
  fmt : Fmt
  cg : Fin 8
  srcOwn : Bool
  dstOwn : Bool
  ctag : W16
  src : Sop
  dst : Sop
  count : Sop
  extra : Sop
  deriving DecidableEq, Repr

/-- URECIPE (R275). -/
structure UrecipeOp where
  cg : Fin 8
  bi : Fin 5
  slot : Fin 8
  src : Sofs
  deriving DecidableEq, Repr

/-- UAPPLY (R275). -/
structure UapplyOp where
  rc : Rc
  cg : Fin 8
  slot : Fin 8
  half : Bool
  region : Sop
  count : Sop
  s0 : Sop
  s1 : Sop
  s2 : Sop
  s3 : Sop
  deriving DecidableEq, Repr

/-! ## Control (R276) -/

/-- Relations of CCMP. -/
inductive Rel where
  | eq | ne | lt | le | gt | ge
  deriving DecidableEq, Repr

/-- BEAT's NEXT (R238). -/
inductive BeatNext where
  | fall | goto (b : W16) | ifK (k : Fin 8) (b : W16) | fin
  deriving DecidableEq, Repr

/-- FENCE scopes (R279). -/
inductive FScope where
  | local | dma | device | fabric
  deriving DecidableEq, Repr

/-- GCALL (R276): arguments are PREG or CTR operands. -/
structure GcallOp where
  sync : Bool
  retv : Option (Fin 16)
  routine : BitVec 8
  args : List Sop
  deriving DecidableEq, Repr

/-- A native instruction as a core's queues and hold list carry it. -/
inductive CoreInsn where
  | mmode (o : MmodeOp) | mload (o : MloadOp) | mstream (o : MstreamOp) | mdrain (o : MdrainOp)
  | vop (o : VopOp) | vtens (o : VtensOp) | vtensLd (o : VtensLsOp) | vtensSt (o : VtensLsOp) | vred (o : VredOp)
  | vcvt (o : VcvtOp) | vseed (o : VseedOp) | vdraw (o : VdrawOp) | vmask (o : VmaskOp)
  | dcopy (o : DcopyOp) | dgather (o : DlistOp) | dscatter (o : DlistOp) | dstash (o : DstashOp) | dunstash (o : DstashOp)
  | xput (o : XputOp) | xget (o : XgetOp) | xatom (o : XatomOp) | xmsg (o : XmsgOp)
  | callr (o : CollOp) | crscat (o : CollOp) | cagath (o : CollOp) | cbcast (o : CollOp) | ca2a (o : CollOp)
  | ca2av (o : CollOp) | cperm (o : CollOp)
  | urecipe (o : UrecipeOp) | uapply (o : UapplyOp)
  | cset (d : Fin 16) (clr : Bool) (src : Sop) | cinc (d : Fin 16) (src : Sop)
  | ccmp (d : Fin 8) (a : Fin 16) (r : Rel) (src : Sop) | loop (a : Fin 16) (t : BitVec 24)
  | br (cond : Option (Fin 8 × Bool)) (t : BitVec 24) | beat (n : BeatNext)
  | waitarr (tag : Option W16) | fence (sc : FScope) (cgs : BitVec 8)
  | signal (host : Bool) (e : Fin 16) (v : Sop) | wait (e : Fin 16) (v : Sop) | gcall (o : GcallOp)
  deriving DecidableEq, Repr

/-! ## The Gig scalar subset (R281, R282) -/

/-- The second operand of a scalar instruction: RB, or IMM when I is 1. -/
inductive GSrc where
  | reg (r : Fin 32)
  | imm (v : W32)
  deriving DecidableEq, Repr

/-- ADD, SUB, AND, OR, XOR. -/
inductive GAlu where
  | add | sub | and | or | xor
  deriving DecidableEq, Repr

/-- SHL, SHR, SRA. -/
inductive GShift where
  | shl | shr | sra
  deriving DecidableEq, Repr

/-- DIV, DIVU, REM, REMU. -/
inductive GDiv where
  | div | divu | rem | remu
  deriving DecidableEq, Repr

/-- BEQ to BGEU, and J. -/
inductive GBr where
  | beq | bne | blt | bge | bltu | bgeu | j
  deriving DecidableEq, Repr

/-- A memory operand of the scalar subset: RA plus RB scaled by SZ, or RA + IMM; SZ 0 to 3; BLK. -/
structure GMem where
  ra : Fin 32
  src : GSrc
  sz : Fin 4
  blk : Bool
  deriving DecidableEq, Repr


/-! ## Packets and flits (R349, R359, R373) -/

/-- A packet: the fields of the 32 B header (R373) and its payload. -/
structure Packet where
  dst : Nat
  src : Nat
  ctx : Nat
  gen : Nat
  bank : Nat
  vc : Nat
  opc : Nat
  fep : Nat
  addr : Nat
  eot : Bool
  sot : Bool
  len : Nat
  beat : Nat
  pseq : Nat
  tag : Nat
  ext : W64
  hcrc : W32
  payload : List Byte
  /-- Partition index of the sending core of a MSG or an ATOM, which the FIFO item and the order of held atomics need and no
  header field carries (log entry 9). -/
  score : Nat
  deriving DecidableEq, Repr

/-- Where a packet command's packet comes from: it enters from a port, or it is the oldest packet of its opcode that the
router holds for this node. -/
inductive PktSrc where
  | port (p : Fin 10) (k : Packet)
  | here
  deriving DecidableEq, Repr

/-- A vote as it comes (R42), with the latency of the result that the origin answers it with, which BEAT_CONF takes (R43). -/
structure VoteRx where
  pkt : PktSrc
  latency : W16
  deriving DecidableEq, Repr

/-- A sequenced flit (R349, R350): sequence number; for DATA its VC, SOP, EOP and packet bytes; for link control (during
ACTIVE) its subtype in ctl and the good mask in bytes. -/
structure Flit where
  seq : Nat
  ctl : Option Nat
  vc : Nat
  sop : Bool
  eop : Bool
  bytes : List Byte
  deriving DecidableEq, Repr

/-- How a flit arrives (R348 to R350): bad, when it fails its CRC or lies in an uncorrectable codeword; ucw, when it is the
first flit of a newly found uncorrectable codeword; its lane; a reserved type; its ACK field (NAK, number) and CREDIT
field (VC, flits). -/
structure FlitRx where
  bad : Bool
  ucw : Bool
  lane : Fin 16
  rsvdType : Bool
  ack : Option (Bool × BitVec 12)
  credit : Option (Fin 8 × BitVec 12)
  deriving DecidableEq, Repr

/-- What one scrub of a line reports (R290): the stack or controller; the on-die corrections since the last report (R287); where the
line's check line fails its CRC, the lines of its group that do not decode (R300). -/
structure ScrubRun where
  unit : Fin 16
  odecc : W16
  chk : Option (BitVec 15)
  deriving DecidableEq, Repr

/-- A lane, and the receiver power that its window reports (R363, R367). -/
structure LaneRead where
  lane : Fin 16
  rxPwr : Byte
  deriving DecidableEq, Repr

/-- The partner's ID flit (R359), with the arrival and its own times (R356). -/
structure IdFlit where
  nodeValid : Bool
  role : Bool
  reply : Bool
  node : W16
  port : Fin 16
  fenceEp : Byte
  cfgEp : Byte
  maxw : Fin 4
  good : W16
  serial : W64
  t1 : W64
  t2 : W64
  t3 : W64
  rxNext : BitVec 12
  deriving DecidableEq, Repr

/-- An ID flit as it arrives. -/
structure IdRx where
  rx : FlitRx
  id : IdFlit
  deriving DecidableEq, Repr

/-! ## The host and the board -/

/-- How the host answers a DMA (R453): it completes, ATS fails, or it completes with UR or CA. -/
inductive HostAns where
  | ok | atsFail | urCa
  deriving DecidableEq, Repr

/-- The access paths of R90: PF or VF function, Chaise, management VC. -/
inductive Path where
  | host (func : Nat)
  | chaise
  | mgmt
  deriving DecidableEq, Repr

/-- The far tier as fitted (R299, R302): controllers populated, ranks, package code (1 16 GiB, 2 32 GiB, 3 64 GiB), LPDDR5 or
LPDDR5X, the highest rate that the parts declare, and every pair of controller and rate at which training succeeds. -/
structure FarFit where
  ctls : Byte
  ranks : Fin 3
  size : Fin 4
  lp5 : Bool
  top : Nat
  trains : List (Fin 8 × Nat)
  deriving DecidableEq, Repr

/-- What a cold boot meets on the board and in the package (R477): straps; pieces of the flash provisioned before the boot, and
pieces rewritten between the two reads of the tables; whether the flash answers; fuse words that fail their check, by page offset, with
the value read; a fault of the Chaise (true: ROM_PAR, at that offset); PLLs that lock; near-tier channels that fail training or the
pattern test; the far tier; physical cores that fail the boot test. -/
structure BootIn where
  straps : BitVec 11
  flash : List (Nat × List Byte)
  reflash : List (Nat × List Byte)
  flashOk : Bool
  badFuses : List (Nat × W32)
  fault : Option (Bool × W32)
  plls : BitVec 14
  badChans : List (Fin 256)
  far : FarFit
  badCores : List (Fin 108)
  deriving DecidableEq, Repr

/-- What a warm boot meets (R308, R480): the PLLs that lock, whether every near-tier channel in service trains again, and the far-tier
controllers in service that do. -/
structure WarmIn where
  plls : BitVec 14
  nearOk : Bool
  farOk : Byte
  deriving DecidableEq, Repr

/-- What the Chaise reads of a rail (R497, R500): voltage in mV, current in 0.1 A, and whether a warning or a fault of its VR is
latched. -/
structure VrRead where
  mv : Nat
  da : Nat
  warn : Bool
  fault : Bool
  deriving DecidableEq, Repr

end Sys2Proof.Machine

namespace Sys2Proof
open Machine

/-- The commands: one constructor per row of the opcode table, in its order. Register writes name their access path (R90); p is a
path, n a physical core, l a logical core, q a queue, c a context. -/
inductive Instr where
  -- the beat, the servo and the journal
  | beatBoundary
  | capWindowEnd (watts : W16)
  | syncMarkerRx (port : Fin 10) (rx : FlitRx) (marker now : W64)
  | syncEmit (port : Fin 10)
  | holdover
  | holdoverLong
  | beatServoCtrlWrite (p : Path) (w : W32)
  | clrMax (p : Path)
  | beatSetArm (p : Path)
  | beatSetDisarm (p : Path)
  | beatLenArm (p : Path) (log2 : Fin 32)
  | beatLenDisarm (p : Path) (log2 : Fin 32)
  | revote (p : Path) (c : Byte)
  | withdraw (p : Path) (c : Byte)
  | resume (p : Path) (c : Byte)
  | beatCmdRefused (p : Path) (code : Fin 13) (c : Byte)
  | vote (src : VoteRx)
  | result (src : PktSrc) (latency : W16)
  | jrnlReplayStart (p : Path)
  | jrnlTailWrite (p : Path) (v : W64)
  -- register space
  | registerWrite (p : Path) (off : BitVec 26) (full : Bool) (bytes : List Byte)
  | holeAccess (p : Path) (off : BitVec 26) (write : Bool)
  | rsnSnapshotRead (p : Path) (off : BitVec 26) (len : Fin 65)
  | counterClearWrite (p : Path) (off : BitVec 26) (w : W32)
  | blockReset (p : Path) (page : BitVec 14)
  | blockResetDone (page : BitVec 14)
  | clrCnt (p : Path) (page : BitVec 14)
  | lock (p : Path) (page : BitVec 14)
  | fence (p : Path) (page : BitVec 14)
  | enable (p : Path) (page : BitVec 14) (on : Bool)
  | pgIntForce (p : Path) (page : BitVec 14) (w : W32)
  -- the matrix array
  | mmode (l : Fin 96) (o : MmodeOp)
  | mload (l : Fin 96) (o : MloadOp)
  | mloadComplete (n : Fin 108)
  | mstream (l : Fin 96) (o : MstreamOp)
  | mdrain (l : Fin 96) (o : MdrainOp)
  | haltReq (p : Path) (n : Fin 108) (unit : Fin 3)
  | dbgResume (p : Path) (n : Fin 108) (unit : Fin 3)
  -- the tile vector unit
  | vop (l : Fin 96) (o : VopOp)
  | vtens (l : Fin 96) (o : VtensOp)
  | vtensLd (l : Fin 96) (o : VtensLsOp)
  | vtensSt (l : Fin 96) (o : VtensLsOp)
  | vred (l : Fin 96) (o : VredOp)
  | vcvt (l : Fin 96) (o : VcvtOp)
  | vrngSeed (l : Fin 96) (o : VseedOp)
  | vrngDraw (l : Fin 96) (o : VdrawOp)
  | vmask (l : Fin 96) (o : VmaskOp)
  -- the Gig cores
  | gcall (l : Fin 96) (o : GcallOp)
  | gcallDispatch (l : Fin 96)
  | ret (l : Fin 96)
  | addSubAndOrXor (l : Fin 96) (op : GAlu) (rd ra : Fin 32) (b : GSrc)
  | shlShrSra (l : Fin 96) (op : GShift) (rd ra : Fin 32) (b : GSrc)
  | sltSltu (l : Fin 96) (signed : Bool) (rd ra : Fin 32) (b : GSrc)
  | mul (l : Fin 96) (rd ra : Fin 32) (b : GSrc)
  | divRem (l : Fin 96) (op : GDiv) (rd ra : Fin 32) (b : GSrc)
  | lih (l : Fin 96) (rd : Fin 32) (imm : W32)
  | ldlStl (l : Fin 96) (store : Bool) (rd : Fin 32) (m : GMem)
  | ldsSts (l : Fin 96) (store : Bool) (rd : Fin 32) (m : GMem)
  | ldp (l : Fin 96) (rd : Fin 32) (preg : BitVec 8)
  | ldcap (l : Fin 96) (rd : Fin 32) (off : BitVec 12)
  | gigBranch (l : Fin 96) (op : GBr) (ra : Fin 32) (rb : Option (Fin 32)) (imm : W32)
  | popf (l : Fin 96) (rd : Fin 32)
  | waitf (l : Fin 96)
  | waitfWake (l : Fin 96)
  | mflush (l : Fin 96)
  | trap (l : Fin 96)
  | gigFifoFlush (p : Path) (n : Fin 108)
  -- modules and launches
  | loadModule (q : BitVec 14)
  | loadModuleDone (us : Nat)
  | unloadModule (q : BitVec 14)
  | launch (q : BitVec 14)
  -- control
  | cset (l : Fin 96) (d : Fin 16) (clr : Bool) (src : Sop)
  | cinc (l : Fin 96) (d : Fin 16) (src : Sop)
  | ccmp (l : Fin 96) (d : Fin 8) (a : Fin 16) (r : Rel) (src : Sop)
  | loop (l : Fin 96) (a : Fin 16) (t : BitVec 24)
  | br (l : Fin 96) (cond : Option (Fin 8 × Bool)) (t : BitVec 24)
  | beat (l : Fin 96) (n : BeatNext)
  | waitarr (l : Fin 96) (tag : Option W16)
  | fenceInsn (l : Fin 96) (sc : FScope) (cgs : BitVec 8)
  | signal (l : Fin 96) (host : Bool) (e : Fin 16) (v : Sop)
  | wait (l : Fin 96) (e : Fin 16) (v : Sop)
  -- data movement, fabric, collectives, update
  | dcopy (l : Fin 96) (o : DcopyOp)
  | dgather (l : Fin 96) (o : DlistOp)
  | dscatter (l : Fin 96) (o : DlistOp)
  | dstash (l : Fin 96) (o : DstashOp)
  | dunstash (l : Fin 96) (o : DstashOp)
  | xput (l : Fin 96) (o : XputOp)
  | xget (l : Fin 96) (o : XgetOp)
  | xatom (l : Fin 96) (o : XatomOp)
  | xmsg (l : Fin 96) (o : XmsgOp)
  | callr (l : Fin 96) (o : CollOp)
  | crscat (l : Fin 96) (o : CollOp)
  | cagath (l : Fin 96) (o : CollOp)
  | cbcast (l : Fin 96) (o : CollOp)
  | ca2a (l : Fin 96) (o : CollOp)
  | ca2av (l : Fin 96) (o : CollOp)
  | cperm (l : Fin 96) (o : CollOp)
  | collectiveComplete (i : Nat)
  | urecipe (l : Fin 96) (o : UrecipeOp)
  | uapply (l : Fin 96) (o : UapplyOp)
  | suuRequestStart (u : Fin 32)
  | uapplyComplete
  | suuSlotPartWrite (p : Path) (stack : Fin 8) (w : W32)
  -- the memory tiers
  | scrub (unit : ScrubRun)
  | wcbEntryTimeout (stack : Fin 8)
  | wcbFlush (p : Path) (which : Byte)
  | xlInvalAll (p : Path)
  | xlInvalCtx (p : Path) (c : Byte)
  | xlInvalRange (p : Path) (c : Byte)
  | xlInvalDone
  | xlWinRead (p : Path)
  | xlWinWrite (p : Path)
  -- optical ports and links
  | laserLost (port : Fin 10)
  | trainingStart (port : Fin 10)
  | laserCheckPass (port : Fin 10) (low high : W64)
  | lockDone (port : Fin 10) (locked : W16)
  | eqDone (port : Fin 10) (passed : W16)
  | fecAlignDone (port : Fin 10)
  | id (port : Fin 10) (f : IdRx) (now : W64)
  | idResend (port : Fin 10)
  | idExchangeDone (port : Fin 10) (us : W16)
  | trainStateTimeout (port : Fin 10)
  | trainRetry (port : Fin 10)
  | data (port : Fin 10) (rx : FlitRx) (f : Flit)
  | idle (port : Fin 10) (rx : FlitRx)
  | ackTimeout (port : Fin 10)
  | widthReq (port : Fin 10) (rx : FlitRx) (seq : BitVec 12) (good : W16)
  | retrainReq (port : Fin 10) (rx : FlitRx) (seq : BitVec 12)
  | accept (port : Fin 10) (rx : FlitRx) (seq : BitVec 12) (good : W16)
  | switch (port : Fin 10) (rx : FlitRx) (seq : BitVec 12)
  | widthChangeTimeout (port : Fin 10)
  | laneBerWindow (port : Fin 10) (lane : LaneRead) (bits codewords symbols bad : Nat)
  | laneLockLost (port : Fin 10) (lane : Fin 16)
  | tuneLost (port : Fin 10) (lane : Fin 16)
  | ucwPersist (port : Fin 10) (intervals : Nat)
  | retrain (p : Path) (port : Fin 10)
  | holdOff (p : Path) (port : Fin 10) (on : Bool)
  | maxWidthWrite (p : Path) (port : Fin 10) (code : Fin 4)
  -- packets
  | packetGrant (port : Fin 10)
  | put (src : PktSrc)
  | putScr (src : PktSrc)
  | getReq (src : PktSrc)
  | getRsp (src : PktSrc)
  | getRspScr (src : PktSrc)
  | atom (src : PktSrc)
  | atomAck (src : PktSrc)
  | msg (src : PktSrc)
  | hostMsg (src : PktSrc) (whole : Bool)
  | collData (src : PktSrc)
  | collCnt (src : PktSrc)
  | mgWr (src : PktSrc)
  | mgRd (src : PktSrc)
  | mgRsp (src : PktSrc)
  -- the router's own registers and the group slots
  | histSample
  | rtrBankArm (p : Path) (bank : Bool)
  | rtrBankDisarm (p : Path) (bank : Bool)
  | rtrDrainArm (p : Path) (w : W32)
  | rtrFepArm (p : Path) (ep : Byte)
  | rtrFepDisarm (p : Path) (ep : Byte)
  | grpSlotWrite (p : Path) (stage : Fin 4) (slot : Fin 64) (word : Fin 4) (w : W32)
  -- queues
  | doorbell (p : Path) (q : BitVec 14) (w : W32)
  | doorbellVisible (q : BitVec 14)
  | abort (q : BitVec 14)
  | hcopy (q : BitVec 14) (ans : HostAns)
  | send (q : BitVec 14) (ans : HostAns)
  | nop (q : BitVec 14)
  | completionPost (q : BitVec 14)
  | mrqStageTimeout (q : BitVec 14)
  | mrqSlotsFree (q : BitVec 14)
  | queueReset (p : Path) (q : BitVec 14)
  | queueEnable (p : Path) (q : BitVec 14) (w : W32)
  -- contexts, lending and the host link
  | bind (p : Path) (c func : Byte) (part gen : Fin 16)
  | teardown (p : Path) (c : Byte)
  | flr (func : Byte)
  | teardownDrainEnd (c : Byte)
  | teardownDone (c : Byte)
  | hotReset
  | zeroGo (p : Path)
  | zeroDone
  | create (p : Path) (j : Fin 8)
  | lendActivate (j : Fin 8)
  | hdmCommit (j : Fin 8) (ways dpa size : Nat)
  | release (p : Path) (j : Fin 8) (zero : Bool)
  | lendFree (j : Fin 8)
  | cxlMemRead (dpa : Nat)
  | cxlMemWrite (dpa : Nat) (bytes : List Byte)
  | hostLinkTrained (speed : Fin 7) (width : Fin 17) (flit cxl : Bool)
  -- the Chaise
  | resetNRelease (i : BootIn)
  | resetNAssert
  | getMeasurements (index : Byte) (sign : Bool) (nonce : List Byte)
  | getMeasurementExtensionLog
  | getCertificate (slot : Fin 8)
  | getDigests
  | challenge (nonce : List Byte)
  | keyExchange (nonce : List Byte)
  | ideKm (session : Nat)
  | spdmRequest (supported : Bool) (endSession : Option Nat)
  | pldmDiscovery
  | pldmSensorRead (id : Byte)
  | pldmFwTransfer (off : Nat) (bytes : List Byte)
  | pldmFwVerify
  | pldmFwActivate
  | debugOpen (p : Path)
  | secMeasRead (p : Path) (slot : Fin 32)
  -- power, clocks and reset
  | pwrPstateWrite (p : Path) (w : W32)
  | pwrCapWrite (p : Path) (w : W32)
  | pwrSuspectClear (p : Path)
  | vrStatusPoll (rails : List (Fin 9 × VrRead)) (busErr : List (Fin 9))
  | avsUpdate
  | thermSample (sensors : List Int) (near ports : List Nat) (far : List (Fin 8))
  | thermDutyStep
  | thermtrip
  | pllUnlock (pll : Fin 14) (i : WarmIn)
  | frefDrift (tenthPpm : Int)
  | rstCore (p : Path) (n : Fin 108)
  | rstBay (p : Path) (b : Fin 12)
  | rstPort (p : Path) (port : Fin 10)
  | rstRouter (p : Path)
  | warm (p : Path) (i : WarmIn)
  | domainResetDone
  | rstTimeout (i : WarmIn)
  | vaonLoss
  | hangConsent (p : Path)
  | coreHang (n : Fin 108)
  | queueHang (q : BitVec 14)
  | portHang (port : Fin 10)
  | cmpHang (i : WarmIn)
  -- spares and shadow mode
  | bayFence (p : Path) (b : Fin 12) (slot : Fin 9)
  | baySwitch (p : Path) (b : Fin 12)
  | spareZeroDone (b : Fin 12)
  | retest (p : Path) (b : Fin 12) (slot : Fin 9)
  | retestDone (b : Fin 12) (pass : Bool)
  | shdwCtrlWrite (p : Path) (w : W32)
  -- the pod
  | ras (src : PktSrc)
  | tele (src : PktSrc)
  | heartbeat (src : PktSrc)
  | log (src : PktSrc)
  | commitGen (src : PktSrc)
  | config (src : PktSrc)
  | configAck (src : PktSrc)
  | congest (src : PktSrc)
  | congestPeriod
  | collect (src : PktSrc)
  | collectRsp (src : PktSrc)
  | takeover
  -- rows of the other chapters
  | capVerWrite (ms : W16)
  | linkExpEpochWrite (p : Path) (port : Fin 10) (ep : Byte)
  | ctxScrWrite (p : Path) (c : Byte) (w : W32)
  | pmbAlertN (rails : List (Fin 9 × VrRead))
  | pcieUe
  | hdmDecoderUncommit (j : Fin 8)
  | dmaFinished (l : Fin 96) (index : Nat)
  | windowAccessDone
  deriving DecidableEq, Repr

end Sys2Proof
end

