-- ==== Sys2Proof/Decode.lean ====
section
/-! DEFINITION. The opcode table gives no row any bits: the device takes no command as a word, so no word spells one. The words that the
spec does encode, the Ethaqua instructions of a module and the packets, flits and queue entries, are decoded where the block decodes
them (Machine/Ethaqua.lean, Machine/Wire.lean, Machine/Queues.lean). -/

namespace Sys2Proof

/-- The command that a word of the opcode table's bits spells: none, since no row has bits. -/
def decodeTableWord (_nbits _w : Nat) : Option Instr := none

end Sys2Proof
end

