-- ==== Sys2Proof/Config.lean ====
section
/-! DEFINITION. What one implementation fixes (fuses, straps, the part's ordering code) and the free values that the
spec leaves open. A free value is an opaque constant: no proof can see what it is. -/

namespace Sys2Proof.Config

/-! ## Fused and sampled values (DESIGN CHOICE, log entry 2: the model is one TB2-A part) -/

/-- Serial number words (R99: "Fused"). DESIGN CHOICE. -/
def serialLo : Nat := 0x00000001
def serialHi : Nat := 0x00000000
/-- DEV_CODE: family 0x02, stepping 0, ordering code 0x1 for TB2-A (R99, R22). DESIGN CHOICE. -/
def devCode : Nat := 0x02000100
/-- DEV_STRAP: ROLE_SEL 0, a worker; SB_MODE 0, SB_ADDR 0, SLOT_ID 0 (R581). DESIGN CHOICE. -/
def devStrap : Nat := 0x00000000
/-- FUSE_CODE: ordering code as CAP_ROLE (R496). DESIGN CHOICE. -/
def fuseCode : Nat := 0x00000100
/-- PWR_CAP at reset: EN, and the ordering code's design power, 2,000 W of TB2-A or 1,650 W of TB2-B (R2, R517). -/
def pwrCapReset : Nat := if fuseCode / 256 % 16 = 2 then 0x80000672 else 0x800007D0
/-- FUSE_POLICY: debug lock blown, MEAS_ALL 0 (R496). DESIGN CHOICE. -/
def fusePolicy : Nat := 0x00000100
/-- FUSE_MIN_SVN (R496). DESIGN CHOICE. -/
def fuseMinSvn : Nat := 0
/-- FUSE_NT_REPAIR: no channel on the repair list (R285, R496). DESIGN CHOICE. -/
def fuseNtRepair : Nat := 0xFFFFFFFF

/-! ## Free values: opaque, with no body (named in the assumption log) -/

/-- The n-th free word: values the spec leaves open at one event (log entry 4). -/
opaque freeWord : Nat → Nat
/-- Which of the codes within its bound of the exact result a function of R182 answers: operation, working format, operand code (log
entry 5). -/
opaque fnStep : Nat → Nat → Nat → Nat
/-- The result of a shift by the width or more: operation, working format, both operand codes (R180, log entry 6). -/
opaque wideShift : Nat → Nat → Nat → Nat → Nat
/-- A BERN bit whose p lies outside 0 to 1 or is NaN: p's code and the draw (R195, log entry 6). -/
opaque bernOpen : Nat → Nat → Bool

/-- Signed division of the Gig rounds toward minus infinity rather than toward zero; the spec names neither (R282, log
entry 6). -/
opaque divFloors : Bool
/-- Word offset of a scalar instruction within the translated Gig code, which no interface shows: routine and index
(R208, R221, log entry 8). -/
opaque gigPc : Nat → Nat → Nat
/-- Near-tier address of the translated code line that holds it (R224, log entry 8). -/
opaque gigLine : Nat → Nat → Nat

/-- The sending core of a MSG or ATOM packet that arrives as flits: no header field carries it (R214, R273, R373, log entry
9). -/
opaque packetCore : Nat → Nat

/-- The native stream of one logical core of a translated module, which the spec gives no layout of: the version and the sections that
a translation depends on, the cores of the partition, the core's place among them, translator version, recorded values (R246, log
entry 10). -/
opaque nativeStream : List (List (BitVec 8)) → Nat → Nat → Nat → List Nat → List (BitVec 8)
/-- The Gig code of a translated module: the same, for the partition (R246, log entry 10). -/
opaque nativeGig : List (List (BitVec 8)) → Nat → Nat → List Nat → List (BitVec 8)
/-- The bytes of the recorded capability values, in the order given, in a translated form (R246, log entry 10). -/
opaque nativeCaps : List Nat → List (BitVec 8)

/-- ATS fails a translation of the host window: function, untranslated address, draw; the host's answer (R97, log entry 23). -/
opaque atsFails : Nat → Nat → Nat → Bool
/-- How the host ends a ring access of a function at a bus address: 0 well, 1 ATS fails, 2 UR or CA, modulo 3 (log entry 23). -/
opaque ringAns : Nat → Nat → Nat → Nat
/-- The running chain value that a frozen array shows at a cell (R163, R168, log entry 4). -/
opaque chainWord : Nat → Nat → Nat → Nat

/-- The 32 B description of an entry of the measurement extension log: slot and number of the entry (R481, log entry 11). -/
opaque melDesc : Nat → Nat → List (BitVec 8)
/-- SHA-384 of the 512 KiB mask ROM, whose contents the spec does not give (R482, log entry 12). -/
opaque romHash : List (BitVec 8)
/-- An ECDSA P-384 signature (public key, digest, signature) verifies (R476, log entry 12). -/
opaque ecdsaOk : List (BitVec 8) → List (BitVec 8) → List (BitVec 8) → Bool
/-- The signature that the signer makes over a message with a fresh nonce (R471, R488, log entry 12). -/
opaque ecdsaSign : List (BitVec 8) → Nat → List (BitVec 8)
/-- Length of a certificate chain of the board area, and the public key of its leaf; none where it does not parse (R489, log entry
12). -/
opaque certLeaf : List (BitVec 8) → Option (Nat × List (BitVec 8))
/-- OPE_CTRL that a port configuration record gives a port, and whether it marks the port unused (R346, R358, log entry 13). -/
opaque portCtrl : List (BitVec 8) → Nat → Nat
opaque portUnused : List (BitVec 8) → Nat → Bool
/-- The fused voltage table: target in mV of rail 0 to 2 for an ordering code and the hottest junction (R498, log entry 14). -/
opaque avsTarget : Nat → Nat → Int → Nat
/-- What the pod configuration record and the state log make a new active write by MG_WR, and when: step 1 or 4 of R570, 7 for a
reconciliation of R571; from the applied records and the responses collected. Node, device address and bytes (log entry 15). -/
opaque podPlan : Nat → List (Nat × List (BitVec 8)) → List (Nat × List (BitVec 8)) → List (Nat × Nat × List (BitVec 8))
/-- The workers that the pod configuration record lists (R570, log entry 15). -/
opaque podWorkers : List (Nat × List (BitVec 8)) → List Nat

/-! What else the active Dareder's firmware reads from the records it has applied, or decides (R550, R564, R566, R573, log entry 93). -/

/-- The extent of an axis of the pod. -/
opaque podExtent : List (Nat × List (BitVec 8)) → Nat → Nat
/-- Which way round a torus axis a route goes when both are equally long: class, axis, coordinate here, coordinate there; true: upward. -/
opaque podTieUp : Nat → Nat → Nat → Nat → Bool
/-- The detours of a worker, lowest first, around failed links and fenced devices; from the records, the congestion map, the failed (node, port) pairs and
the fenced devices: value, mask, class mask, OPORT and NPORT. Their channel dependencies have no cycle within a VC (R389). -/
opaque podDetours : List (Nat × List (BitVec 8)) → List (Nat × List (BitVec 8)) → List (Nat × Nat) → List Nat → Nat → List (Nat × Nat × Nat × Nat × Nat)
/-- The attachment workers of the active, or of the standby (R560). -/
opaque podAttach : List (Nat × List (BitVec 8)) → Bool → List Nat
/-- The writes of steps 2 and 3 of R550 for a device: WITHDRAW to its groups, and what goes into the spare. Node, device address and bytes. -/
opaque podSplice : List (Nat × List (BitVec 8)) → Nat → List (Nat × Nat × List (BitVec 8))
/-- The (node, port) pairs that face a device (R550). -/
opaque podFacing : List (Nat × List (BitVec 8)) → Nat → List (Nat × Nat)
/-- Beats beyond the 2 of R391 by which the active arms its changes ahead. -/
opaque podLead : Nat
/-- AXIS, NODE, PARENT and DEPTH of a worker in the newest configuration (R563). -/
opaque podPlace : List (Nat × List (BitVec 8)) → Nat → Nat × Nat × Nat × Nat
/-- N_SHADOW, where the record sets it (R573). -/
opaque podShadows : List (Nat × List (BitVec 8)) → Option Nat
/-- The addresses at which the active reaches the PRIMARY and its SHADOW, where a pair is compared (R552). -/
opaque podPair : List (Nat × List (BitVec 8)) → Option (Nat × Nat)
/-- For a beat of a RESULT or EXACT launch of the pair: whether it is the first, and the last, of its step (R573). -/
opaque podStep : List (Nat × List (BitVec 8)) → Nat → Option (Bool × Bool)
/-- The pod manager grants HANG_CONSENT of a worker (R573). -/
opaque podGrant : List (Nat × List (BitVec 8)) → Nat → Bool
/-- The record of the state log for a change of pod state: its kind and number (R569). -/
opaque podRecord : Nat → Nat → List (BitVec 8)

end Sys2Proof.Config
end

