-- ==== Sys2Proof/Machine/RegNames.lean ====
section
/-! DEFINITION. The names of register space: pages (R73) and the offset of every register of the spec's register
tables. A register is known by its key, page * 1024 + offset / 4; the CTX page of context n (R75, R77) is kept at page
0x4000 + n, and the configuration of queue q at the place R76 gives. -/

namespace Sys2Proof.Machine

/-- The key of the register at an offset of a page. -/
def regKey (page off : Nat) : Nat := page * 1024 + off / 4

/-- The key of the first configuration word of queue q (R76). -/
def qKey (q : Nat) : Nat := regKey (0x0900 + q / 64) 0 + q % 64 * 16

namespace Pg

def dev : Nat := 0x0000
def beat : Nat := 0x0001
def bay (n : Nat) : Nat := 0x0010 + n
def mxa (n : Nat) : Nat := 0x0100 + 4 * n
def tvu (n : Nat) : Nat := 0x0101 + 4 * n
def gig (n : Nat) : Nat := 0x0102 + 4 * n
def scr (n : Nat) : Nat := 0x0103 + 4 * n
def ntc (n : Nat) : Nat := 0x0400 + n
def suu (n : Nat) : Nat := 0x0408 + n
def ftc (n : Nat) : Nat := 0x0410 + n
def memxl : Nat := 0x0420
def wcb : Nat := 0x0421
def ope (n : Nat) : Nat := 0x0500 + n
def link (n : Nat) : Nat := 0x0510 + n
def rtr : Nat := 0x0520
def rtab (n : Nat) : Nat := 0x0521 + n
def stg (n : Nat) : Nat := 0x0530 + n
def bcu (n : Nat) : Nat := 0x0540 + n
def hif : Nat := 0x0600
def sriov : Nat := 0x0601
def ctx (n : Nat) : Nat := 0x4000 + n
def cmp : Nat := 0x0D00
def sec : Nat := 0x0D01
def fuse : Nat := 0x0D02
def jrnl : Nat := 0x0D03
def pwr : Nat := 0x0E00
def clk : Nat := 0x0E01
def rst : Nat := 0x0E02
def hang : Nat := 0x0E03
def therm : Nat := 0x0E04
def ras : Nat := 0x0F00
def tele : Nat := 0x0F10
end Pg

namespace Reg

/-! The common page header (R79), of any page p. -/

def PG_ID (p : Nat) : Nat := regKey p 0x000
def PG_CAP (p : Nat) : Nat := regKey p 0x004
def PG_CTRL (p : Nat) : Nat := regKey p 0x008
def PG_STAT (p : Nat) : Nat := regKey p 0x00C
def PG_INT_STAT (p : Nat) : Nat := regKey p 0x010
def PG_INT_EN (p : Nat) : Nat := regKey p 0x014
def PG_INT_FORCE (p : Nat) : Nat := regKey p 0x018
def PG_ERR_STAT (p : Nat) : Nat := regKey p 0x01C
def PG_ERR_MASK (p : Nat) : Nat := regKey p 0x020
def PG_ERR_INJ (p : Nat) : Nat := regKey p 0x024
def PG_ERR_INJ_MODE (p : Nat) : Nat := regKey p 0x028
def PG_ERR_CNT (p : Nat) : Nat := regKey p 0x02C
def PG_ERR_ADDR_LO (p : Nat) : Nat := regKey p 0x030
def PG_ERR_ADDR_HI (p : Nat) : Nat := regKey p 0x034
def PG_ERR_CTX (p : Nat) : Nat := regKey p 0x038
def PG_ACC_ERR (p : Nat) : Nat := regKey p 0x03C

/-! DEV page (R22, spec/01_machine.md). -/

def CAP_VER : Nat := regKey 0x0000 0x400
def CAP_ROLE : Nat := regKey 0x0000 0x404
def CAP_AXIS : Nat := regKey 0x0000 0x408
def CAP_NODE : Nat := regKey 0x0000 0x40C
def CAP_BAYS : Nat := regKey 0x0000 0x410
def CAP_CLK : Nat := regKey 0x0000 0x414
def CAP_SCR : Nat := regKey 0x0000 0x418
def CAP_FMT : Nat := regKey 0x0000 0x41C
def CAP_NT_TOP_LO : Nat := regKey 0x0000 0x420
def CAP_NT_TOP_HI : Nat := regKey 0x0000 0x424
def CAP_NT_CHAN : Nat := regKey 0x0000 0x428
def CAP_SUU : Nat := regKey 0x0000 0x42C
def CAP_FT_USE_LO : Nat := regKey 0x0000 0x430
def CAP_FT_USE_HI : Nat := regKey 0x0000 0x434
def CAP_FT_LENT_LO : Nat := regKey 0x0000 0x438
def CAP_FT_LENT_HI : Nat := regKey 0x0000 0x43C
def CAP_BEAT : Nat := regKey 0x0000 0x440
def CAP_BEAT_CYC : Nat := regKey 0x0000 0x444
def CAP_PORTS : Nat := regKey 0x0000 0x448
def CAP_HOST : Nat := regKey 0x0000 0x44C
def CAP_CTX : Nat := regKey 0x0000 0x450
def CAP_GRP : Nat := regKey 0x0000 0x454
def CAP_PART : Nat := regKey 0x0000 0x458
def CAP_GEN : Nat := regKey 0x0000 0x45C
def DEV_SERIAL_LO : Nat := regKey 0x0000 0x040
def DEV_SERIAL_HI : Nat := regKey 0x0000 0x044
def DEV_CODE : Nat := regKey 0x0000 0x048
def DEV_STRAP : Nat := regKey 0x0000 0x04C
def DEV_STATE : Nat := regKey 0x0000 0x050
def DEV_CTX_SEL : Nat := regKey 0x0000 0x054
def DEV_ACC_ADDR : Nat := regKey 0x0000 0x058
def DEV_SCRATCH (i : Nat) : Nat := regKey 0x0000 0x060 + i

/-! BEAT page (R65, spec/02_beat.md). -/

def BEAT_FBC_LO : Nat := regKey 0x0001 0x040
def BEAT_FBC_HI : Nat := regKey 0x0001 0x044
def BEAT_NUM_LO : Nat := regKey 0x0001 0x048
def BEAT_NUM_HI : Nat := regKey 0x0001 0x04C
def BEAT_LEN : Nat := regKey 0x0001 0x050
def BEAT_LEN_NEXT : Nat := regKey 0x0001 0x054
def BEAT_LEN_AT_LO : Nat := regKey 0x0001 0x058
def BEAT_LEN_AT_HI : Nat := regKey 0x0001 0x05C
def BEAT_GUARD : Nat := regKey 0x0001 0x060
def BEAT_SERVO_CTRL : Nat := regKey 0x0001 0x064
def BEAT_SERVO_STAT : Nat := regKey 0x0001 0x068
def BEAT_SKEW_MAX : Nat := regKey 0x0001 0x06C
def BEAT_OVR_CTRL : Nat := regKey 0x0001 0x070
def BEAT_SHADOW_DEF : Nat := regKey 0x0001 0x074
def BEAT_OVR_CNT : Nat := regKey 0x0001 0x080
def BEAT_SLIP_CNT : Nat := regKey 0x0001 0x084
def BEAT_FAIL_CNT : Nat := regKey 0x0001 0x088
def BEAT_WDRAW_CNT : Nat := regKey 0x0001 0x08C
def BEAT_SQUASH_LO : Nat := regKey 0x0001 0x090
def BEAT_SQUASH_HI : Nat := regKey 0x0001 0x094
def BEAT_SHFULL_CNT : Nat := regKey 0x0001 0x098
def BEAT_DEFDROP_CNT : Nat := regKey 0x0001 0x09C
def BEAT_CONF_LAST : Nat := regKey 0x0001 0x0A0
def BEAT_CONF_MAX : Nat := regKey 0x0001 0x0A4
def BEAT_HOLD : Nat := regKey 0x0001 0x0A8
def BEAT_CMD : Nat := regKey 0x0001 0x0AC
def BEAT_CMD_ARG_LO : Nat := regKey 0x0001 0x0B0
def BEAT_CMD_ARG_HI : Nat := regKey 0x0001 0x0B4
def BEAT_SET_AT_LO : Nat := regKey 0x0001 0x0C0
def BEAT_SET_AT_HI : Nat := regKey 0x0001 0x0C4
def BEAT_SET_NUM_LO : Nat := regKey 0x0001 0x0C8
def BEAT_SET_NUM_HI : Nat := regKey 0x0001 0x0CC
def BEAT_SET_CTRL : Nat := regKey 0x0001 0x0D0
def BEAT_PART_STAT (i : Nat) : Nat := regKey 0x0001 0x100 + i
def BEAT_EXACT_LOST (i : Nat) : Nat := regKey 0x0001 0x140 + i

/-! JRNL page (R70, spec/02_beat.md). -/

def JRNL_CTRL : Nat := regKey 0x0D03 0x040
def JRNL_STAT : Nat := regKey 0x0D03 0x044
def JRNL_BASE_LO : Nat := regKey 0x0D03 0x048
def JRNL_BASE_HI : Nat := regKey 0x0D03 0x04C
def JRNL_SIZE : Nat := regKey 0x0D03 0x050
def JRNL_HEAD_LO : Nat := regKey 0x0D03 0x058
def JRNL_HEAD_HI : Nat := regKey 0x0D03 0x05C
def JRNL_TAIL_LO : Nat := regKey 0x0D03 0x060
def JRNL_TAIL_HI : Nat := regKey 0x0D03 0x064
def JRNL_REC_LO : Nat := regKey 0x0D03 0x068
def JRNL_REC_HI : Nat := regKey 0x0D03 0x06C
def JRNL_DROP_CNT : Nat := regKey 0x0D03 0x070
def JRNL_LIVE_DROP : Nat := regKey 0x0D03 0x074
def JRNL_REPLAY_OFS_LO : Nat := regKey 0x0D03 0x078
def JRNL_REPLAY_OFS_HI : Nat := regKey 0x0D03 0x07C
def JRNL_CTX_EN (i : Nat) : Nat := regKey 0x0D03 0x080 + i

/-! MXA page (R165, spec/05_matrix_arrays.md). -/

def MXA_MODE (n : Nat) : Nat := regKey (0x0100 + 4 * n) 0x040
def MXA_STAT (n : Nat) : Nat := regKey (0x0100 + 4 * n) 0x044
def MXA_FMT_STAT (n : Nat) : Nat := regKey (0x0100 + 4 * n) 0x048
def MXA_EXC (n : Nat) : Nat := regKey (0x0100 + 4 * n) 0x04C
def MXA_WAVE_LO (n : Nat) : Nat := regKey (0x0100 + 4 * n) 0x050
def MXA_WAVE_HI (n : Nat) : Nat := regKey (0x0100 + 4 * n) 0x054
def MXA_BUSY_LO (n : Nat) : Nat := regKey (0x0100 + 4 * n) 0x058
def MXA_BUSY_HI (n : Nat) : Nat := regKey (0x0100 + 4 * n) 0x05C
def MXA_FSTALL_LO (n : Nat) : Nat := regKey (0x0100 + 4 * n) 0x060
def MXA_FSTALL_HI (n : Nat) : Nat := regKey (0x0100 + 4 * n) 0x064
def MXA_DSTALL_LO (n : Nat) : Nat := regKey (0x0100 + 4 * n) 0x068
def MXA_DSTALL_HI (n : Nat) : Nat := regKey (0x0100 + 4 * n) 0x06C
def MXA_LDWAIT_LO (n : Nat) : Nat := regKey (0x0100 + 4 * n) 0x070
def MXA_LDWAIT_HI (n : Nat) : Nat := regKey (0x0100 + 4 * n) 0x074
def MXA_EXCESS_LO (n : Nat) : Nat := regKey (0x0100 + 4 * n) 0x078
def MXA_EXCESS_HI (n : Nat) : Nat := regKey (0x0100 + 4 * n) 0x07C
def MXA_DBG_CTRL (n : Nat) : Nat := regKey (0x0100 + 4 * n) 0x080
def MXA_DBG_SEL (n : Nat) : Nat := regKey (0x0100 + 4 * n) 0x084
def MXA_DBG_DATA_LO (n : Nat) : Nat := regKey (0x0100 + 4 * n) 0x088
def MXA_DBG_DATA_HI (n : Nat) : Nat := regKey (0x0100 + 4 * n) 0x08C
def MXA_HWM (n : Nat) : Nat := regKey (0x0100 + 4 * n) 0x090

/-! TVU page (R202, spec/06_tile_vector_unit.md). -/

def TVU_STAT (n : Nat) : Nat := regKey (0x0101 + 4 * n) 0x040
def TVU_FMT_STAT (n : Nat) : Nat := regKey (0x0101 + 4 * n) 0x044
def TVU_EXC (n : Nat) : Nat := regKey (0x0101 + 4 * n) 0x048
def TVU_SEED_CTL (n : Nat) : Nat := regKey (0x0101 + 4 * n) 0x04C
def TVU_SEED_LO (n : Nat) : Nat := regKey (0x0101 + 4 * n) 0x050
def TVU_SEED_HI (n : Nat) : Nat := regKey (0x0101 + 4 * n) 0x054
def TVU_LANEOP_LO (n : Nat) : Nat := regKey (0x0101 + 4 * n) 0x058
def TVU_LANEOP_HI (n : Nat) : Nat := regKey (0x0101 + 4 * n) 0x05C
def TVU_BUSY_LO (n : Nat) : Nat := regKey (0x0101 + 4 * n) 0x060
def TVU_BUSY_HI (n : Nat) : Nat := regKey (0x0101 + 4 * n) 0x064
def TVU_SSTALL_LO (n : Nat) : Nat := regKey (0x0101 + 4 * n) 0x068
def TVU_SSTALL_HI (n : Nat) : Nat := regKey (0x0101 + 4 * n) 0x06C
def TVU_FRG_LO (n : Nat) : Nat := regKey (0x0101 + 4 * n) 0x070
def TVU_FRG_HI (n : Nat) : Nat := regKey (0x0101 + 4 * n) 0x074
def TVU_DBG_CTRL (n : Nat) : Nat := regKey (0x0101 + 4 * n) 0x080
def TVU_DBG_SEL (n : Nat) : Nat := regKey (0x0101 + 4 * n) 0x084
def TVU_DBG_DATA (n : Nat) : Nat := regKey (0x0101 + 4 * n) 0x088

/-! GIG page (R221, spec/07_gig_cores.md). -/

def GIG_STAT (n : Nat) : Nat := regKey (0x0102 + 4 * n) 0x040
def GIG_EXC (n : Nat) : Nat := regKey (0x0102 + 4 * n) 0x044
def GIG_EXC_PC (n : Nat) : Nat := regKey (0x0102 + 4 * n) 0x048
def GIG_FIFO_STAT (n : Nat) : Nat := regKey (0x0102 + 4 * n) 0x04C
def GIG_FIFO_CTRL (n : Nat) : Nat := regKey (0x0102 + 4 * n) 0x050
def GIG_DROP_CNT (n : Nat) : Nat := regKey (0x0102 + 4 * n) 0x054
def GIG_PART_CNT (n : Nat) : Nat := regKey (0x0102 + 4 * n) 0x058
def GIG_FLUSH_CNT (n : Nat) : Nat := regKey (0x0102 + 4 * n) 0x05C
def GIG_INSN_LO (n : Nat) : Nat := regKey (0x0102 + 4 * n) 0x060
def GIG_INSN_HI (n : Nat) : Nat := regKey (0x0102 + 4 * n) 0x064
def GIG_BUSY_LO (n : Nat) : Nat := regKey (0x0102 + 4 * n) 0x068
def GIG_BUSY_HI (n : Nat) : Nat := regKey (0x0102 + 4 * n) 0x06C
def GIG_SSTALL_LO (n : Nat) : Nat := regKey (0x0102 + 4 * n) 0x070
def GIG_SSTALL_HI (n : Nat) : Nat := regKey (0x0102 + 4 * n) 0x074
def GIG_IFETCH_LO (n : Nat) : Nat := regKey (0x0102 + 4 * n) 0x078
def GIG_IFETCH_HI (n : Nat) : Nat := regKey (0x0102 + 4 * n) 0x07C
def GIG_DBG_CTRL (n : Nat) : Nat := regKey (0x0102 + 4 * n) 0x080
def GIG_DBG_SEL (n : Nat) : Nat := regKey (0x0102 + 4 * n) 0x084
def GIG_DBG_DATA_LO (n : Nat) : Nat := regKey (0x0102 + 4 * n) 0x088
def GIG_DBG_DATA_HI (n : Nat) : Nat := regKey (0x0102 + 4 * n) 0x08C

/-! NTC page (R310, spec/10_memory_tiers.md). -/

def NT_CHAN (n : Nat) : Nat := regKey (0x0400 + n) 0x040
def NT_TEMP (n : Nat) : Nat := regKey (0x0400 + n) 0x044
def NT_SCRUB_CTRL (n : Nat) : Nat := regKey (0x0400 + n) 0x048
def NT_SCRUB_POS (n : Nat) : Nat := regKey (0x0400 + n) 0x04C
def NT_STORM_CTRL (n : Nat) : Nat := regKey (0x0400 + n) 0x050
def NT_CE_CNT (n : Nat) : Nat := regKey (0x0400 + n) 0x054
def NT_UE_CNT (n : Nat) : Nat := regKey (0x0400 + n) 0x058
def NT_POISON_RD_CNT (n : Nat) : Nat := regKey (0x0400 + n) 0x05C
def NT_ODECC_CNT (n : Nat) : Nat := regKey (0x0400 + n) 0x060
def NT_RD_LO (n : Nat) : Nat := regKey (0x0400 + n) 0x068
def NT_RD_HI (n : Nat) : Nat := regKey (0x0400 + n) 0x06C
def NT_WR_LO (n : Nat) : Nat := regKey (0x0400 + n) 0x070
def NT_WR_HI (n : Nat) : Nat := regKey (0x0400 + n) 0x074
def NT_CE_CH (n : Nat) (i : Nat) : Nat := regKey (0x0400 + n) 0x080 + i

/-! FTC page (R312, spec/10_memory_tiers.md). -/

def FT_CFG (n : Nat) : Nat := regKey (0x0410 + n) 0x040
def FT_STAT (n : Nat) : Nat := regKey (0x0410 + n) 0x044
def FT_SCRUB_CTRL (n : Nat) : Nat := regKey (0x0410 + n) 0x048
def FT_STORM_CTRL (n : Nat) : Nat := regKey (0x0410 + n) 0x04C
def FT_CE_CNT (n : Nat) : Nat := regKey (0x0410 + n) 0x050
def FT_UE_CNT (n : Nat) : Nat := regKey (0x0410 + n) 0x054
def FT_POISON_RD_CNT (n : Nat) : Nat := regKey (0x0410 + n) 0x058
def FT_CHKCRC_CNT (n : Nat) : Nat := regKey (0x0410 + n) 0x05C
def FT_TEMP (n : Nat) : Nat := regKey (0x0410 + n) 0x060
def FT_RD_LO (n : Nat) : Nat := regKey (0x0410 + n) 0x068
def FT_RD_HI (n : Nat) : Nat := regKey (0x0410 + n) 0x06C
def FT_WR_LO (n : Nat) : Nat := regKey (0x0410 + n) 0x070
def FT_WR_HI (n : Nat) : Nat := regKey (0x0410 + n) 0x074
def FT_RMW_LO (n : Nat) : Nat := regKey (0x0410 + n) 0x078
def FT_RMW_HI (n : Nat) : Nat := regKey (0x0410 + n) 0x07C
def FT_CHKMISS_LO (n : Nat) : Nat := regKey (0x0410 + n) 0x080
def FT_CHKMISS_HI (n : Nat) : Nat := regKey (0x0410 + n) 0x084

/-! MEMXL page (R314, spec/10_memory_tiers.md). -/

def XL_NT_N : Nat := regKey 0x0420 0x040
def XL_FT_POP : Nat := regKey 0x0420 0x044
def XL_INVAL : Nat := regKey 0x0420 0x048
def XL_INVAL_STAT : Nat := regKey 0x0420 0x04C
def XL_INVAL_VA_LO : Nat := regKey 0x0420 0x050
def XL_INVAL_VA_HI : Nat := regKey 0x0420 0x054
def XL_INVAL_PAGES : Nat := regKey 0x0420 0x058
def XL_FAULT : Nat := regKey 0x0420 0x05C
def XL_WIN_ADDR_LO : Nat := regKey 0x0420 0x060
def XL_WIN_ADDR_HI : Nat := regKey 0x0420 0x064
def XL_WIN_DATA_LO : Nat := regKey 0x0420 0x068
def XL_WIN_DATA_HI : Nat := regKey 0x0420 0x06C
def XL_WIN_CMD : Nat := regKey 0x0420 0x070
def XL_WIN_STAT : Nat := regKey 0x0420 0x074
def XL_LOG_HEAD : Nat := regKey 0x0420 0x078
def XL_LOG_TAIL : Nat := regKey 0x0420 0x07C
def XL_LOG_DROP : Nat := regKey 0x0420 0x080
def XL_INB_FAULT : Nat := regKey 0x0420 0x084
def XL_TLB_MISS_LO : Nat := regKey 0x0420 0x088
def XL_TLB_MISS_HI : Nat := regKey 0x0420 0x08C
def XL_CHMAP (i : Nat) : Nat := regKey 0x0420 0x100 + i
def XL_LOG (i : Nat) : Nat := regKey 0x0420 0x400 + i
def XL_ROOT (i : Nat) : Nat := regKey 0x0420 0x800 + 2 * i

/-! WCB page (R317, spec/10_memory_tiers.md). -/

def WCB_STAT : Nat := regKey 0x0421 0x040
def WCB_FLUSH : Nat := regKey 0x0421 0x044
def WCB_OCC (i : Nat) : Nat := regKey 0x0421 0x050 + i
def WCB_MERGE_LO : Nat := regKey 0x0421 0x080
def WCB_MERGE_HI : Nat := regKey 0x0421 0x084
def WCB_WHOLE_LO : Nat := regKey 0x0421 0x088
def WCB_WHOLE_HI : Nat := regKey 0x0421 0x08C
def WCB_RMW_LO : Nat := regKey 0x0421 0x090
def WCB_RMW_HI : Nat := regKey 0x0421 0x094
def WCB_FULLEV_CNT : Nat := regKey 0x0421 0x098

/-! SUU page (R338, spec/11_stack_update_units.md). -/

def SUU_STAT (n : Nat) : Nat := regKey (0x0408 + n) 0x040
def SUU_SLOT_VALID (n : Nat) : Nat := regKey (0x0408 + n) 0x044
def SUU_SLOT_PART (n : Nat) : Nat := regKey (0x0408 + n) 0x048
def SUU_LAST (n : Nat) : Nat := regKey (0x0408 + n) 0x04C
def SUU_FMT_STAT (n : Nat) (i : Nat) : Nat := regKey (0x0408 + n) 0x050 + i
def SUU_SLOT_CTX_LO (n : Nat) : Nat := regKey (0x0408 + n) 0x060
def SUU_SLOT_CTX_HI (n : Nat) : Nat := regKey (0x0408 + n) 0x064
def SUU_ELEM_LO (n : Nat) : Nat := regKey (0x0408 + n) 0x068
def SUU_ELEM_HI (n : Nat) : Nat := regKey (0x0408 + n) 0x06C
def SUU_BYTES_LO (n : Nat) : Nat := regKey (0x0408 + n) 0x070
def SUU_BYTES_HI (n : Nat) : Nat := regKey (0x0408 + n) 0x074
def SUU_BUSY_LO (n : Nat) : Nat := regKey (0x0408 + n) 0x078
def SUU_BUSY_HI (n : Nat) : Nat := regKey (0x0408 + n) 0x07C
def SUU_POISON_CNT (n : Nat) : Nat := regKey (0x0408 + n) 0x080
def SUU_RERUN_CNT (n : Nat) : Nat := regKey (0x0408 + n) 0x084

/-! OPE page (R367, spec/12_optical_ports.md). -/

def OPE_CTRL (n : Nat) : Nat := regKey (0x0500 + n) 0x040
def OPE_STAT (n : Nat) : Nat := regKey (0x0500 + n) 0x044
def OPE_LANE_FAIL (n : Nat) : Nat := regKey (0x0500 + n) 0x048
def OPE_LANE_DEG (n : Nat) : Nat := regKey (0x0500 + n) 0x04C
def OPE_TEMP (n : Nat) : Nat := regKey (0x0500 + n) 0x050
def OPE_DEG_CNT (n : Nat) : Nat := regKey (0x0500 + n) 0x054
def OPE_THRESH (n : Nat) : Nat := regKey (0x0500 + n) 0x058
def OPE_LANE (n : Nat) (i : Nat) : Nat := regKey (0x0500 + n) 0x080 + i

/-! LINK page (R370, spec/12_optical_ports.md). -/

def LINK_CTRL (n : Nat) : Nat := regKey (0x0510 + n) 0x040
def LINK_STAT (n : Nat) : Nat := regKey (0x0510 + n) 0x044
def LINK_PEER_SER_LO (n : Nat) : Nat := regKey (0x0510 + n) 0x048
def LINK_PEER_SER_HI (n : Nat) : Nat := regKey (0x0510 + n) 0x04C
def LINK_PEER_ID (n : Nat) : Nat := regKey (0x0510 + n) 0x050
def LINK_PEER_EPOCH (n : Nat) : Nat := regKey (0x0510 + n) 0x054
def LINK_EXP_EPOCH (n : Nat) : Nat := regKey (0x0510 + n) 0x058
def LINK_DELAY (n : Nat) : Nat := regKey (0x0510 + n) 0x05C
def LINK_TRAIN_LAST (n : Nat) : Nat := regKey (0x0510 + n) 0x060
def LINK_TXF_LO (n : Nat) : Nat := regKey (0x0510 + n) 0x080
def LINK_TXF_HI (n : Nat) : Nat := regKey (0x0510 + n) 0x084
def LINK_RXF_LO (n : Nat) : Nat := regKey (0x0510 + n) 0x088
def LINK_RXF_HI (n : Nat) : Nat := regKey (0x0510 + n) 0x08C
def LINK_CW_LO (n : Nat) : Nat := regKey (0x0510 + n) 0x090
def LINK_CW_HI (n : Nat) : Nat := regKey (0x0510 + n) 0x094
def LINK_CORR_LO (n : Nat) : Nat := regKey (0x0510 + n) 0x098
def LINK_CORR_HI (n : Nat) : Nat := regKey (0x0510 + n) 0x09C
def LINK_UCW_LO (n : Nat) : Nat := regKey (0x0510 + n) 0x0A0
def LINK_UCW_HI (n : Nat) : Nat := regKey (0x0510 + n) 0x0A4
def LINK_REPLAY_LO (n : Nat) : Nat := regKey (0x0510 + n) 0x0A8
def LINK_REPLAY_HI (n : Nat) : Nat := regKey (0x0510 + n) 0x0AC
def LINK_CRC_CNT (n : Nat) : Nat := regKey (0x0510 + n) 0x0C0
def LINK_NAK_CNT (n : Nat) : Nat := regKey (0x0510 + n) 0x0C4
def LINK_RETRAIN_CNT (n : Nat) : Nat := regKey (0x0510 + n) 0x0C8
def LINK_WIDTH_CNT (n : Nat) : Nat := regKey (0x0510 + n) 0x0CC
def LINK_SYNC_LOST (n : Nat) : Nat := regKey (0x0510 + n) 0x0D0
def LINK_QUAR_DROP (n : Nat) : Nat := regKey (0x0510 + n) 0x0D4
def LINK_DISCARD (n : Nat) : Nat := regKey (0x0510 + n) 0x0D8
def LINK_COLLIDE (n : Nat) : Nat := regKey (0x0510 + n) 0x0DC

/-! RTR page (R396, spec/13_packets_and_routing.md). -/

def RTR_BANK : Nat := regKey 0x0520 0x040
def RTR_BANK_NEXT : Nat := regKey 0x0520 0x044
def RTR_BANK_AT_LO : Nat := regKey 0x0520 0x048
def RTR_BANK_AT_HI : Nat := regKey 0x0520 0x04C
def RTR_DRAIN_ARM : Nat := regKey 0x0520 0x050
def RTR_INFLIGHT_A : Nat := regKey 0x0520 0x054
def RTR_INFLIGHT_B : Nat := regKey 0x0520 0x058
def RTR_FEP : Nat := regKey 0x0520 0x05C
def RTR_FEP_NEXT : Nat := regKey 0x0520 0x060
def RTR_FEP_AT_LO : Nat := regKey 0x0520 0x064
def RTR_FEP_AT_HI : Nat := regKey 0x0520 0x068
def RTR_DAR_NODE : Nat := regKey 0x0520 0x06C
def RTR_DAR_PORT : Nat := regKey 0x0520 0x070
def RTR_HIST_CTRL : Nat := regKey 0x0520 0x074
def RTR_HIST_BEAT_LO : Nat := regKey 0x0520 0x078
def RTR_HIST_BEAT_HI : Nat := regKey 0x0520 0x07C
def RTR_DROP_EPOCH : Nat := regKey 0x0520 0x080
def RTR_DROP_GEN : Nat := regKey 0x0520 0x084
def RTR_DROP_NOROUTE : Nat := regKey 0x0520 0x088
def RTR_DROP_LINKDOWN : Nat := regKey 0x0520 0x08C
def RTR_DROP_BADPKT : Nat := regKey 0x0520 0x090
def RTR_LATE_CNT : Nat := regKey 0x0520 0x094
def RTR_UNDECL_CNT : Nat := regKey 0x0520 0x098
def RTR_CRC_BAD_CNT : Nat := regKey 0x0520 0x09C
def RTR_INJ_LO : Nat := regKey 0x0520 0x0A0
def RTR_INJ_HI : Nat := regKey 0x0520 0x0A4
def RTR_EJ_LO : Nat := regKey 0x0520 0x0A8
def RTR_EJ_HI : Nat := regKey 0x0520 0x0AC
def RTR_FWD_LO : Nat := regKey 0x0520 0x0B0
def RTR_FWD_HI : Nat := regKey 0x0520 0x0B4
def RTR_HIST (i : Nat) : Nat := regKey 0x0520 0x400 + i

/-! RTAB page (R398, spec/13_packets_and_routing.md). -/

def RTAB_NORM (n : Nat) (i : Nat) : Nat := regKey (0x0521 + n) 0x100 + i
def DT_MATCH (n : Nat) (i : Nat) : Nat := regKey (0x0521 + n) 0x300 + 4 * i
def DT_COND (n : Nat) (i : Nat) : Nat := regKey (0x0521 + n) 0x304 + 4 * i
def DT_ACT (n : Nat) (i : Nat) : Nat := regKey (0x0521 + n) 0x308 + 4 * i

/-! STG page (R426, spec/14_collectives.md). -/

def STG_STAT (n : Nat) : Nat := regKey (0x0530 + n) 0x040
def STG_FMT (n : Nat) : Nat := regKey (0x0530 + n) 0x044
def STG_HOLD_OCC (n : Nat) : Nat := regKey (0x0530 + n) 0x048
def STG_TX_LO (n : Nat) : Nat := regKey (0x0530 + n) 0x050
def STG_TX_HI (n : Nat) : Nat := regKey (0x0530 + n) 0x054
def STG_RX_LO (n : Nat) : Nat := regKey (0x0530 + n) 0x058
def STG_RX_HI (n : Nat) : Nat := regKey (0x0530 + n) 0x05C
def STG_ELEM_LO (n : Nat) : Nat := regKey (0x0530 + n) 0x060
def STG_ELEM_HI (n : Nat) : Nat := regKey (0x0530 + n) 0x064
def STG_HOLD_CYC_LO (n : Nat) : Nat := regKey (0x0530 + n) 0x068
def STG_HOLD_CYC_HI (n : Nat) : Nat := regKey (0x0530 + n) 0x06C
def STG_SUB_BAD (n : Nat) : Nat := regKey (0x0530 + n) 0x070
def STG_STRAY (n : Nat) : Nat := regKey (0x0530 + n) 0x074
def STG_ABANDON (n : Nat) : Nat := regKey (0x0530 + n) 0x078
def GRP_CFG (i : Nat) : Nat := regKey 0x0530 0x400 + 4 * i
def GRP_BND (i : Nat) : Nat := regKey 0x0530 0x404 + 4 * i
def GRP_BLK (i : Nat) : Nat := regKey 0x0530 0x408 + 4 * i
def GRP_TAP (i : Nat) : Nat := regKey 0x0530 0x40C + 4 * i

/-! BCU page (R428, spec/14_collectives.md). -/

def BCU_STAT (n : Nat) : Nat := regKey (0x0540 + n) 0x040
def BCU_FMT_STAT (n : Nat) : Nat := regKey (0x0540 + n) 0x044
def BCU_TAP_Q (n : Nat) : Nat := regKey (0x0540 + n) 0x048
def BCU_TAP_QS (n : Nat) : Nat := regKey (0x0540 + n) 0x04C
def BCU_TAP_N (n : Nat) : Nat := regKey (0x0540 + n) 0x050
def BCU_IN_LO (n : Nat) : Nat := regKey (0x0540 + n) 0x058
def BCU_IN_HI (n : Nat) : Nat := regKey (0x0540 + n) 0x05C
def BCU_OUT_LO (n : Nat) : Nat := regKey (0x0540 + n) 0x060
def BCU_OUT_HI (n : Nat) : Nat := regKey (0x0540 + n) 0x064
def BCU_WAIT_LO (n : Nat) : Nat := regKey (0x0540 + n) 0x068
def BCU_WAIT_HI (n : Nat) : Nat := regKey (0x0540 + n) 0x06C

/-! HIF page (R467, spec/16_host_queues_tenants.md). -/

def HIF_LINK : Nat := regKey 0x0600 0x040
def HIF_CTX_CMD : Nat := regKey 0x0600 0x044
def HIF_CTX_STAT : Nat := regKey 0x0600 0x048
def HIF_EQ : Nat := regKey 0x0600 0x04C
def HIF_ZERO_ADDR_LO : Nat := regKey 0x0600 0x050
def HIF_ZERO_ADDR_HI : Nat := regKey 0x0600 0x054
def HIF_ZERO_LEN : Nat := regKey 0x0600 0x058
def HIF_ZERO_CMD : Nat := regKey 0x0600 0x05C
def HIF_ZERO_STAT : Nat := regKey 0x0600 0x060
def HIF_LEND_RES : Nat := regKey 0x0600 0x064
def HIF_STAGE : Nat := regKey 0x0600 0x068
def HIF_RXB_LO : Nat := regKey 0x0600 0x070
def HIF_RXB_HI : Nat := regKey 0x0600 0x074
def HIF_TXB_LO : Nat := regKey 0x0600 0x078
def HIF_TXB_HI : Nat := regKey 0x0600 0x07C
def HIF_MSG_DROP : Nat := regKey 0x0600 0x080
def HIF_DB_BAD_CNT : Nat := regKey 0x0600 0x084
def HIF_ATS_FAIL_CNT : Nat := regKey 0x0600 0x088
def HIF_BAY_PART0 : Nat := regKey 0x0600 0x100
def HIF_BAY_PART1 : Nat := regKey 0x0600 0x104
def HIF_PART_SLOTLEN (i : Nat) : Nat := regKey 0x0600 0x140 + i
def HIF_SLOT (i : Nat) : Nat := regKey 0x0600 0x200 + i
def HIF_RES (i : Nat) : Nat := regKey 0x0600 0x600 + i
def LEND_BASE (i : Nat) : Nat := regKey 0x0600 0x700 + 4 * i
def LEND_SIZE (i : Nat) : Nat := regKey 0x0600 0x704 + 4 * i
def LEND_CTRL (i : Nat) : Nat := regKey 0x0600 0x708 + 4 * i
def LEND_STAT (i : Nat) : Nat := regKey 0x0600 0x70C + 4 * i

/-! SRIOV page (R468, spec/16_host_queues_tenants.md). -/

def SRIOV_NUMVF : Nat := regKey 0x0601 0x040
def SRIOV_FLR : Nat := regKey 0x0601 0x044
def SRIOV_CTX (i : Nat) : Nat := regKey 0x0601 0x100 + i

/-! QCFG page (R469, spec/16_host_queues_tenants.md). -/

def Q_CTRL (q : Nat) : Nat := qKey q + 0
def Q_PAIR (q : Nat) : Nat := qKey q + 1
def Q_BASE_LO (q : Nat) : Nat := qKey q + 2
def Q_BASE_HI (q : Nat) : Nat := qKey q + 3
def Q_HEAD (q : Nat) : Nat := qKey q + 4
def Q_TAIL (q : Nat) : Nat := qKey q + 5
def Q_STAT (q : Nat) : Nat := qKey q + 6
def Q_TMO (q : Nat) : Nat := qKey q + 7
def Q_DROP (q : Nat) : Nat := qKey q + 8
def Q_TRUNC (q : Nat) : Nat := qKey q + 9

/-! CTX page (R470, spec/16_host_queues_tenants.md). -/

def CTX_STATE (n : Nat) : Nat := regKey (0x4000 + n) 0x040
def CTX_QRANGE (n : Nat) : Nat := regKey (0x4000 + n) 0x044
def CTX_SCR (n : Nat) : Nat := regKey (0x4000 + n) 0x048
def CTX_EQ (n : Nat) : Nat := regKey (0x4000 + n) 0x04C
def CTX_LAUNCH (n : Nat) : Nat := regKey (0x4000 + n) 0x050
def CTX_HANDLES (n : Nat) : Nat := regKey (0x4000 + n) 0x054
def CTX_REFUSE (n : Nat) : Nat := regKey (0x4000 + n) 0x058
def CTX_DBSYNC (n : Nat) : Nat := regKey (0x4000 + n) 0x05C
def CTX_BEATS_LO (n : Nat) : Nat := regKey (0x4000 + n) 0x060
def CTX_BEATS_HI (n : Nat) : Nat := regKey (0x4000 + n) 0x064
def CTX_E (n : Nat) (i : Nat) : Nat := regKey (0x4000 + n) 0x100 + 2 * i

/-! CMP page (R494, spec/17_chaise_and_trust.md). -/

def CMP_STAT : Nat := regKey 0x0D00 0x040
def CMP_FW_VER : Nat := regKey 0x0D00 0x044
def CMP_TVER : Nat := regKey 0x0D00 0x048
def CMP_HB : Nat := regKey 0x0D00 0x04C
def CMP_XC_BASE_LO : Nat := regKey 0x0D00 0x050
def CMP_XC_BASE_HI : Nat := regKey 0x0D00 0x054
def CMP_XC_SIZE : Nat := regKey 0x0D00 0x058
def CMP_XC_USED : Nat := regKey 0x0D00 0x05C
def CMP_WARM_CNT : Nat := regKey 0x0D00 0x060
def CMP_SRAM_CE_CNT : Nat := regKey 0x0D00 0x064
def CMP_BOOT_MS : Nat := regKey 0x0D00 0x068

/-! SEC page (R495, spec/17_chaise_and_trust.md). -/

def SEC_STAT : Nat := regKey 0x0D01 0x040
def SEC_IMG_SVN : Nat := regKey 0x0D01 0x044
def SEC_DBG_CTRL : Nat := regKey 0x0D01 0x048
def SEC_MEL_CNT : Nat := regKey 0x0D01 0x04C
def SEC_EXT_LO : Nat := regKey 0x0D01 0x050
def SEC_EXT_HI : Nat := regKey 0x0D01 0x054
def SEC_SPDM_ERR : Nat := regKey 0x0D01 0x058
def SEC_MEAS (i : Nat) : Nat := regKey 0x0D01 0x400 + i

/-! FUSE page (R496, spec/17_chaise_and_trust.md). -/

def FUSE_CODE : Nat := regKey 0x0D02 0x040
def FUSE_POLICY : Nat := regKey 0x0D02 0x044
def FUSE_MIN_SVN : Nat := regKey 0x0D02 0x048
def FUSE_NT_REPAIR0 : Nat := regKey 0x0D02 0x050
def FUSE_NT_REPAIR1 : Nat := regKey 0x0D02 0x054
def FUSE_ROM_DIGEST (i : Nat) : Nat := regKey 0x0D02 0x100 + i
def FUSE_VKEY_HASH (i : Nat) : Nat := regKey 0x0D02 0x140 + i
def FUSE_ID_PUB (i : Nat) : Nat := regKey 0x0D02 0x180 + i

/-! PWR page (R517, spec/18_power_clocks_reset.md). -/

def PWR_PSTATE : Nat := regKey 0x0E00 0x040
def PWR_STAT : Nat := regKey 0x0E00 0x044
def PWR_CAP : Nat := regKey 0x0E00 0x048
def PWR_CAP_WIN : Nat := regKey 0x0E00 0x04C
def PWR_PKG : Nat := regKey 0x0E00 0x050
def PWR_PKG_MAX : Nat := regKey 0x0E00 0x054
def PWR_THR_CNT : Nat := regKey 0x0E00 0x058
def PWR_UV_CNT : Nat := regKey 0x0E00 0x05C
def PWR_UV_FIRST_LO : Nat := regKey 0x0E00 0x060
def PWR_UV_FIRST_HI : Nat := regKey 0x0E00 0x064
def PWR_UV_LAST_LO : Nat := regKey 0x0E00 0x068
def PWR_UV_LAST_HI : Nat := regKey 0x0E00 0x06C
def PWR_SUSPECT : Nat := regKey 0x0E00 0x070
def PWR_ENERGY_LO : Nat := regKey 0x0E00 0x078
def PWR_ENERGY_HI : Nat := regKey 0x0E00 0x07C
def PWR_RAIL (i : Nat) : Nat := regKey 0x0E00 0x080 + i
def PWR_AVS_D0 : Nat := regKey 0x0E00 0x0C0
def PWR_AVS_D1 : Nat := regKey 0x0E00 0x0C4
def PWR_AVS_SRAM : Nat := regKey 0x0E00 0x0C8

/-! CLK page (R518, spec/18_power_clocks_reset.md). -/

def CLK_STAT : Nat := regKey 0x0E01 0x040
def CLK_FREF_PPM : Nat := regKey 0x0E01 0x044
def CLK_LOCKLOSS_CNT : Nat := regKey 0x0E01 0x048

/-! RST page (R519, spec/18_power_clocks_reset.md). -/

def RST_CMD : Nat := regKey 0x0E02 0x040
def RST_STAT : Nat := regKey 0x0E02 0x044
def RST_CAUSE : Nat := regKey 0x0E02 0x048
def RST_CORE_CNT : Nat := regKey 0x0E02 0x050
def RST_BAY_CNT : Nat := regKey 0x0E02 0x054
def RST_PORT_CNT : Nat := regKey 0x0E02 0x058
def RST_ROUTER_CNT : Nat := regKey 0x0E02 0x05C
def RST_FLR_CNT : Nat := regKey 0x0E02 0x060
def RST_WARM_CNT : Nat := regKey 0x0E02 0x064

/-! THERM page (R520, spec/18_power_clocks_reset.md). -/

def THERM_STAT : Nat := regKey 0x0E04 0x040
def THERM_THR : Nat := regKey 0x0E04 0x044
def THERM_TRIP : Nat := regKey 0x0E04 0x048
def THERM_THR_CNT : Nat := regKey 0x0E04 0x04C
def THERM_MAX : Nat := regKey 0x0E04 0x050
def THERM_SENS (i : Nat) : Nat := regKey 0x0E04 0x080 + i

/-! SCR page (R537, spec/19_errors_and_injection.md). -/

def SCR_STAT (n : Nat) : Nat := regKey (0x0103 + 4 * n) 0x040
def SCR_CE_CNT (n : Nat) : Nat := regKey (0x0103 + 4 * n) 0x044
def SCR_UE_CNT (n : Nat) : Nat := regKey (0x0103 + 4 * n) 0x048

/-! HANG page (R538, spec/19_errors_and_injection.md). -/

def HANG_CTRL : Nat := regKey 0x0E03 0x040
def HANG_WIN : Nat := regKey 0x0E03 0x044
def HANG_STAT : Nat := regKey 0x0E03 0x048
def HANG_CONSENT : Nat := regKey 0x0E03 0x04C
def HANG_LAST : Nat := regKey 0x0E03 0x050
def HANG_LAST_TGT : Nat := regKey 0x0E03 0x054
def HANG_CNT : Nat := regKey 0x0E03 0x058
def HANG_ESC (i : Nat) : Nat := regKey 0x0E03 0x060 + 2 * i
def HANG_ESC_DOM : Nat := regKey 0x0E03 0x078

/-! RAS page (R539, spec/19_errors_and_injection.md). -/

def RAS_STAT : Nat := regKey 0x0F00 0x040
def RAS_SEEN : Nat := regKey 0x0F00 0x044
def RAS_ROUTE (i : Nat) : Nat := regKey 0x0F00 0x050 + i
def RAS_LOG_HEAD : Nat := regKey 0x0F00 0x070
def RAS_LOG_TAIL : Nat := regKey 0x0F00 0x074
def RAS_LOG_DROP : Nat := regKey 0x0F00 0x078
def RAS_REC_LO : Nat := regKey 0x0F00 0x080
def RAS_REC_HI : Nat := regKey 0x0F00 0x084
def RAS_LOG (i : Nat) : Nat := regKey 0x0F00 0x400 + i
def RAS_PEND (i : Nat) : Nat := regKey 0x0F00 0x800 + i

/-! TELE page (R541, spec/19_errors_and_injection.md). -/

def TELE_CTRL : Nat := regKey 0x0F10 0x040
def TELE_FWD : Nat := regKey 0x0F10 0x044
def TELE_HEAD : Nat := regKey 0x0F10 0x048
def TELE_TAIL : Nat := regKey 0x0F10 0x04C
def TELE_DROP : Nat := regKey 0x0F10 0x050
def TELE_EVT (i : Nat) : Nat := regKey 0x0F10 0x400 + i

/-! BAY page (R558, spec/20_spares_and_recovery.md). -/

def BAY_L2P (n : Nat) : Nat := regKey (0x0010 + n) 0x040
def BAY_CORE_STAT (n : Nat) : Nat := regKey (0x0010 + n) 0x044
def BAY_CTRL (n : Nat) : Nat := regKey (0x0010 + n) 0x048
def BAY_CMD (n : Nat) : Nat := regKey (0x0010 + n) 0x04C
def BAY_STAT (n : Nat) : Nat := regKey (0x0010 + n) 0x050
def BAY_FW_DROP (n : Nat) : Nat := regKey (0x0010 + n) 0x054
def BAY_SWITCH_CNT (n : Nat) : Nat := regKey (0x0010 + n) 0x058
def BAY_FENCE_LAST (n : Nat) : Nat := regKey (0x0010 + n) 0x05C
def BAY_FENCE_BEAT_LO (n : Nat) : Nat := regKey (0x0010 + n) 0x060
def BAY_FENCE_BEAT_HI (n : Nat) : Nat := regKey (0x0010 + n) 0x064
def BAY_XEXC (n : Nat) (i : Nat) : Nat := regKey (0x0010 + n) 0x080 + i
def SHDW_CTRL : Nat := regKey 0x0010 0x100
def SHDW_STAT : Nat := regKey 0x0010 0x104
def SHDW_MIR_DROP : Nat := regKey 0x0010 0x108
def SHDW_DIG_DROP : Nat := regKey 0x0010 0x10C
def SHDW_HEAD : Nat := regKey 0x0010 0x110
def SHDW_TAIL : Nat := regKey 0x0010 0x114
def SHDW_DIG (i : Nat) : Nat := regKey 0x0010 0x200 + i

end Reg
end Sys2Proof.Machine
end

