-- ==== Sys2Proof/Machine/RegTable.lean ====
section
/-! DEFINITION. The register tables of the spec: for each kind of page, its registers' offsets, writable fields, access
codes and reset values (R73, R79, R80 and the page tables of every chapter). -/

namespace Sys2Proof.Machine

/-- The kinds of page of R73; hole is every page the table does not list. -/
inductive PageKind where
  | dev | beat | bay | mxa | tvu | gig | scr | ntc | suu | ftc | memxl | wcb | ope | link | rtr | rtab | stg | bcu | hif | sriov | ctx | cmp | sec | fuse | jrnl | pwr | clk | rst | hang | therm | ras | tele | qdb | qcfg | ctxWindow | hole
  deriving DecidableEq, Repr

/-- How a register behaves beyond its field masks: plain; RWL fields (R81); the words of an event-counter pair and of a
time-counter pair (R91). -/
inductive RegKind where
  | plain | locked | eventLo | eventHi | timeLo | timeHi
  deriving DecidableEq, Repr

/-- Who may write a register: any path; the management VC only (R78); the Chaise and the management VC (R65); the PF and
the management VC (R558); no VF, whose write is flagged RO (R470); the PF alone (R337). -/
inductive RegWho where
  | any | dareder | chaiseMgmt | pfMgmt | pf | pfOnly
  deriving DecidableEq, Repr

/-- One row of a register table: n registers from off, stride bytes apart; the masks of the bits a write stores, of the
bits a 1 clears, and of the write-only bits; whether the register is one word of a 64A pair; and its reset value. -/
structure RegRow where
  off : Nat
  n : Nat
  stride : Nat
  wr : Nat
  c1 : Nat
  wo : Nat
  kind : RegKind
  who : RegWho
  a64 : Bool
  reset : Nat
  deriving DecidableEq, Repr

/-- The block-specific registers of a page of kind dev. -/
def rows_dev : List RegRow :=
  [⟨0x400, 1, 4, 0, 0, 0, .plain, .any, false, 0⟩,
   ⟨0x404, 1, 4, 0, 0, 0, .plain, .any, false, 0⟩,
   ⟨0x408, 1, 4, 0, 0, 0, .plain, .any, false, 0⟩,
   ⟨0x40C, 1, 4, 0, 0, 0, .plain, .any, false, 0⟩,
   ⟨0x410, 1, 4, 0, 0, 0, .plain, .any, false, 0⟩,
   ⟨0x414, 1, 4, 0, 0, 0, .plain, .any, false, 0⟩,
   ⟨0x418, 1, 4, 0, 0, 0, .plain, .any, false, 0⟩,
   ⟨0x41C, 1, 4, 0, 0, 0, .plain, .any, false, 0⟩,
   ⟨0x420, 1, 4, 0, 0, 0, .plain, .any, true, 0⟩,
   ⟨0x424, 1, 4, 0, 0, 0, .plain, .any, true, 0⟩,
   ⟨0x428, 1, 4, 0, 0, 0, .plain, .any, false, 0⟩,
   ⟨0x42C, 1, 4, 0, 0, 0, .plain, .any, false, 0⟩,
   ⟨0x430, 1, 4, 0, 0, 0, .plain, .any, true, 0⟩,
   ⟨0x434, 1, 4, 0, 0, 0, .plain, .any, true, 0⟩,
   ⟨0x438, 1, 4, 0, 0, 0, .plain, .any, true, 0⟩,
   ⟨0x43C, 1, 4, 0, 0, 0, .plain, .any, true, 0⟩,
   ⟨0x440, 1, 4, 0, 0, 0, .plain, .any, false, 0⟩,
   ⟨0x444, 1, 4, 0, 0, 0, .plain, .any, false, 0⟩,
   ⟨0x448, 1, 4, 0, 0, 0, .plain, .any, false, 0⟩,
   ⟨0x44C, 1, 4, 0, 0, 0, .plain, .any, false, 0⟩,
   ⟨0x450, 1, 4, 0, 0, 0, .plain, .any, false, 0⟩,
   ⟨0x454, 1, 4, 0, 0, 0, .plain, .any, false, 0⟩,
   ⟨0x458, 1, 4, 0, 0, 0, .plain, .any, false, 0⟩,
   ⟨0x45C, 1, 4, 0, 0, 0, .plain, .any, false, 0⟩,
   ⟨0x040, 1, 4, 0, 0, 0, .plain, .any, true, Config.serialLo⟩,
   ⟨0x044, 1, 4, 0, 0, 0, .plain, .any, true, Config.serialHi⟩,
   ⟨0x048, 1, 4, 0, 0, 0, .plain, .any, false, Config.devCode⟩,
   ⟨0x04C, 1, 4, 0, 0, 0, .plain, .any, false, Config.devStrap⟩,
   ⟨0x050, 1, 4, 0, 0, 0, .plain, .any, false, 0x00000001⟩,
   ⟨0x054, 1, 4, 0x000000FF, 0, 0, .plain, .any, false, 0⟩,
   ⟨0x058, 1, 4, 0, 0, 0, .plain, .any, false, 0⟩,
   ⟨0x060, 4, 4, 0xFFFFFFFF, 0, 0, .plain, .any, false, 0⟩]

/-- The block-specific registers of a page of kind beat. -/
def rows_beat : List RegRow :=
  [⟨0x040, 1, 4, 0, 0, 0, .timeLo, .any, false, 0⟩,
   ⟨0x044, 1, 4, 0, 0, 0, .timeHi, .any, false, 0⟩,
   ⟨0x048, 1, 4, 0, 0, 0, .timeLo, .any, false, 0⟩,
   ⟨0x04C, 1, 4, 0, 0, 0, .timeHi, .any, false, 0⟩,
   ⟨0x050, 1, 4, 0, 0, 0, .plain, .any, false, 0x0000000D⟩,
   ⟨0x054, 1, 4, 0x8000001F, 0, 0, .plain, .dareder, false, 0⟩,
   ⟨0x058, 1, 4, 0xFFFFFFFF, 0, 0, .plain, .dareder, true, 0⟩,
   ⟨0x05C, 1, 4, 0xFFFFFFFF, 0, 0, .plain, .dareder, true, 0⟩,
   ⟨0x060, 1, 4, 0, 0, 0, .plain, .any, false, 0x016F00F5⟩,
   ⟨0x064, 1, 4, 0x001F010F, 0, 0x80000000, .plain, .dareder, false, 0x0000000F⟩,
   ⟨0x068, 1, 4, 0, 0, 0, .plain, .any, false, 0⟩,
   ⟨0x06C, 1, 4, 0, 0, 0, .plain, .any, false, 0⟩,
   ⟨0x070, 1, 4, 0x00000F01, 0, 0, .plain, .any, false, 0x00000100⟩,
   ⟨0x074, 1, 4, 0x000003FF, 0, 0, .plain, .any, false, 0x00000100⟩,
   ⟨0x080, 1, 4, 0, 0, 0, .plain, .any, false, 0⟩,
   ⟨0x084, 1, 4, 0, 0, 0, .plain, .any, false, 0⟩,
   ⟨0x088, 1, 4, 0, 0, 0, .plain, .any, false, 0⟩,
   ⟨0x08C, 1, 4, 0, 0, 0, .plain, .any, false, 0⟩,
   ⟨0x090, 1, 4, 0, 0, 0, .eventLo, .any, false, 0⟩,
   ⟨0x094, 1, 4, 0, 0, 0, .eventHi, .any, false, 0⟩,
   ⟨0x098, 1, 4, 0, 0, 0, .plain, .any, false, 0⟩,
   ⟨0x09C, 1, 4, 0, 0, 0, .plain, .any, false, 0⟩,
   ⟨0x0A0, 1, 4, 0, 0, 0, .plain, .any, false, 0⟩,
   ⟨0x0A4, 1, 4, 0, 0, 0, .plain, .any, false, 0⟩,
   ⟨0x0A8, 1, 4, 0, 0, 0, .plain, .any, false, 0⟩,
   ⟨0x0AC, 1, 4, 0, 0, 0xF00000FF, .plain, .dareder, false, 0⟩,
   ⟨0x0B0, 1, 4, 0xFFFFFFFF, 0, 0, .plain, .any, true, 0⟩,
   ⟨0x0B4, 1, 4, 0x0000FFFF, 0, 0, .plain, .any, true, 0⟩,
   ⟨0x0C0, 1, 4, 0xFFFFFFFF, 0, 0, .plain, .chaiseMgmt, true, 0⟩,
   ⟨0x0C4, 1, 4, 0xFFFFFFFF, 0, 0, .plain, .chaiseMgmt, true, 0⟩,
   ⟨0x0C8, 1, 4, 0xFFFFFFFF, 0, 0, .plain, .chaiseMgmt, true, 0⟩,
   ⟨0x0CC, 1, 4, 0x0000FFFF, 0, 0, .plain, .chaiseMgmt, true, 0⟩,
   ⟨0x0D0, 1, 4, 0x80000000, 0x00000001, 0, .plain, .chaiseMgmt, false, 0⟩,
   ⟨0x100, 12, 4, 0, 0, 0, .plain, .any, false, 0⟩,
   ⟨0x140, 8, 4, 0, 0xFFFFFFFF, 0, .plain, .any, false, 0⟩]

/-- The block-specific registers of a page of kind bay. -/
def rows_bay : List RegRow :=
  [⟨0x040, 1, 4, 0, 0, 0, .plain, .any, false, 0x76543210⟩,
   ⟨0x044, 1, 4, 0, 0, 0, .plain, .any, false, 0x00010000⟩,
   ⟨0x048, 1, 4, 0x00000001, 0, 0, .plain, .pfMgmt, false, 0x00000001⟩,
   ⟨0x04C, 1, 4, 0, 0, 0xF000000F, .plain, .pfMgmt, false, 0⟩,
   ⟨0x050, 1, 4, 0, 0, 0, .plain, .any, false, 0x00000008⟩,
   ⟨0x054, 1, 4, 0, 0, 0, .plain, .any, false, 0⟩,
   ⟨0x058, 1, 4, 0, 0, 0, .plain, .any, false, 0⟩,
   ⟨0x05C, 1, 4, 0, 0x80000000, 0, .plain, .pfMgmt, false, 0⟩,
   ⟨0x060, 1, 4, 0, 0, 0, .plain, .any, true, 0⟩,
   ⟨0x064, 1, 4, 0, 0, 0, .plain, .any, true, 0⟩,
   ⟨0x080, 8, 4, 0, 0x80000000, 0, .plain, .pfMgmt, false, 0⟩,
   ⟨0x100, 1, 4, 0xC00F00FF, 0, 0, .plain, .dareder, false, 0⟩,
   ⟨0x104, 1, 4, 0, 0, 0, .plain, .any, false, 0⟩,
   ⟨0x108, 1, 4, 0, 0, 0, .plain, .any, false, 0⟩,
   ⟨0x10C, 1, 4, 0, 0, 0, .plain, .any, false, 0⟩,
   ⟨0x110, 1, 4, 0, 0, 0, .plain, .any, false, 0⟩,
   ⟨0x114, 1, 4, 0x0000000F, 0, 0, .plain, .dareder, false, 0⟩,
   ⟨0x200, 64, 4, 0, 0, 0, .plain, .any, false, 0⟩]

/-- The block-specific registers of a page of kind mxa. -/
def rows_mxa : List RegRow :=
  [⟨0x040, 1, 4, 0, 0, 0, .plain, .any, false, 0⟩,
   ⟨0x044, 1, 4, 0, 0, 0, .plain, .any, false, 0⟩,
   ⟨0x048, 1, 4, 0, 0x0000003F, 0, .plain, .any, false, 0⟩,
   ⟨0x04C, 1, 4, 0, 0x80000000, 0, .plain, .any, false, 0⟩,
   ⟨0x050, 1, 4, 0, 0, 0, .eventLo, .any, false, 0⟩,
   ⟨0x054, 1, 4, 0, 0, 0, .eventHi, .any, false, 0⟩,
   ⟨0x058, 1, 4, 0, 0, 0, .eventLo, .any, false, 0⟩,
   ⟨0x05C, 1, 4, 0, 0, 0, .eventHi, .any, false, 0⟩,
   ⟨0x060, 1, 4, 0, 0, 0, .eventLo, .any, false, 0⟩,
   ⟨0x064, 1, 4, 0, 0, 0, .eventHi, .any, false, 0⟩,
   ⟨0x068, 1, 4, 0, 0, 0, .eventLo, .any, false, 0⟩,
   ⟨0x06C, 1, 4, 0, 0, 0, .eventHi, .any, false, 0⟩,
   ⟨0x070, 1, 4, 0, 0, 0, .eventLo, .any, false, 0⟩,
   ⟨0x074, 1, 4, 0, 0, 0, .eventHi, .any, false, 0⟩,
   ⟨0x078, 1, 4, 0, 0, 0, .eventLo, .any, false, 0⟩,
   ⟨0x07C, 1, 4, 0, 0, 0, .eventHi, .any, false, 0⟩,
   ⟨0x080, 1, 4, 0x00000001, 0, 0x00000002, .plain, .any, false, 0⟩,
   ⟨0x084, 1, 4, 0xC0007F7F, 0, 0, .plain, .any, false, 0⟩,
   ⟨0x088, 1, 4, 0, 0, 0, .plain, .any, true, 0⟩,
   ⟨0x08C, 1, 4, 0, 0, 0, .plain, .any, true, 0⟩,
   ⟨0x090, 1, 4, 0, 0, 0, .plain, .any, false, 0⟩]

/-- The block-specific registers of a page of kind tvu. -/
def rows_tvu : List RegRow :=
  [⟨0x040, 1, 4, 0, 0, 0, .plain, .any, false, 0⟩,
   ⟨0x044, 1, 4, 0, 0x0000003F, 0, .plain, .any, false, 0⟩,
   ⟨0x048, 1, 4, 0, 0x80000000, 0, .plain, .any, false, 0⟩,
   ⟨0x04C, 1, 4, 0, 0, 0, .plain, .any, false, 0⟩,
   ⟨0x050, 1, 4, 0, 0, 0, .plain, .any, true, 0⟩,
   ⟨0x054, 1, 4, 0, 0, 0, .plain, .any, true, 0⟩,
   ⟨0x058, 1, 4, 0, 0, 0, .eventLo, .any, false, 0⟩,
   ⟨0x05C, 1, 4, 0, 0, 0, .eventHi, .any, false, 0⟩,
   ⟨0x060, 1, 4, 0, 0, 0, .eventLo, .any, false, 0⟩,
   ⟨0x064, 1, 4, 0, 0, 0, .eventHi, .any, false, 0⟩,
   ⟨0x068, 1, 4, 0, 0, 0, .eventLo, .any, false, 0⟩,
   ⟨0x06C, 1, 4, 0, 0, 0, .eventHi, .any, false, 0⟩,
   ⟨0x070, 1, 4, 0, 0, 0, .eventLo, .any, false, 0⟩,
   ⟨0x074, 1, 4, 0, 0, 0, .eventHi, .any, false, 0⟩,
   ⟨0x080, 1, 4, 0x3E000001, 0, 0x00000002, .plain, .any, false, 0⟩,
   ⟨0x084, 1, 4, 0x80001F1F, 0, 0, .plain, .any, false, 0⟩,
   ⟨0x088, 1, 4, 0, 0, 0, .plain, .any, false, 0⟩]

/-- The block-specific registers of a page of kind gig. -/
def rows_gig : List RegRow :=
  [⟨0x040, 1, 4, 0, 0, 0, .plain, .any, false, 0⟩,
   ⟨0x044, 1, 4, 0, 0x80000000, 0, .plain, .any, false, 0⟩,
   ⟨0x048, 1, 4, 0, 0, 0, .plain, .any, false, 0⟩,
   ⟨0x04C, 1, 4, 0, 0, 0, .plain, .any, false, 0⟩,
   ⟨0x050, 1, 4, 0x0000007F, 0, 0x80000000, .plain, .any, false, 0⟩,
   ⟨0x054, 1, 4, 0, 0, 0, .plain, .any, false, 0⟩,
   ⟨0x058, 1, 4, 0, 0, 0, .plain, .any, false, 0⟩,
   ⟨0x05C, 1, 4, 0, 0, 0, .plain, .any, false, 0⟩,
   ⟨0x060, 1, 4, 0, 0, 0, .eventLo, .any, false, 0⟩,
   ⟨0x064, 1, 4, 0, 0, 0, .eventHi, .any, false, 0⟩,
   ⟨0x068, 1, 4, 0, 0, 0, .eventLo, .any, false, 0⟩,
   ⟨0x06C, 1, 4, 0, 0, 0, .eventHi, .any, false, 0⟩,
   ⟨0x070, 1, 4, 0, 0, 0, .eventLo, .any, false, 0⟩,
   ⟨0x074, 1, 4, 0, 0, 0, .eventHi, .any, false, 0⟩,
   ⟨0x078, 1, 4, 0, 0, 0, .eventLo, .any, false, 0⟩,
   ⟨0x07C, 1, 4, 0, 0, 0, .eventHi, .any, false, 0⟩,
   ⟨0x080, 1, 4, 0x00000001, 0, 0x00000002, .plain, .any, false, 0⟩,
   ⟨0x084, 1, 4, 0x0000001F, 0, 0, .plain, .any, false, 0⟩,
   ⟨0x088, 1, 4, 0, 0, 0, .plain, .any, true, 0⟩,
   ⟨0x08C, 1, 4, 0, 0, 0, .plain, .any, true, 0⟩]

/-- The block-specific registers of a page of kind scr. -/
def rows_scr : List RegRow :=
  [⟨0x040, 1, 4, 0, 0, 0, .plain, .any, false, 0⟩,
   ⟨0x044, 1, 4, 0, 0, 0, .plain, .any, false, 0⟩,
   ⟨0x048, 1, 4, 0, 0, 0, .plain, .any, false, 0⟩]

/-- The block-specific registers of a page of kind ntc. -/
def rows_ntc : List RegRow :=
  [⟨0x040, 1, 4, 0, 0, 0, .plain, .any, false, 0⟩,
   ⟨0x044, 1, 4, 0, 0, 0, .plain, .any, false, 0⟩,
   ⟨0x048, 1, 4, 0x0000FF01, 0, 0, .plain, .any, false, 0x00001801⟩,
   ⟨0x04C, 1, 4, 0, 0, 0, .plain, .any, false, 0⟩,
   ⟨0x050, 1, 4, 0x00FFFFFF, 0, 0, .plain, .any, false, 0x003C0100⟩,
   ⟨0x054, 1, 4, 0, 0, 0, .plain, .any, false, 0⟩,
   ⟨0x058, 1, 4, 0, 0, 0, .plain, .any, false, 0⟩,
   ⟨0x05C, 1, 4, 0, 0, 0, .plain, .any, false, 0⟩,
   ⟨0x060, 1, 4, 0, 0, 0, .plain, .any, false, 0⟩,
   ⟨0x068, 1, 4, 0, 0, 0, .eventLo, .any, false, 0⟩,
   ⟨0x06C, 1, 4, 0, 0, 0, .eventHi, .any, false, 0⟩,
   ⟨0x070, 1, 4, 0, 0, 0, .eventLo, .any, false, 0⟩,
   ⟨0x074, 1, 4, 0, 0, 0, .eventHi, .any, false, 0⟩,
   ⟨0x080, 32, 4, 0, 0, 0, .plain, .any, false, 0⟩]

/-- The block-specific registers of a page of kind suu. -/
def rows_suu : List RegRow :=
  [⟨0x040, 1, 4, 0, 0, 0, .plain, .any, false, 0⟩,
   ⟨0x044, 1, 4, 0, 0, 0, .plain, .any, false, 0⟩,
   ⟨0x048, 1, 4, 0xFFFFFFFF, 0, 0, .plain, .pfOnly, false, 0xFFFFFFFF⟩,
   ⟨0x04C, 1, 4, 0, 0x80000000, 0, .plain, .any, false, 0⟩,
   ⟨0x050, 4, 4, 0, 0x0000003F, 0, .plain, .any, false, 0⟩,
   ⟨0x060, 1, 4, 0, 0, 0, .plain, .any, false, 0⟩,
   ⟨0x064, 1, 4, 0, 0, 0, .plain, .any, false, 0⟩,
   ⟨0x068, 1, 4, 0, 0, 0, .eventLo, .any, false, 0⟩,
   ⟨0x06C, 1, 4, 0, 0, 0, .eventHi, .any, false, 0⟩,
   ⟨0x070, 1, 4, 0, 0, 0, .eventLo, .any, false, 0⟩,
   ⟨0x074, 1, 4, 0, 0, 0, .eventHi, .any, false, 0⟩,
   ⟨0x078, 1, 4, 0, 0, 0, .eventLo, .any, false, 0⟩,
   ⟨0x07C, 1, 4, 0, 0, 0, .eventHi, .any, false, 0⟩,
   ⟨0x080, 1, 4, 0, 0, 0, .plain, .any, false, 0⟩,
   ⟨0x084, 1, 4, 0, 0, 0, .plain, .any, false, 0⟩]

/-- The block-specific registers of a page of kind ftc. -/
def rows_ftc : List RegRow :=
  [⟨0x040, 1, 4, 0, 0, 0, .plain, .any, false, 0⟩,
   ⟨0x044, 1, 4, 0, 0, 0, .plain, .any, false, 0⟩,
   ⟨0x048, 1, 4, 0x0000FF01, 0, 0, .plain, .any, false, 0x00001801⟩,
   ⟨0x04C, 1, 4, 0x00FFFFFF, 0, 0, .plain, .any, false, 0x003C0100⟩,
   ⟨0x050, 1, 4, 0, 0, 0, .plain, .any, false, 0⟩,
   ⟨0x054, 1, 4, 0, 0, 0, .plain, .any, false, 0⟩,
   ⟨0x058, 1, 4, 0, 0, 0, .plain, .any, false, 0⟩,
   ⟨0x05C, 1, 4, 0, 0, 0, .plain, .any, false, 0⟩,
   ⟨0x060, 1, 4, 0, 0, 0, .plain, .any, false, 0⟩,
   ⟨0x068, 1, 4, 0, 0, 0, .eventLo, .any, false, 0⟩,
   ⟨0x06C, 1, 4, 0, 0, 0, .eventHi, .any, false, 0⟩,
   ⟨0x070, 1, 4, 0, 0, 0, .eventLo, .any, false, 0⟩,
   ⟨0x074, 1, 4, 0, 0, 0, .eventHi, .any, false, 0⟩,
   ⟨0x078, 1, 4, 0, 0, 0, .eventLo, .any, false, 0⟩,
   ⟨0x07C, 1, 4, 0, 0, 0, .eventHi, .any, false, 0⟩,
   ⟨0x080, 1, 4, 0, 0, 0, .eventLo, .any, false, 0⟩,
   ⟨0x084, 1, 4, 0, 0, 0, .eventHi, .any, false, 0⟩]

/-- The block-specific registers of a page of kind memxl. -/
def rows_memxl : List RegRow :=
  [⟨0x040, 1, 4, 0, 0, 0, .plain, .any, false, 0⟩,
   ⟨0x044, 1, 4, 0, 0, 0, .plain, .any, false, 0⟩,
   ⟨0x048, 1, 4, 0, 0, 0xC00000FF, .plain, .any, false, 0⟩,
   ⟨0x04C, 1, 4, 0, 0, 0, .plain, .any, false, 0⟩,
   ⟨0x050, 1, 4, 0xFFFFFFFF, 0, 0, .plain, .any, true, 0⟩,
   ⟨0x054, 1, 4, 0x0000FFFF, 0, 0, .plain, .any, true, 0⟩,
   ⟨0x058, 1, 4, 0xFFFFFFFF, 0, 0, .plain, .any, false, 0⟩,
   ⟨0x05C, 1, 4, 0, 0x80000000, 0, .plain, .any, false, 0⟩,
   ⟨0x060, 1, 4, 0xFFFFFFFF, 0, 0, .plain, .any, true, 0⟩,
   ⟨0x064, 1, 4, 0xFFFFFFFF, 0, 0, .plain, .any, true, 0⟩,
   ⟨0x068, 1, 4, 0xFFFFFFFF, 0, 0, .plain, .any, true, 0⟩,
   ⟨0x06C, 1, 4, 0xFFFFFFFF, 0, 0, .plain, .any, true, 0⟩,
   ⟨0x070, 1, 4, 0, 0, 0x00000003, .plain, .any, false, 0⟩,
   ⟨0x074, 1, 4, 0, 0, 0, .plain, .any, false, 0⟩,
   ⟨0x078, 1, 4, 0, 0, 0, .plain, .any, false, 0⟩,
   ⟨0x07C, 1, 4, 0x0000003F, 0, 0, .plain, .any, false, 0⟩,
   ⟨0x080, 1, 4, 0, 0, 0, .plain, .any, false, 0⟩,
   ⟨0x084, 1, 4, 0, 0, 0, .plain, .any, false, 0⟩,
   ⟨0x088, 1, 4, 0, 0, 0, .eventLo, .any, false, 0⟩,
   ⟨0x08C, 1, 4, 0, 0, 0, .eventHi, .any, false, 0⟩,
   ⟨0x100, 64, 4, 0, 0, 0, .plain, .any, false, 0⟩,
   ⟨0x400, 256, 4, 0, 0, 0, .plain, .any, false, 0⟩,
   ⟨0x800, 256, 8, 0xFFFFF001, 0, 0, .plain, .any, true, 0⟩,
   ⟨0x804, 256, 8, 0x0000FFFF, 0, 0, .plain, .any, true, 0⟩]

/-- The block-specific registers of a page of kind wcb. -/
def rows_wcb : List RegRow :=
  [⟨0x040, 1, 4, 0, 0, 0, .plain, .any, false, 0⟩,
   ⟨0x044, 1, 4, 0, 0, 0x000000FF, .plain, .any, false, 0⟩,
   ⟨0x050, 8, 4, 0, 0, 0, .plain, .any, false, 0⟩,
   ⟨0x080, 1, 4, 0, 0, 0, .eventLo, .any, false, 0⟩,
   ⟨0x084, 1, 4, 0, 0, 0, .eventHi, .any, false, 0⟩,
   ⟨0x088, 1, 4, 0, 0, 0, .eventLo, .any, false, 0⟩,
   ⟨0x08C, 1, 4, 0, 0, 0, .eventHi, .any, false, 0⟩,
   ⟨0x090, 1, 4, 0, 0, 0, .eventLo, .any, false, 0⟩,
   ⟨0x094, 1, 4, 0, 0, 0, .eventHi, .any, false, 0⟩,
   ⟨0x098, 1, 4, 0, 0, 0, .plain, .any, false, 0⟩]

/-- The block-specific registers of a page of kind ope. -/
def rows_ope : List RegRow :=
  [⟨0x040, 1, 4, 0x0303FFFF, 0, 0, .plain, .any, false, 0⟩,
   ⟨0x044, 1, 4, 0, 0, 0, .plain, .any, false, 0⟩,
   ⟨0x048, 1, 4, 0, 0, 0, .plain, .any, false, 0⟩,
   ⟨0x04C, 1, 4, 0, 0x0000FFFF, 0, .plain, .any, false, 0⟩,
   ⟨0x050, 1, 4, 0, 0, 0, .plain, .any, false, 0⟩,
   ⟨0x054, 1, 4, 0, 0, 0, .plain, .any, false, 0⟩,
   ⟨0x058, 1, 4, 0xFFFFFFFF, 0, 0, .plain, .any, false, 0xDAC03480⟩,
   ⟨0x080, 16, 4, 0, 0, 0, .plain, .any, false, 0⟩]

/-- The block-specific registers of a page of kind link. -/
def rows_link : List RegRow :=
  [⟨0x040, 1, 4, 0x40010FFF, 0, 0x80000000, .plain, .any, false, 0x00000814⟩,
   ⟨0x044, 1, 4, 0, 0, 0, .plain, .any, false, 0x03000000⟩,
   ⟨0x048, 1, 4, 0, 0, 0, .plain, .any, true, 0⟩,
   ⟨0x04C, 1, 4, 0, 0, 0, .plain, .any, true, 0⟩,
   ⟨0x050, 1, 4, 0, 0, 0, .plain, .any, false, 0⟩,
   ⟨0x054, 1, 4, 0, 0, 0, .plain, .any, false, 0⟩,
   ⟨0x058, 1, 4, 0x000000FF, 0, 0, .plain, .dareder, false, 0⟩,
   ⟨0x05C, 1, 4, 0, 0, 0, .plain, .any, false, 0⟩,
   ⟨0x060, 1, 4, 0, 0, 0, .plain, .any, false, 0⟩,
   ⟨0x080, 1, 4, 0, 0, 0, .eventLo, .any, false, 0⟩,
   ⟨0x084, 1, 4, 0, 0, 0, .eventHi, .any, false, 0⟩,
   ⟨0x088, 1, 4, 0, 0, 0, .eventLo, .any, false, 0⟩,
   ⟨0x08C, 1, 4, 0, 0, 0, .eventHi, .any, false, 0⟩,
   ⟨0x090, 1, 4, 0, 0, 0, .eventLo, .any, false, 0⟩,
   ⟨0x094, 1, 4, 0, 0, 0, .eventHi, .any, false, 0⟩,
   ⟨0x098, 1, 4, 0, 0, 0, .eventLo, .any, false, 0⟩,
   ⟨0x09C, 1, 4, 0, 0, 0, .eventHi, .any, false, 0⟩,
   ⟨0x0A0, 1, 4, 0, 0, 0, .eventLo, .any, false, 0⟩,
   ⟨0x0A4, 1, 4, 0, 0, 0, .eventHi, .any, false, 0⟩,
   ⟨0x0A8, 1, 4, 0, 0, 0, .eventLo, .any, false, 0⟩,
   ⟨0x0AC, 1, 4, 0, 0, 0, .eventHi, .any, false, 0⟩,
   ⟨0x0C0, 1, 4, 0, 0, 0, .plain, .any, false, 0⟩,
   ⟨0x0C4, 1, 4, 0, 0, 0, .plain, .any, false, 0⟩,
   ⟨0x0C8, 1, 4, 0, 0, 0, .plain, .any, false, 0⟩,
   ⟨0x0CC, 1, 4, 0, 0, 0, .plain, .any, false, 0⟩,
   ⟨0x0D0, 1, 4, 0, 0, 0, .plain, .any, false, 0⟩,
   ⟨0x0D4, 1, 4, 0, 0, 0, .plain, .any, false, 0⟩,
   ⟨0x0D8, 1, 4, 0, 0, 0, .plain, .any, false, 0⟩,
   ⟨0x0DC, 1, 4, 0, 0, 0, .plain, .any, false, 0⟩]

/-- The block-specific registers of a page of kind rtr. -/
def rows_rtr : List RegRow :=
  [⟨0x040, 1, 4, 0, 0, 0, .plain, .any, false, 0⟩,
   ⟨0x044, 1, 4, 0x80000001, 0, 0, .plain, .dareder, false, 0⟩,
   ⟨0x048, 1, 4, 0xFFFFFFFF, 0, 0, .plain, .dareder, true, 0⟩,
   ⟨0x04C, 1, 4, 0x0000FFFF, 0, 0, .plain, .dareder, true, 0⟩,
   ⟨0x050, 1, 4, 0, 0, 0x00000003, .plain, .dareder, false, 0⟩,
   ⟨0x054, 1, 4, 0, 0, 0, .plain, .any, false, 0⟩,
   ⟨0x058, 1, 4, 0, 0, 0, .plain, .any, false, 0⟩,
   ⟨0x05C, 1, 4, 0, 0, 0, .plain, .any, false, 0⟩,
   ⟨0x060, 1, 4, 0x800000FF, 0, 0, .plain, .dareder, false, 0⟩,
   ⟨0x064, 1, 4, 0xFFFFFFFF, 0, 0, .plain, .dareder, true, 0⟩,
   ⟨0x068, 1, 4, 0x0000FFFF, 0, 0, .plain, .dareder, true, 0⟩,
   ⟨0x06C, 1, 4, 0xFFFFFFFF, 0, 0, .plain, .dareder, false, 0⟩,
   ⟨0x070, 1, 4, 0x000000FF, 0, 0, .plain, .dareder, false, 0x000000FF⟩,
   ⟨0x074, 1, 4, 0x8000001F, 0, 0, .plain, .any, false, 0x00000006⟩,
   ⟨0x078, 1, 4, 0, 0, 0, .plain, .any, true, 0⟩,
   ⟨0x07C, 1, 4, 0, 0, 0, .plain, .any, true, 0⟩,
   ⟨0x080, 1, 4, 0, 0, 0, .plain, .any, false, 0⟩,
   ⟨0x084, 1, 4, 0, 0, 0, .plain, .any, false, 0⟩,
   ⟨0x088, 1, 4, 0, 0, 0, .plain, .any, false, 0⟩,
   ⟨0x08C, 1, 4, 0, 0, 0, .plain, .any, false, 0⟩,
   ⟨0x090, 1, 4, 0, 0, 0, .plain, .any, false, 0⟩,
   ⟨0x094, 1, 4, 0, 0, 0, .plain, .any, false, 0⟩,
   ⟨0x098, 1, 4, 0, 0, 0, .plain, .any, false, 0⟩,
   ⟨0x09C, 1, 4, 0, 0, 0, .plain, .any, false, 0⟩,
   ⟨0x0A0, 1, 4, 0, 0, 0, .eventLo, .any, false, 0⟩,
   ⟨0x0A4, 1, 4, 0, 0, 0, .eventHi, .any, false, 0⟩,
   ⟨0x0A8, 1, 4, 0, 0, 0, .eventLo, .any, false, 0⟩,
   ⟨0x0AC, 1, 4, 0, 0, 0, .eventHi, .any, false, 0⟩,
   ⟨0x0B0, 1, 4, 0, 0, 0, .eventLo, .any, false, 0⟩,
   ⟨0x0B4, 1, 4, 0, 0, 0, .eventHi, .any, false, 0⟩,
   ⟨0x400, 320, 4, 0, 0, 0, .plain, .any, false, 0⟩]

/-- The block-specific registers of a page of kind rtab. -/
def rows_rtab : List RegRow :=
  [⟨0x100, 80, 4, 0x8F8F8F8F, 0, 0, .plain, .dareder, false, 0⟩,
   ⟨0x300, 16, 16, 0xFFFFFFFF, 0, 0, .plain, .dareder, false, 0⟩,
   ⟨0x304, 16, 16, 0x80000F1F, 0, 0, .plain, .dareder, false, 0⟩,
   ⟨0x308, 16, 16, 0x0000000F, 0, 0, .plain, .dareder, false, 0⟩]

/-- The block-specific registers of a page of kind stg. -/
def rows_stg : List RegRow :=
  [⟨0x040, 1, 4, 0, 0, 0, .plain, .any, false, 0⟩,
   ⟨0x044, 1, 4, 0, 0x0000003F, 0, .plain, .any, false, 0⟩,
   ⟨0x048, 1, 4, 0, 0, 0, .plain, .any, false, 0⟩,
   ⟨0x050, 1, 4, 0, 0, 0, .eventLo, .any, false, 0⟩,
   ⟨0x054, 1, 4, 0, 0, 0, .eventHi, .any, false, 0⟩,
   ⟨0x058, 1, 4, 0, 0, 0, .eventLo, .any, false, 0⟩,
   ⟨0x05C, 1, 4, 0, 0, 0, .eventHi, .any, false, 0⟩,
   ⟨0x060, 1, 4, 0, 0, 0, .eventLo, .any, false, 0⟩,
   ⟨0x064, 1, 4, 0, 0, 0, .eventHi, .any, false, 0⟩,
   ⟨0x068, 1, 4, 0, 0, 0, .eventLo, .any, false, 0⟩,
   ⟨0x06C, 1, 4, 0, 0, 0, .eventHi, .any, false, 0⟩,
   ⟨0x070, 1, 4, 0, 0, 0, .plain, .any, false, 0⟩,
   ⟨0x074, 1, 4, 0, 0, 0, .plain, .any, false, 0⟩,
   ⟨0x078, 1, 4, 0, 0, 0, .plain, .any, false, 0⟩,
   ⟨0x400, 64, 16, 0xFF000000, 0, 0, .plain, .any, false, 0⟩,
   ⟨0x404, 64, 16, 0xFFFFFFFF, 0, 0, .plain, .any, false, 0⟩,
   ⟨0x408, 64, 16, 0x0000FFFF, 0, 0, .plain, .any, false, 0⟩,
   ⟨0x40C, 64, 16, 0x007FFFFF, 0, 0, .plain, .any, false, 0⟩]

/-- The block-specific registers of a page of kind bcu. -/
def rows_bcu : List RegRow :=
  [⟨0x040, 1, 4, 0, 0x20000000, 0, .plain, .any, false, 0⟩,
   ⟨0x044, 1, 4, 0, 0x0000003F, 0, .plain, .any, false, 0⟩,
   ⟨0x048, 1, 4, 0, 0, 0, .plain, .any, false, 0⟩,
   ⟨0x04C, 1, 4, 0, 0, 0, .plain, .any, false, 0⟩,
   ⟨0x050, 1, 4, 0, 0, 0, .plain, .any, false, 0⟩,
   ⟨0x058, 1, 4, 0, 0, 0, .eventLo, .any, false, 0⟩,
   ⟨0x05C, 1, 4, 0, 0, 0, .eventHi, .any, false, 0⟩,
   ⟨0x060, 1, 4, 0, 0, 0, .eventLo, .any, false, 0⟩,
   ⟨0x064, 1, 4, 0, 0, 0, .eventHi, .any, false, 0⟩,
   ⟨0x068, 1, 4, 0, 0, 0, .eventLo, .any, false, 0⟩,
   ⟨0x06C, 1, 4, 0, 0, 0, .eventHi, .any, false, 0⟩]

/-- The block-specific registers of a page of kind hif. -/
def rows_hif : List RegRow :=
  [⟨0x040, 1, 4, 0, 0, 0, .plain, .any, false, 0⟩,
   ⟨0x044, 1, 4, 0, 0, 0xFFFFFFFF, .plain, .any, false, 0⟩,
   ⟨0x048, 1, 4, 0, 0, 0, .plain, .any, false, 0⟩,
   ⟨0x04C, 1, 4, 0x80003FFF, 0, 0, .plain, .any, false, 0⟩,
   ⟨0x050, 1, 4, 0xFFFFFFFF, 0, 0, .plain, .any, true, 0⟩,
   ⟨0x054, 1, 4, 0x0000FFFF, 0, 0, .plain, .any, true, 0⟩,
   ⟨0x058, 1, 4, 0xFFFFFFFF, 0, 0, .plain, .any, false, 0⟩,
   ⟨0x05C, 1, 4, 0, 0, 0x00000001, .plain, .any, false, 0⟩,
   ⟨0x060, 1, 4, 0, 0, 0, .plain, .any, false, 0⟩,
   ⟨0x064, 1, 4, 0x00FFFFFF, 0, 0, .plain, .any, false, 0⟩,
   ⟨0x068, 1, 4, 0, 0, 0, .plain, .any, false, 0⟩,
   ⟨0x070, 1, 4, 0, 0, 0, .eventLo, .any, false, 0⟩,
   ⟨0x074, 1, 4, 0, 0, 0, .eventHi, .any, false, 0⟩,
   ⟨0x078, 1, 4, 0, 0, 0, .eventLo, .any, false, 0⟩,
   ⟨0x07C, 1, 4, 0, 0, 0, .eventHi, .any, false, 0⟩,
   ⟨0x080, 1, 4, 0, 0, 0, .plain, .any, false, 0⟩,
   ⟨0x084, 1, 4, 0, 0, 0, .plain, .any, false, 0⟩,
   ⟨0x088, 1, 4, 0, 0, 0, .plain, .any, false, 0⟩,
   ⟨0x100, 1, 4, 0xFFFFFFFF, 0, 0, .plain, .any, false, 0⟩,
   ⟨0x104, 1, 4, 0x0000FFFF, 0, 0, .plain, .any, false, 0⟩,
   ⟨0x140, 12, 4, 0x0000007F, 0, 0, .plain, .any, false, 0x00000001⟩,
   ⟨0x200, 192, 4, 0xFFFFFFFF, 0, 0, .plain, .any, false, 0xFFFFFFFF⟩,
   ⟨0x600, 48, 4, 0x00FFFFFF, 0, 0, .plain, .any, false, 0⟩,
   ⟨0x700, 8, 16, 0x00000FFF, 0, 0, .plain, .any, false, 0⟩,
   ⟨0x704, 8, 16, 0x00000FFF, 0, 0, .plain, .any, false, 0⟩,
   ⟨0x708, 8, 16, 0, 0, 0x00000013, .plain, .any, false, 0⟩,
   ⟨0x70C, 8, 16, 0, 0, 0, .plain, .any, false, 0⟩]

/-- The block-specific registers of a page of kind sriov. -/
def rows_sriov : List RegRow :=
  [⟨0x040, 1, 4, 0, 0, 0, .plain, .any, false, 0⟩,
   ⟨0x044, 1, 4, 0, 0, 0, .plain, .any, false, 0⟩,
   ⟨0x100, 64, 4, 0, 0, 0, .plain, .any, false, 0xFFFFFFFF⟩]

/-- The block-specific registers of a page of kind ctx. -/
def rows_ctx : List RegRow :=
  [⟨0x040, 1, 4, 0, 0, 0, .plain, .any, false, 0⟩,
   ⟨0x044, 1, 4, 0x3FFF03FF, 0, 0, .plain, .pf, false, 0⟩,
   ⟨0x048, 1, 4, 0x0000FFFF, 0, 0, .plain, .pf, false, 0x00008000⟩,
   ⟨0x04C, 1, 4, 0x80003FFF, 0, 0, .plain, .pf, false, 0⟩,
   ⟨0x050, 1, 4, 0, 0, 0, .plain, .any, false, 0⟩,
   ⟨0x054, 1, 4, 0, 0, 0, .plain, .any, false, 0⟩,
   ⟨0x058, 1, 4, 0, 0, 0, .plain, .any, false, 0⟩,
   ⟨0x05C, 1, 4, 0x00000001, 0, 0, .plain, .any, false, 0⟩,
   ⟨0x060, 1, 4, 0, 0, 0, .eventLo, .any, false, 0⟩,
   ⟨0x064, 1, 4, 0, 0, 0, .eventHi, .any, false, 0⟩,
   ⟨0x100, 16, 8, 0, 0, 0, .plain, .any, true, 0⟩,
   ⟨0x104, 16, 8, 0, 0, 0, .plain, .any, true, 0⟩]

/-- The block-specific registers of a page of kind cmp. -/
def rows_cmp : List RegRow :=
  [⟨0x040, 1, 4, 0, 0, 0, .plain, .any, false, 0⟩,
   ⟨0x044, 1, 4, 0, 0, 0, .plain, .any, false, 0⟩,
   ⟨0x048, 1, 4, 0, 0, 0, .plain, .any, false, 0⟩,
   ⟨0x04C, 1, 4, 0, 0, 0, .plain, .any, false, 0⟩,
   ⟨0x050, 1, 4, 0, 0, 0, .plain, .any, true, 0⟩,
   ⟨0x054, 1, 4, 0, 0, 0, .plain, .any, true, 0⟩,
   ⟨0x058, 1, 4, 0, 0, 0, .plain, .any, false, 0⟩,
   ⟨0x05C, 1, 4, 0, 0, 0, .plain, .any, false, 0⟩,
   ⟨0x060, 1, 4, 0, 0, 0, .plain, .any, false, 0⟩,
   ⟨0x064, 1, 4, 0, 0, 0, .plain, .any, false, 0⟩,
   ⟨0x068, 1, 4, 0, 0, 0, .plain, .any, false, 0⟩]

/-- The block-specific registers of a page of kind sec. -/
def rows_sec : List RegRow :=
  [⟨0x040, 1, 4, 0, 0, 0, .plain, .any, false, 0⟩,
   ⟨0x044, 1, 4, 0, 0, 0, .plain, .any, false, 0⟩,
   ⟨0x048, 1, 4, 0x00000001, 0, 0, .plain, .any, false, 0⟩,
   ⟨0x04C, 1, 4, 0, 0, 0, .plain, .any, false, 0⟩,
   ⟨0x050, 1, 4, 0, 0, 0, .eventLo, .any, false, 0⟩,
   ⟨0x054, 1, 4, 0, 0, 0, .eventHi, .any, false, 0⟩,
   ⟨0x058, 1, 4, 0, 0, 0, .plain, .any, false, 0⟩,
   ⟨0x400, 384, 4, 0, 0, 0, .plain, .any, false, 0⟩]

/-- The block-specific registers of a page of kind fuse. -/
def rows_fuse : List RegRow :=
  [⟨0x040, 1, 4, 0, 0, 0, .plain, .any, false, Config.fuseCode⟩,
   ⟨0x044, 1, 4, 0, 0, 0, .plain, .any, false, Config.fusePolicy⟩,
   ⟨0x048, 1, 4, 0, 0, 0, .plain, .any, false, Config.fuseMinSvn⟩,
   ⟨0x050, 1, 4, 0, 0, 0, .plain, .any, false, Config.fuseNtRepair⟩,
   ⟨0x054, 1, 4, 0, 0, 0, .plain, .any, false, Config.fuseNtRepair⟩,
   ⟨0x100, 12, 4, 0, 0, 0, .plain, .any, false, 0⟩,
   ⟨0x140, 12, 4, 0, 0, 0, .plain, .any, false, 0⟩,
   ⟨0x180, 24, 4, 0, 0, 0, .plain, .any, false, 0⟩]

/-- The block-specific registers of a page of kind jrnl. -/
def rows_jrnl : List RegRow :=
  [⟨0x040, 1, 4, 0x00000003, 0, 0, .plain, .any, false, 0⟩,
   ⟨0x044, 1, 4, 0, 0x0000000C, 0, .plain, .any, false, 0⟩,
   ⟨0x048, 1, 4, 0xFFFFFFFF, 0, 0, .plain, .any, true, 0⟩,
   ⟨0x04C, 1, 4, 0xFFFFFFFF, 0, 0, .plain, .any, true, 0⟩,
   ⟨0x050, 1, 4, 0x0000003F, 0, 0, .plain, .any, false, 0x00000010⟩,
   ⟨0x058, 1, 4, 0, 0, 0, .plain, .any, true, 0⟩,
   ⟨0x05C, 1, 4, 0, 0, 0, .plain, .any, true, 0⟩,
   ⟨0x060, 1, 4, 0xFFFFFFFF, 0, 0, .plain, .any, true, 0⟩,
   ⟨0x064, 1, 4, 0xFFFFFFFF, 0, 0, .plain, .any, true, 0⟩,
   ⟨0x068, 1, 4, 0, 0, 0, .eventLo, .any, false, 0⟩,
   ⟨0x06C, 1, 4, 0, 0, 0, .eventHi, .any, false, 0⟩,
   ⟨0x070, 1, 4, 0, 0, 0, .plain, .any, false, 0⟩,
   ⟨0x074, 1, 4, 0, 0, 0, .plain, .any, false, 0⟩,
   ⟨0x078, 1, 4, 0xFFFFFFFF, 0, 0, .plain, .any, true, 0⟩,
   ⟨0x07C, 1, 4, 0xFFFFFFFF, 0, 0, .plain, .any, true, 0⟩,
   ⟨0x080, 8, 4, 0xFFFFFFFF, 0, 0, .plain, .any, false, 0⟩]

/-- The block-specific registers of a page of kind pwr. -/
def rows_pwr : List RegRow :=
  [⟨0x040, 1, 4, 0x00000007, 0, 0, .plain, .any, false, 0⟩,
   ⟨0x044, 1, 4, 0, 0, 0, .plain, .any, false, 0x00000801⟩,
   ⟨0x048, 1, 4, 0x8000FFFF, 0, 0, .plain, .any, false, Config.pwrCapReset⟩,
   ⟨0x04C, 1, 4, 0x0000000F, 0, 0, .plain, .any, false, 0x00000001⟩,
   ⟨0x050, 1, 4, 0, 0, 0, .plain, .any, false, 0⟩,
   ⟨0x054, 1, 4, 0, 0, 0, .plain, .any, false, 0⟩,
   ⟨0x058, 1, 4, 0, 0, 0, .plain, .any, false, 0⟩,
   ⟨0x05C, 1, 4, 0, 0, 0, .plain, .any, false, 0⟩,
   ⟨0x060, 1, 4, 0, 0, 0, .plain, .any, true, 0⟩,
   ⟨0x064, 1, 4, 0, 0, 0, .plain, .any, true, 0⟩,
   ⟨0x068, 1, 4, 0, 0, 0, .plain, .any, true, 0⟩,
   ⟨0x06C, 1, 4, 0, 0, 0, .plain, .any, true, 0⟩,
   ⟨0x070, 1, 4, 0, 0x80000000, 0, .plain, .any, false, 0⟩,
   ⟨0x078, 1, 4, 0, 0, 0, .eventLo, .any, false, 0⟩,
   ⟨0x07C, 1, 4, 0, 0, 0, .eventHi, .any, false, 0⟩,
   ⟨0x080, 9, 4, 0, 0, 0, .plain, .any, false, 0⟩,
   ⟨0x0C0, 1, 4, 0, 0, 0, .plain, .any, false, 0x00000320⟩,
   ⟨0x0C4, 1, 4, 0, 0, 0, .plain, .any, false, 0x00000320⟩,
   ⟨0x0C8, 1, 4, 0, 0, 0, .plain, .any, false, 0x00000320⟩]

/-- The block-specific registers of a page of kind clk. -/
def rows_clk : List RegRow :=
  [⟨0x040, 1, 4, 0, 0, 0, .plain, .any, false, 0⟩,
   ⟨0x044, 1, 4, 0, 0, 0, .plain, .any, false, 0⟩,
   ⟨0x048, 1, 4, 0, 0, 0, .plain, .any, false, 0⟩]

/-- The block-specific registers of a page of kind rst. -/
def rows_rst : List RegRow :=
  [⟨0x040, 1, 4, 0, 0, 0xF00000FF, .plain, .any, false, 0⟩,
   ⟨0x044, 1, 4, 0, 0, 0, .plain, .any, false, 0⟩,
   ⟨0x048, 1, 4, 0, 0, 0, .plain, .any, false, 0⟩,
   ⟨0x050, 1, 4, 0, 0, 0, .plain, .any, false, 0⟩,
   ⟨0x054, 1, 4, 0, 0, 0, .plain, .any, false, 0⟩,
   ⟨0x058, 1, 4, 0, 0, 0, .plain, .any, false, 0⟩,
   ⟨0x05C, 1, 4, 0, 0, 0, .plain, .any, false, 0⟩,
   ⟨0x060, 1, 4, 0, 0, 0, .plain, .any, false, 0⟩,
   ⟨0x064, 1, 4, 0, 0, 0, .plain, .any, false, 0⟩]

/-- The block-specific registers of a page of kind hang. -/
def rows_hang : List RegRow :=
  [⟨0x040, 1, 4, 0x00000F0F, 0, 0, .locked, .any, false, 0x00000D0F⟩,
   ⟨0x044, 1, 4, 0xFF1F1F1F, 0, 0, .locked, .any, false, 0x0A060A03⟩,
   ⟨0x048, 1, 4, 0, 0, 0, .plain, .any, false, 0⟩,
   ⟨0x04C, 1, 4, 0, 0, 0x00000001, .plain, .dareder, false, 0⟩,
   ⟨0x050, 1, 4, 0, 0, 0, .plain, .any, false, 0⟩,
   ⟨0x054, 1, 4, 0, 0, 0, .plain, .any, false, 0⟩,
   ⟨0x058, 1, 4, 0, 0, 0, .plain, .any, false, 0⟩,
   ⟨0x060, 3, 8, 0, 0, 0, .plain, .any, true, 0⟩,
   ⟨0x064, 3, 8, 0, 0, 0, .plain, .any, true, 0⟩,
   ⟨0x078, 1, 4, 0, 0, 0, .plain, .any, false, 0⟩]

/-- The block-specific registers of a page of kind therm. -/
def rows_therm : List RegRow :=
  [⟨0x040, 1, 4, 0, 0, 0, .plain, .any, false, 0⟩,
   ⟨0x044, 1, 4, 0x0000FFFF, 0, 0, .locked, .any, false, 0x00000364⟩,
   ⟨0x048, 1, 4, 0, 0, 0, .plain, .any, false, 0x00000078⟩,
   ⟨0x04C, 1, 4, 0, 0, 0, .plain, .any, false, 0⟩,
   ⟨0x050, 1, 4, 0, 0, 0, .plain, .any, false, 0⟩,
   ⟨0x080, 20, 4, 0, 0, 0, .plain, .any, false, 0⟩]

/-- The block-specific registers of a page of kind ras. -/
def rows_ras : List RegRow :=
  [⟨0x040, 1, 4, 0, 0, 0, .plain, .any, false, 0⟩,
   ⟨0x044, 1, 4, 0, 0x0000007F, 0, .plain, .any, false, 0⟩,
   ⟨0x050, 1, 4, 0xE000003F, 0, 0, .plain, .any, false, 0⟩,
   ⟨0x054, 1, 4, 0xE000003F, 0, 0, .plain, .any, false, 0x80000000⟩,
   ⟨0x058, 1, 4, 0xE000003F, 0, 0, .plain, .any, false, 0x80000000⟩,
   ⟨0x05C, 1, 4, 0xE000003F, 0, 0, .plain, .any, false, 0xC0000000⟩,
   ⟨0x060, 1, 4, 0xE000003F, 0, 0, .plain, .any, false, 0x80000000⟩,
   ⟨0x064, 1, 4, 0xE000003F, 0, 0, .plain, .any, false, 0xE0000000⟩,
   ⟨0x068, 1, 4, 0xE000003F, 0, 0, .plain, .any, false, 0xE0000000⟩,
   ⟨0x070, 1, 4, 0, 0, 0, .plain, .any, false, 0⟩,
   ⟨0x074, 1, 4, 0x0000003F, 0, 0, .plain, .any, false, 0⟩,
   ⟨0x078, 1, 4, 0, 0, 0, .plain, .any, false, 0⟩,
   ⟨0x080, 1, 4, 0, 0, 0, .eventLo, .any, false, 0⟩,
   ⟨0x084, 1, 4, 0, 0, 0, .eventHi, .any, false, 0⟩,
   ⟨0x400, 256, 4, 0, 0, 0, .plain, .any, false, 0⟩,
   ⟨0x800, 128, 4, 0, 0, 0, .plain, .any, false, 0⟩]

/-- The block-specific registers of a page of kind tele. -/
def rows_tele : List RegRow :=
  [⟨0x040, 1, 4, 0x8000FFFF, 0, 0, .plain, .any, false, 0x800001FE⟩,
   ⟨0x044, 1, 4, 0x0000FFFF, 0, 0, .plain, .any, false, 0x00000076⟩,
   ⟨0x048, 1, 4, 0, 0, 0, .plain, .any, false, 0⟩,
   ⟨0x04C, 1, 4, 0x0000007F, 0, 0, .plain, .any, false, 0⟩,
   ⟨0x050, 1, 4, 0, 0, 0, .plain, .any, false, 0⟩,
   ⟨0x400, 512, 4, 0, 0, 0, .plain, .any, false, 0⟩]

/-- The configuration registers of one queue (R469); offsets are within its 64 B. -/
def rows_qcfg : List RegRow :=
  [⟨0x000, 1, 4, 0xB01F1FFF, 0, 0x40000000, .plain, .any, false, 0⟩,
   ⟨0x004, 1, 4, 0x00003FFF, 0, 0, .plain, .any, false, 0⟩,
   ⟨0x008, 1, 4, 0xFFFFFFFF, 0, 0, .plain, .any, true, 0⟩,
   ⟨0x00C, 1, 4, 0xFFFFFFFF, 0, 0, .plain, .any, true, 0⟩,
   ⟨0x010, 1, 4, 0, 0, 0, .plain, .any, false, 0⟩,
   ⟨0x014, 1, 4, 0, 0, 0, .plain, .any, false, 0⟩,
   ⟨0x018, 1, 4, 0, 0xE0000000, 0, .plain, .any, false, 0⟩,
   ⟨0x01C, 1, 4, 0x0000FFFF, 0, 0, .plain, .any, false, 0x00000064⟩,
   ⟨0x020, 1, 4, 0, 0, 0, .plain, .any, false, 0⟩,
   ⟨0x024, 1, 4, 0, 0, 0, .plain, .any, false, 0⟩]

/-- The register table of a kind of page. -/
def pageRows : PageKind → List RegRow
  | .dev => rows_dev
  | .beat => rows_beat
  | .bay => rows_bay
  | .mxa => rows_mxa
  | .tvu => rows_tvu
  | .gig => rows_gig
  | .scr => rows_scr
  | .ntc => rows_ntc
  | .suu => rows_suu
  | .ftc => rows_ftc
  | .memxl => rows_memxl
  | .wcb => rows_wcb
  | .ope => rows_ope
  | .link => rows_link
  | .rtr => rows_rtr
  | .rtab => rows_rtab
  | .stg => rows_stg
  | .bcu => rows_bcu
  | .hif => rows_hif
  | .sriov => rows_sriov
  | .ctx => rows_ctx
  | .cmp => rows_cmp
  | .sec => rows_sec
  | .fuse => rows_fuse
  | .jrnl => rows_jrnl
  | .pwr => rows_pwr
  | .clk => rows_clk
  | .rst => rows_rst
  | .hang => rows_hang
  | .therm => rows_therm
  | .ras => rows_ras
  | .tele => rows_tele
  | .qcfg => rows_qcfg
  | .qdb | .ctxWindow | .hole => []

/-- The kind of a page (R73); CTX pages stand at 0x4000 on. -/
def pageKind (p : Nat) : PageKind :=
  if 0x4000 ≤ p then (if p < 0x4100 then .ctx else .hole)
  else if p = 0x0000 then .dev else if p = 0x0001 then .beat
  else if 0x0010 ≤ p && p ≤ 0x001B then .bay
  else if 0x0100 ≤ p && p < 0x02B0 then
    (if p % 4 = 0 then .mxa else if p % 4 = 1 then .tvu else if p % 4 = 2 then .gig else .scr)
  else if 0x0400 ≤ p && p ≤ 0x0407 then .ntc
  else if 0x0408 ≤ p && p ≤ 0x040F then .suu
  else if 0x0410 ≤ p && p ≤ 0x0417 then .ftc
  else if p = 0x0420 then .memxl else if p = 0x0421 then .wcb
  else if 0x0500 ≤ p && p ≤ 0x0509 then .ope
  else if 0x0510 ≤ p && p ≤ 0x0519 then .link
  else if p = 0x0520 then .rtr
  else if p = 0x0521 || p = 0x0522 then .rtab
  else if 0x0530 ≤ p && p ≤ 0x0533 then .stg
  else if 0x0540 ≤ p && p ≤ 0x054B then .bcu
  else if p = 0x0600 then .hif else if p = 0x0601 then .sriov
  else if 0x0800 ≤ p && p ≤ 0x08FF then .qdb
  else if 0x0900 ≤ p && p ≤ 0x09FF then .qcfg
  else if p = 0x0C00 then .ctxWindow
  else if p = 0x0D00 then .cmp else if p = 0x0D01 then .sec else if p = 0x0D02 then .fuse
  else if p = 0x0D03 then .jrnl
  else if p = 0x0E00 then .pwr else if p = 0x0E01 then .clk else if p = 0x0E02 then .rst
  else if p = 0x0E03 then .hang else if p = 0x0E04 then .therm
  else if p = 0x0F00 then .ras else if p = 0x0F10 then .tele
  else .hole

/-- PG_CAP of a kind of page, as its chapter gives it (R80). -/
def pageCap : PageKind → Nat
  | .dev => 0x00000002
  | .beat => 0x00000008
  | .bay => 0x00090804
  | .mxa => 0x00800703
  | .tvu => 0x00202003
  | .gig => 0x00402003
  | .scr => 0x00200002
  | .ntc => 0x00200005
  | .suu => 0x00040802
  | .ftc => 0x00400005
  | .memxl => 0x00100003
  | .wcb => 0x00800002
  | .ope => 0x00100004
  | .link => 0x00400807
  | .rtr => 0x000A0804
  | .rtab => 0x00100501
  | .stg => 0x00402003
  | .bcu => 0x00080002
  | .hif => 0x00100004
  | .sriov => 0x00FF0000
  | .ctx => 0x00000000
  | .cmp => 0x00000003
  | .sec => 0x00200002
  | .fuse => 0x00000001
  | .jrnl => 0x00000004
  | .pwr => 0x00090003
  | .clk => 0x000E0002
  | .rst => 0x00000001
  | .hang => 0x00040085
  | .therm => 0x00140082
  | .ras => 0x00400001
  | .tele => 0x00800001
  | .qdb | .qcfg | .ctxWindow | .hole => 0

/-- PG_ID of page p: type in [31:16], instance in [15:8], version 1 in [7:0] (R73, R79). -/
def pageId (p : Nat) : Nat :=
  let mk (type inst : Nat) := type * 65536 + inst % 256 * 256 + 1
  match pageKind p with
  | .dev => mk 0x01 (p - 0x0000)
  | .beat => mk 0x02 0
  | .bay => mk 0x10 (p - 0x0010)
  | .mxa => mk 0x20 ((p - 0x0100) / 4)
  | .tvu => mk 0x21 ((p - 0x0100) / 4)
  | .gig => mk 0x22 ((p - 0x0100) / 4)
  | .scr => mk 0x23 ((p - 0x0100) / 4)
  | .ntc => mk 0x30 (p - 0x0400)
  | .suu => mk 0x31 (p - 0x0408)
  | .ftc => mk 0x32 (p - 0x0410)
  | .memxl => mk 0x33 (p - 0x0420)
  | .wcb => mk 0x34 (p - 0x0421)
  | .ope => mk 0x40 (p - 0x0500)
  | .link => mk 0x41 (p - 0x0510)
  | .rtr => mk 0x42 (p - 0x0520)
  | .rtab => mk 0x43 (p - 0x0521)
  | .stg => mk 0x44 (p - 0x0530)
  | .bcu => mk 0x45 (p - 0x0540)
  | .hif => mk 0x50 (p - 0x0600)
  | .sriov => mk 0x51 (p - 0x0601)
  | .ctx => mk 0x54 (p - 0x4000)
  | .cmp => mk 0x60 (p - 0x0D00)
  | .sec => mk 0x61 (p - 0x0D01)
  | .fuse => mk 0x62 (p - 0x0D02)
  | .jrnl => mk 0x63 (p - 0x0D03)
  | .pwr => mk 0x70 (p - 0x0E00)
  | .clk => mk 0x71 (p - 0x0E01)
  | .rst => mk 0x72 (p - 0x0E02)
  | .hang => mk 0x73 (p - 0x0E03)
  | .therm => mk 0x74 (p - 0x0E04)
  | .ras => mk 0x80 (p - 0x0F00)
  | .tele => mk 0x81 (p - 0x0F10)
  | .qdb | .qcfg | .ctxWindow | .hole => 0

/-- The row of a page's table that holds an offset. -/
def findRow (k : PageKind) (off : Nat) : Option RegRow :=
  (pageRows k).find? fun r => decide (r.off ≤ off) && decide ((off - r.off) % r.stride = 0) &&
    decide ((off - r.off) / r.stride < r.n)

/-- PG_CTRL at reset: ENABLE reads 1 in the pages where R81 says it does. -/
def ctrlReset : PageKind → Nat
  | .dev | .fuse | .sec | .cmp | .ras => 1
  | _ => 0

/-- The header's reset value at an offset below 0x40 (R79). -/
def hdrReset (p off : Nat) : Nat :=
  if off = 0x000 then pageId p else if off = 0x004 then pageCap (pageKind p)
  else if off = 0x008 then ctrlReset (pageKind p) else 0

/-- The offset within its page, and for a QCFG page within its queue's 64 B, of a register key. -/
def keyOff (k : Nat) : Nat :=
  let off := k % 1024 * 4
  if pageKind (k / 1024) = .qcfg then off % 64 else off

/-- The value of every register at reset, which an unlisted register of the state reads as. -/
def regReset (k : Nat) : W32 :=
  let p := k / 1024
  let kind := pageKind p
  if kind ≠ .qcfg && decide (k % 1024 * 4 < 0x40) then BitVec.ofNat 32 (hdrReset p (k % 1024 * 4))
  else match findRow kind (keyOff k) with
    | some r => BitVec.ofNat 32 r.reset
    | none => 0

end Sys2Proof.Machine
end

