-- ==== Sys2Proof/Machine/Table.lean ====
section
/-! DEFINITION. Sparse tables in one canonical form: keys strictly rising, and no entry equal to what its key reads as
when it is not listed. The registers, the memory bytes, the scratch bytes and every indexed piece of state are such
tables, so that equal contents are equal data. -/

namespace Sys2Proof

/-- A sparse table: a list of keys and values. What an unlisted key reads as is an argument of its operations. -/
abbrev Tbl (α : Type) := List (Nat × α)

namespace Machine

/-- What a table holds at key k; d gives the value of a key that is not listed. -/
def tget {α : Type} (d : Nat → α) : Tbl α → Nat → α
  | [], k => d k
  | e :: t, k => if e.1 = k then e.2 else tget d t k

/-- Drop every entry of key k. -/
def terase {α : Type} : Tbl α → Nat → Tbl α
  | [], _ => []
  | e :: t, k => if e.1 = k then terase t k else e :: terase t k

/-- Insert a value at key k, before the first larger key. -/
def tinsert {α : Type} : Tbl α → Nat → α → Tbl α
  | [], k, v => [(k, v)]
  | e :: t, k, v => if e.1 < k then e :: tinsert t k v else (k, v) :: e :: t

/-- Write a value at key k, keeping the canonical form. -/
def tset {α : Type} [DecidableEq α] (d : Nat → α) (t : Tbl α) (k : Nat) (v : α) : Tbl α :=
  if v = d k then terase t k else tinsert (terase t k) k v

/-- Update the value at key k. -/
def tmod {α : Type} [DecidableEq α] (d : Nat → α) (t : Tbl α) (k : Nat) (f : α → α) : Tbl α :=
  tset d t k (f (tget d t k))

/-- Write consecutive keys from k. -/
def tsetList {α : Type} [DecidableEq α] (d : Nat → α) : Tbl α → Nat → List α → Tbl α
  | t, _, [] => t
  | t, k, v :: vs => tsetList d (tset d t k v) (k + 1) vs

/-- Read n consecutive keys from k. -/
def tgetList {α : Type} (d : Nat → α) (t : Tbl α) : Nat → Nat → List α
  | _, 0 => []
  | k, n + 1 => tget d t k :: tgetList d t (k + 1) n

/-- Drop every entry whose key satisfies p: those keys read as unlisted again. -/
def tdrop {α : Type} (p : Nat → Bool) (t : Tbl α) : Tbl α := t.filter fun e => !p e.1

/-- The canonical form: keys strictly rising, and no entry equal to its default. -/
def Tbl.canonical {α : Type} [DecidableEq α] (d : Nat → α) : Tbl α → Bool
  | [] => true
  | e :: t => decide (e.2 ≠ d e.1) && (t.all fun x => decide (e.1 < x.1)) && Tbl.canonical d t

/-- A set of numbers, kept as a list without repeats. -/
def sadd (l : List Nat) (k : Nat) : List Nat := if k ∈ l then l else k :: l

/-- Take a number out of a set. -/
def sdel (l : List Nat) (k : Nat) : List Nat := l.filter (· ≠ k)

end Machine
end Sys2Proof
end

