-- ==== Sys2Proof/Machine/State.lean ====
section
/-! DEFINITION. The state as plain data: register space, memory, cores, contexts, the fabric, the units, the host interface, the
Chaise, power and the pod; the state after reset; faults and refusals. Which rule names each piece stands at its field. -/

namespace Sys2Proof.Machine

/-! ## Register space and what the pages send -/

/-- An MSI-X message sent to the host: the function and its vector (R441, R451, R527). -/
structure MsiMsg where
  func : Nat
  vec : Nat
  deriving DecidableEq, Repr

/-- A management message (MG_MSG, R562): destination (0xFFFF the active Dareder, 0xFFFE the standby, else a node ID),
KIND, STATUS, TERM, SEQ and body bytes. -/
structure MgMsg where
  dest : Nat
  kind : Nat
  status : Nat
  term : W32
  seq : W64
  body : List Byte
  deriving DecidableEq, Repr

/-- Register space (R72 to R101) with the two time counters it shows, and what the pages send out. -/
structure Pages where
  /-- Every register that does not read its reset value, by key. -/
  regs : Tbl W32
  /-- The HI words of the RSN snapshots, by pair key * 4 + access path (R91); 0 until LO is first read. -/
  snap : Tbl W32
  /-- The Fabric Beat Counter, in ns (R26). -/
  fbc : W64
  /-- The beat number (R31). -/
  beatNum : BitVec 48
  /-- The model's own: how many free values have been drawn. -/
  fresh : Nat
  /-- MSI-X messages sent, newest first. -/
  msi : List MsiMsg
  /-- Management messages created and not yet granted onto a link, oldest first. -/
  mgOut : List MgMsg
  /-- Interrupts raised to the Chaise firmware (R527). -/
  chaiseIrq : Nat
  deriving DecidableEq, Repr

/-! ## Memory tiers, host memory, write-combining buffers and translation -/

/-- An open WCB entry (R294): its line (device address / 64), which bytes it holds, the context of the last merged write,
and the contexts whose bytes it holds (R460 step 4). -/
structure WcbEntry where
  line : Nat
  bytes : Tbl Byte
  cx : Option (Nat × Nat)
  ctxs : List Nat
  deriving DecidableEq, Repr

/-- A TLB entry of a Bay (R307): context, generation, first CVA of the page, its size in bytes, device address, W. -/
structure TlbEntry where
  bay : Nat
  ctx : Nat
  gen : Nat
  va : Nat
  size : Nat
  pa : Nat
  w : Bool
  deriving DecidableEq, Repr

/-- A walker-cache entry of a Bay (R307): an upper-level entry already read. -/
structure WalkEntry where
  bay : Nat
  ctx : Nat
  gen : Nat
  level : Nat
  va : Nat
  table : Nat
  deriving DecidableEq, Repr

/-- One channel's or controller's corrected-error window (R291): its start, its count, whether STORM was raised. -/
structure StormWin where
  start : Nat
  count : Nat
  raised : Bool
  deriving DecidableEq, Repr

/-- The memory system (R283 to R317) and the host memory the device reaches through the host window (R97). -/
structure Mem where
  /-- Bytes of the near and far tier by device address. -/
  bytes : Tbl Byte
  /-- Bytes of host memory by function and bus address. -/
  host : Tbl Byte
  /-- Poisoned 64 B lines, by device address / 64 (R288). -/
  poison : Tbl Bool
  /-- Lines that hold a latent error: 1 correctable, 2 uncorrectable (R287, R529). -/
  flips : Tbl Nat
  /-- Open WCB entries, oldest last write first (R294, R295). -/
  wcb : List WcbEntry
  /-- TLB entries of every Bay, newest first (R307). -/
  tlb : List TlbEntry
  /-- Walker-cache entries of every Bay, newest first (R307). -/
  walks : List WalkEntry
  /-- Cached check lines of the far tier, newest first: controller, group, dirty (R301). -/
  chk : List (Nat × Nat × Bool)
  /-- Corrected-error windows by channel, controllers at 256 + c (R291). -/
  storm : Tbl StormWin
  /-- Scrub position of each far-tier controller, a line number (R290). -/
  ftScrub : Tbl Nat
  /-- Stacks whose interface has failed its check (R523). -/
  deadStacks : List Nat
  /-- POISON and FAULT of a window access that has not yet completed, as XL_WIN_STAT will show them (R314). -/
  win : Option Nat
  /-- Pages of the TLB entries that the invalidation in progress has dropped: context, device address, size (R307). -/
  inval : List (Nat × Nat × Nat)
  deriving DecidableEq, Repr

/-- Memory with nothing in it. -/
def Mem.reset : Mem := ⟨[], [], [], [], [], [], [], [], [], [], [], none, []⟩

/-- Register space and memory together: what every data access acts on. -/
structure Dev where
  pg : Pages
  mem : Mem
  deriving DecidableEq, Repr


/-! ## Cores -/

/-- A stationary tile (R134): its operand format, K extent, rows of element codes with the E8S scale of each
element's block (127 when unscaled), and the scratch ranges it was loaded from, scales included (R157). -/
structure Tile where
  fmt : Fmt
  k : Nat
  rows : List (List (Nat × Nat))
  src : List (Nat × Nat)
  deriving DecidableEq, Repr

/-- The open OS pass (R135): extents and the index of the MSTREAM that opened it. -/
structure OsPass where
  mt : Nat
  nt : Nat
  opener : Nat
  deriving DecidableEq, Repr

/-- An item of a Gig message FIFO (R214): its source, the entries of 64 B that are still to be popped, whether its pop has
begun, and the place in the FIFO's 64 entries of the next one (R224). -/
structure FifoItem where
  node : Nat
  core : Nat
  entries : List (List Byte)
  started : Bool
  slot : Nat
  deriving DecidableEq, Repr

/-- A queued or running Gig routine (R209): routine, how many scalar instructions its code has, arguments, return counter, SYNC,
and the GCALL's index in its block. -/
structure GCallRec where
  routine : Nat
  len : Nat
  args : List W64
  retc : Option (Fin 16)
  sync : Bool
  index : Nat
  deriving DecidableEq, Repr

/-- The running Gig routine: its call, the index of its next scalar instruction, whether it waits in WAITF, whether the level was
crossed while it waited (R218), and whether a scratch access of it is held (R156, R222). -/
structure GRun where
  call : GCallRec
  pc : Nat
  waiting : Bool
  woken : Bool
  held : Bool
  deriving DecidableEq, Repr

/-- A deferred programme exception (R50, R53): the unit (0 MXA, 1 TVU, 2 XFER or control), its code and INDEX. -/
structure Deferred where
  kind : Nat
  code : Nat
  index : Nat
  deriving DecidableEq, Repr

/-- The speculative copies of a core (R50, R53, R129, R192). -/
structure Spec where
  ctr : Tbl W64
  cmp : Tbl Bool
  /-- A speculative VRNG SEED: seed and NODE. -/
  seed : Option (W64 × Bool)
  /-- MXA and TVU format flags set by the block, and those it cleared with CSET CLR. -/
  setM : W32
  clrM : W32
  setT : W32
  clrT : W32
  /-- Performance deltas: the key of a counter pair, and how much. -/
  perf : List (Nat × Nat)
  deferred : List Deferred
  /-- Pages that have a shadow frame, and the bytes written in them. -/
  pages : List Nat
  bytes : Tbl Byte
  /-- The block touched a page of its shadow pool, so its results are undefined (R51). -/
  tainted : Bool
  deriving DecidableEq, Repr

/-- The beat block a core runs (R238, R260). -/
structure Blk where
  id : Nat
  /-- Number of the block within the launch, from 0 (k of R193). -/
  k : Nat
  /-- Index of the next instruction to dispatch. -/
  idx : Nat
  /-- BEAT has been dispatched: the choice of the next block, none for END. -/
  done : Bool
  next : Option Nat
  /-- The block missed its boundary and runs on under SLIP, or is stopped under FAULT. -/
  overrun : Bool
  deriving DecidableEq, Repr

/-- What holds dispatch (R260, R277 to R279, R209, R50). -/
inductive WaitOn where
  | arr (tag : Option W16)
  | fence (sc : FScope) (cgs : BitVec 8)
  | event (e : Fin 16) (v : W64)
  | gcall
  | commit (index : Nat) (insn : CoreInsn)
  deriving DecidableEq, Repr

/-- Classes of outstanding XFER work (R279); an XGET with its tag and the bytes of its response that have still to land. -/
inductive OutKind where
  | dma | urecipe | uapply | xput (left : Nat) | xget (tag left : Nat) | xatom (seq : Nat) | xmsg | coll
  deriving DecidableEq, Repr

/-- An XFER instruction that has not completed: what it waits for, completion group, index, and the pages of its own core's
scratch that it has still to write (R156). -/
structure OutRec where
  kind : OutKind
  cg : Nat
  index : Nat
  pages : List Nat
  deriving DecidableEq, Repr

/-- One physical core: MXA, TVU, Gig, scratch and the native stream it runs (R14, R130 to R282). -/
structure Core where
  /-- Bytes of the 8 MiB scratch by offset, and its lines (offset / 64) that hold 1 a correctable or 2 an uncorrectable
  error. -/
  scr : Tbl Byte
  scrFlips : Tbl Nat
  /-- MXA: FRONT, BACK, the tile an MLOAD is loading, the two OS banks, the open pass, queued instructions (R134, R135,
  R260). -/
  front : Option Tile
  back : Option Tile
  loading : Option Tile
  bank0 : List (List W64)
  bank1 : List (List W64)
  pass : Option OsPass
  /-- The mode word in force, and the active OS bank (R138, R166). -/
  mmode : W32
  osel : Bool
  mxq : List (Nat × CoreInsn)
  /-- TVU queue; and whether the head of a queue waits for a free shadow frame (R50, R159, R260). -/
  tvq : List (Nat × CoreInsn)
  mWait : Bool
  tWait : Bool
  /-- A unit has met an exception and issues no later instruction of the block (R161, R200, R280). -/
  mStop : Bool
  tStop : Bool
  xStop : Bool
  /-- TVU: tile registers, a row of 128 B each, by register * 32 + row; mask registers by mask * 32 + row (R170, R171). -/
  treg : Tbl (BitVec 1024)
  masks : Tbl W64
  /-- Gig: registers, local store, queue, running routine, and the inbound FIFO (R206, R209, R214). -/
  greg : Tbl W64
  ls : Tbl Byte
  gq : List GCallRec
  grun : Option GRun
  gStop : Bool
  fifo : List FifoItem
  /-- Items complete and held for the boundary, in arrival order (R216). -/
  fifoHeld : List FifoItem
  /-- Messages whose header has arrived and whose last byte has not: the header's check and the entries reserved, 0 for
  one that is dropped (R215, R219). -/
  fifoResv : List (Nat × Nat)
  /-- Place of the next entry in the FIFO (R224). -/
  fifoTail : Nat
  /-- The fill at the end of the previous cycle, for the level crossing (R218). -/
  prevFill : Nat
  /-- Counters, comparators, the speculative copies, the block, its held instructions, what holds dispatch, outstanding
  work. -/
  ctr : Tbl W64
  cmp : Tbl Bool
  spec : Option Spec
  blk : Option Blk
  held : List (Nat × CoreInsn)
  wait : Option WaitOn
  outs : List OutRec
  /-- The core has failed: it stops and writes nothing further (R543). -/
  failed : Bool
  /-- A committed programme exception has halted the context (R41 EXC): the unit (0 MXA, 1 TVU, 2 Gig, 3 XFER or control), code and INDEX
  of the first of them (R455). -/
  exc : Bool
  excRec : Nat × Nat × Nat
  /-- Order in which work was dispatched and has not started: 0 matrix, 1 vector, 2 an XFER instruction that writes own
  scratch, 3 any other XFER instruction, 4 a FENCE of scope LOCAL, 5 a GCALL that has not returned (R156, R279). -/
  ord : List Nat
  /-- The context whose block state this is (R446); its committed seed and NODE, and whether a VRNG SEED has committed in its
  launch (R192, R202). -/
  owner : Option Nat
  seed : W64 × Bool
  seeded : Bool
  deriving DecidableEq, Repr

/-- A core as cold reset leaves it (SRAM content is not given: log entry 3). -/
def Core.reset : Core where
  scr := []
  scrFlips := []
  front := none
  back := none
  loading := none
  bank0 := []
  bank1 := []
  pass := none
  mmode := 0
  osel := false
  mxq := []
  tvq := []
  mWait := false
  tWait := false
  mStop := false
  tStop := false
  xStop := false
  treg := []
  masks := []
  greg := []
  ls := []
  gq := []
  grun := none
  gStop := false
  fifo := []
  fifoHeld := []
  fifoResv := []
  fifoTail := 0
  prevFill := 0
  ctr := []
  cmp := []
  spec := none
  blk := none
  held := []
  wait := none
  outs := []
  failed := false
  exc := false
  excRec := (0, 0, 0)
  ord := []
  owner := none
  seed := (0, false)
  seeded := false

/-! ## Contexts, modules, launches and rounds -/

/-- A declaration of a block (R229, R230): local tag, length source (0 CONST, 1 PREG, 2 SENDER), parameter register,
length; stage marks a declaration that the translator adds for a collective (R409). -/
structure DeclDef where
  tag : Nat
  lsrc : Nat
  preg : Nat
  len : Nat
  stage : Bool
  deriving DecidableEq, Repr

/-- A translated beat block (R229): budget in cycles, declarations, instructions. -/
structure BlockDef where
  budget : Nat
  decls : List DeclDef
  insns : List CoreInsn
  deriving DecidableEq, Repr

/-- A translated stream (R228): its slot mask and blocks. -/
structure StreamDef where
  mask : Nat
  blocks : List BlockDef
  deriving DecidableEq, Repr

/-- A declared parameter register (R233). -/
structure ParmDef where
  reg : Nat
  kind : Nat
  flags : Nat
  dflt : W64
  deriving DecidableEq, Repr

/-- A constant record (R234). -/
structure ConstDef where
  mask : Nat
  off : Nat
  data : List Byte
  deriving DecidableEq, Repr

/-- A capability field recorded at translation (R247): entry offset, least significant bit, width, value. -/
structure CapRec where
  off : Nat
  lsb : Nat
  width : Nat
  value : Nat
  deriving DecidableEq, Repr

/-- A translation cache entry (R245 to R247). -/
structure Module where
  digest : List Byte
  xlt : List Byte
  capGen : Nat
  caps : List CapRec
  minMode : Nat
  shadow : Nat
  streams : List StreamDef
  /-- The scalar instructions of each Gig routine (R208, R281). -/
  routines : List (List W64)
  parms : List ParmDef
  consts : List ConstDef
  /-- Group slots that a collective instruction of the module names (R401). -/
  grps : List Nat
  /-- Bytes of the translated form, which the translation cache holds (R485). -/
  bytes : Nat
  deriving DecidableEq, Repr

/-- A declaration of the context's current beat (R379, R380): full tag; expected length, none until a SENDER transfer's SOT;
payload bytes counted, the next PSEQ, SOT seen, the CRC-64 register, and the judgement. -/
structure Decl where
  tag : Nat
  len : Option Nat
  stage : Bool
  got : Nat
  next : Nat
  sot : Bool
  crc : W64
  done : Bool
  bad : Bool
  void : Bool
  deriving DecidableEq, Repr

/-- A confirmation round (R41 to R47): the beat, the block number of the launch it is for, this device's retained vote
(cause word and lowest failing node), the votes received by axis with cause and node, the axes whose reduction is sent on
(4 stands for the result at the origin), whether the block is the launch's last, whether the round was withdrawn, whether it has
ended with a result (kept so that a repeated VOTE is answered, R46, R47). -/
structure Round where
  beat : Nat
  k : Nat
  vote : Option (Nat × Nat)
  got : List (Nat × Nat × Nat)
  sent : List Nat
  final : Bool
  withdrawn : Bool
  ended : Bool
  deriving DecidableEq, Repr

/-- A beat of a launch: block number, beat, whether speculative, the block of each running core (logical), the fence epoch
it began under, whether its vote is cast. -/
structure LBeat where
  k : Nat
  beat : Nat
  spec : Bool
  blocks : List (Nat × Nat)
  fep : Nat
  voted : Bool
  deriving DecidableEq, Repr

/-- An accepted or running launch (R250 to R255, R54). -/
structure Launch where
  handle : Nat
  /-- Effective mode, and policy SLIP. -/
  mode : Nat
  slip : Bool
  group : Nat
  start : Nat
  entry : Nat
  cookie : W32
  sq : Nat
  /-- The first block has started. -/
  running : Bool
  /-- Slot beats run, and the beat number of the last boundary. -/
  beats : Nat
  last : Nat
  /-- The latest beat of the launch and the one before it; the blocks of every block number not confirmed (R53: a discarded
  block runs again); how many blocks are confirmed. -/
  cur : Option LBeat
  prev : Option LBeat
  hist : List (Nat × List (Nat × Nat))
  conf : Nat
  /-- Consecutive SLIP results for the current block (R40). -/
  slips : Nat
  /-- HOLD with its reason 1 FAILED, 2 WITHDRAWN, 3 LATE, or 0; the beat at which a RESUME leaves HOLD. -/
  hold : Nat
  resumeAt : Option Nat
  /-- ABORT entries visible and not latched: submission queue and cookie; and the latched one (R54, R454). -/
  abortPend : List (Nat × W32)
  abort : Option (Nat × W32)
  /-- The final block has retired and its vote is cast (R255); its round was CONFIRMED during a HOLD. -/
  ended : Bool
  finalConf : Bool
  /-- No core of the launch goes on: overrun under FAULT, an exception, an abort vote, teardown. -/
  halted : Bool
  /-- A committed programme exception has halted the context; its vote is still to be cast (R41). -/
  exc : Bool
  excVote : Bool
  /-- A core of the partition was fenced since the last vote (R41). -/
  fenced : Bool
  /-- Shadow pool pages set at preparation (R51, R253). -/
  pool : Nat
  deriving DecidableEq, Repr

/-- An atomic held until the boundary (R273): source node, source core, issue order, operation, CVA, operand, beat. -/
structure HeldAtom where
  node : Nat
  core : Nat
  seq : Nat
  aop : Nat
  cva : Nat
  val : W64
  deriving DecidableEq, Repr

/-- What the device holds for a context beyond its CTX page. -/
structure Ctx where
  /-- Handles: handle and cache entry's number; the entries themselves by number (R245). -/
  handles : List (Nat × Nat)
  cache : List (Nat × Module)
  launch : Option Launch
  preg : Tbl W64
  decls : List Decl
  rounds : List Round
  held : List HeldAtom
  /-- XATOMs sent and not acknowledged: issue sequence and target node (R273). -/
  unacked : List (Nat × Nat)
  /-- Sequence number of the next XATOM. -/
  atomSeq : Nat
  /-- Generation when its last teardown began (R444). -/
  lastGen : Option Nat
  /-- Teardown: 0 none, 1 waiting for B, 2 host DMA drains, 3 scratch is zeroed (R460). -/
  tear : Nat
  deriving DecidableEq, Repr

/-- A context with nothing bound. -/
def Ctx.reset : Ctx where
  handles := []
  cache := []
  launch := none
  preg := []
  decls := []
  rounds := []
  held := []
  unacked := []
  atomSeq := 0
  lastGen := none
  tear := 0

/-! ## Packets, the router and the links -/

/-- A packet held in the router for an output port, with the port it entered from (none when injected here). -/
structure Held where
  pkt : Packet
  out : Nat
  inp : Option Nat
  /-- The VC of the input buffer that it occupies, which the VC on the next link may differ from (R382). -/
  vin : Nat
  deriving DecidableEq, Repr

/-- The router (R378 to R395). -/
structure Router where
  /-- Packets waiting for their output port, oldest first. -/
  held : List Held
  /-- Packets granted onto a link whose last flit is not acknowledged: port, bank, sequence of its last flit (R392). -/
  flying : List (Nat × Nat × Nat)
  /-- Packets routed to this node and not yet taken, with the port each entered from. -/
  local_ : List (Packet × Option Nat)
  /-- Histogram bins of the beat: key (port * 8 + VC) * 8 + bin (R395). -/
  bins : Tbl Nat
  /-- Next VC of the round robin of each port (R387). -/
  rr : Tbl Nat
  deriving DecidableEq, Repr

/-- The ACK and CREDIT fields of a flit that this end sends (R349, R353): NAK or not, the number, and the credits of one VC. -/
structure TxHead where
  nak : Bool
  num : BitVec 12
  credit : Option (Fin 8 × BitVec 12)
  deriving DecidableEq, Repr

/-- What a link hands to its serialiser, in the order of sending (R350, R355, R359): a sequenced flit, one that is resent, IDLE, SYNC with its FBC,
and ID. -/
inductive TxFlit where
  | seqd (h : TxHead) (f : Flit)
  | resent (h : TxHead) (f : Flit)
  | idle (h : TxHead)
  | sync (h : TxHead) (fbc : W64)
  | id (h : TxHead) (f : IdFlit)
  deriving DecidableEq, Repr

/-- One optical link's internal state (R344 to R366). -/
structure Link where
  /-- Lanes that the last LASER_CHECK did not mark (R344); lanes that passed it, LOCK and EQ, and have not FAILED since (R347, R363). -/
  laser : BitVec 16
  good : BitVec 16
  /-- Q0; the next sequence number to send, the oldest unacknowledged, the next expected (R351, R353). -/
  q0 : Nat
  rxQ0 : Nat
  txSeq : Nat
  txAck : Nat
  rxSeq : Nat
  /-- Replay buffer, oldest first, with how often each flit was resent; and the receive reorder buffer. -/
  replay : List (Flit × Nat)
  reorder : List Flit
  /-- Bytes of the packet being received; it is dropped whole in QUARANTINE (R360). -/
  part : List Byte
  dropping : Bool
  /-- Credits held by VC; flits freed and not yet returned by VC; those returned in a sequenced flit that no ACK covers yet: its number, the VC and
  the flits (R352). -/
  credits : Tbl Nat
  owed : Tbl Nat
  uncom : List (Nat × Fin 8 × Nat)
  /-- Consecutive acknowledge timeouts (R354); the NAKs to send, those sent whose flit is still missing, and the next expected number that the last ACK
  told (R353). -/
  timeouts : Nat
  nak : List Nat
  naked : List Nat
  told : Nat
  /-- Link-control flits that wait for replay room, and a SWITCH of the partner that waits for the own one (R353, R364). -/
  ctl : List Flit
  swIn : Bool
  /-- An outstanding request: true WIDTH_REQ, false RETRAIN_REQ (R366); a retrain of the partner's, and one of its own, that wait for a width change
  to end. -/
  req : Option Bool
  retrainAfter : Bool
  again : Bool
  /-- The width change's agreed lanes; whether the own SWITCH is sent. -/
  newSet : Option (BitVec 16)
  /-- The ID exchange: partner's ID seen, reply seen, and its content. -/
  peer : Option IdFlit
  replied : Bool
  /-- SERIAL of the last partner; whether the link passed through OFF, FAILED or a reset, so R362 discards its buffers. -/
  lastSer : Option W64
  discard : Bool
  /-- A failed attempt waits 1 ms for its restart (R358). -/
  waiting : Bool
  /-- EQ starts cold (R358). -/
  cold : Bool
  /-- Windows above FAIL_TH by lane, consecutive (R363). -/
  failWin : Tbl Nat
  /-- Flits sent, newest first. -/
  sent : List TxFlit
  deriving DecidableEq, Repr

/-- A link after reset: OFF, nothing held, full credits (R352, R362). -/
def Link.reset : Link where
  laser := 0
  good := 0
  q0 := 0
  rxQ0 := 0
  txSeq := 0
  txAck := 0
  rxSeq := 0
  replay := []
  reorder := []
  part := []
  dropping := false
  credits := []
  owed := []
  uncom := []
  timeouts := 0
  nak := []
  naked := []
  told := 0
  ctl := []
  swIn := false
  req := none
  retrainAfter := false
  again := false
  newSet := none
  peer := none
  replied := false
  lastSer := none
  discard := true
  waiting := false
  cold := true
  failWin := []
  sent := []

/-! ## Collectives, stack update units, queues -/

/-- The collective instructions (R274). -/
inductive CollKind where
  | callr | crscat | cagath | cbcast | ca2a | ca2av | cperm
  deriving DecidableEq, Repr

/-- A masked axis of an active collective (R403): axis, ring size, logical position of this member. -/
structure RingAx where
  ax : Nat
  n : Nat
  lp : Nat
  deriving DecidableEq, Repr

/-- One destination of a collective: a core's own scratch from base, or translated segments. -/
structure CDest where
  core : Nat
  own : Bool
  base : Nat
  segs : List (Nat × Nat)
  deriving DecidableEq, Repr

/-- An inbound sub-stream (R407, R409): STEP, sender, expected bytes, and what has been seen. -/
structure SubIn where
  step : Nat
  node : Nat
  want : Option Nat
  got : Nat
  next : Nat
  sot : Bool
  crc : W64
  done : Bool
  deriving DecidableEq, Repr

/-- An outbound sub-stream (R407): STEP, receiver, total bytes, and what has been sent. -/
structure SubOut where
  step : Nat
  node : Nat
  total : Nat
  sent : Nat
  next : Nat
  crc : W64
  /-- The register of the digest of R554. -/
  dig : W64
  deriving DecidableEq, Repr

/-- An active collective of a lane (R404 to R425). -/
structure Coll where
  kind : CollKind
  ctx : Nat
  gen : Nat
  beat : Nat
  lane : Nat
  slot : Nat
  ctag : Nat
  rop : Rop
  fmt : Fmt
  fast : Bool
  count : Nat
  extra : Nat
  /-- Issuing cores (logical) with the index and completion group of the instruction. -/
  cores : List Nat
  index : Nat
  axes : List RingAx
  /-- Instance nodes by rank, and this member's rank. -/
  nodes : List Nat
  rank : Nat
  /-- Element codes: the contribution, then what each stage has made of it. -/
  vals : List Nat
  dests : List CDest
  /-- The stage that runs, of those of the operation (R407's numbers), and those still to run. -/
  stages : List Nat
  /-- Packets of later stages (R408). -/
  early : List Packet
  /-- Own-chunk segments that wait for the other direction: offset, direction, codes (R413, R415). -/
  hold : List (Nat × Nat × List Nat)
  /-- Elements of the own chunk combined in the current reduce-scatter stage. -/
  owned : Nat
  ins : List SubIn
  outs : List SubOut
  bad : Bool
  /-- Σ of squares: q of each core, Q, Σq (R421), present when tapped. -/
  tap : Option (List W32 × W32 × W32 × Nat)
  /-- Counts received of CA2AV, and the inbound pieces seen of CPERM. -/
  counts : List (Nat × Nat)
  deriving DecidableEq, Repr

/-- A Bay combine unit gathering its eight cores (R419, R420). -/
structure Gather where
  ctx : Nat
  index : Nat
  kind : CollKind
  issued : List (Nat × CollOp)
  deriving DecidableEq, Repr

/-- A recipe in an SUU slot (R321, R337). -/
structure Recipe where
  ops : List W32
  q : List W32
  ctx : Nat
  gen : Nat
  deriving DecidableEq, Repr

/-- A queued or running UAPPLY (R328 to R335). -/
structure UReq where
  id : Nat
  ctx : Nat
  gen : Nat
  core : Nat
  index : Nat
  cg : Nat
  beat : Nat
  slot : Nat
  rc : Rc
  retain : Bool
  nx : Nat
  ny : Nat
  /-- Device segments of each X field's read half, written half, and of each Y field. -/
  xr : List (List (Nat × Nat))
  xw : List (List (Nat × Nat))
  y : List (List (Nat × Nat))
  count : Nat
  s : List W64
  key : W64
  blk : Nat
  /-- Channel sets whose groups are still to be processed. -/
  left : List Nat
  /-- The first group not yet written of a channel set whose unit was lost while it worked on it (R336). -/
  next : Tbl Nat
  poisoned : Bool
  deriving DecidableEq, Repr

/-- The stack update units (R318 to R337). -/
structure Suu where
  /-- Recipe of slot n of SUU u, at u * 8 + n. -/
  slots : Tbl (Option Recipe)
  reqs : List UReq
  nextId : Nat
  oos : List Nat
  deriving DecidableEq, Repr

/-- A staged message of an MRQ (R457): header fields and payload, and its arrival in ns of FBC. -/
structure Staged where
  src : Nat
  score : Nat
  tag : Nat
  beat : Nat
  payload : List Byte
  at_ : Nat
  deriving DecidableEq, Repr

/-- A queue beyond its configuration registers (R449 to R459). -/
structure Queue where
  /-- Doorbell values written and not yet visible, oldest first. -/
  pend : List W32
  /-- Entries started and not completed: opcode and cookie. -/
  inflight : List (Nat × W32)
  /-- Completions that wait for room in the CQ. -/
  waiting : List (List Byte)
  staged : List Staged
  /-- The ring has wrapped an odd number of times (PHASE, R453). -/
  wraps : Bool
  /-- The message that is being written to the ring (R459, R462). -/
  writing : Option Staged
  /-- ABORTs that were started ahead of entries before them: ring index and cookie (R452). -/
  early : List (Nat × W32)
  deriving DecidableEq, Repr

/-- A queue with nothing in it. -/
def Queue.reset : Queue := ⟨[], [], [], [], false, none, []⟩

/-- A LOAD_MODULE that the Chaise serves (R242 to R248): once begun, the image read, or the code of what stopped it. -/
structure LoadReq where
  ctx : Nat
  gen : Nat
  sq : Nat
  cookie : W32
  flags : Nat
  src : Nat
  len : Nat
  res : Nat
  image : Option (List Byte)
  err : Nat
  capGen : W32
  tries : Nat
  begun : Bool
  deriving DecidableEq, Repr

/-- The host interface beyond its registers. -/
structure Hif where
  queues : Tbl Queue
  loads : List LoadReq
  /-- Records of the Input Journal written in the current beat, and that beat (R63). -/
  jBeat : Nat
  jSeq : Nat
  /-- The zero engine's range, and whether the region j that a RELEASE zeroes (R463, R464). -/
  zero : Option (Nat × Nat)
  zeroLend : List Nat
  /-- The FLR whose teardown is in progress. -/
  flr : Option Nat
  /-- HDM decoders whose last commit reported an error (R464). -/
  hdmErr : List Nat
  /-- Data returned for CXL.mem reads, newest first: DPA, bytes, poison (R465). -/
  cxlRsp : List (Nat × List Byte × Bool)
  deriving DecidableEq, Repr

/-! ## The whole hardware -/

/-- Shadow mode's own state (R553 to R555): digests of beats by beat number mod 8, and whether a copy was dropped. -/
structure Shadow where
  dig : Tbl W64
  mdrop : Tbl Bool
  deriving DecidableEq, Repr

/-- A Bay's own state: the physical slot whose scratch a switch-in zeroes, and the slot under RETEST (R544, R546). -/
structure BayX where
  zeroing : Option Nat
  retest : Option Nat
  deriving DecidableEq, Repr

/-- A Bay with neither. -/
def BayX.reset : BayX := ⟨none, none⟩

/-! ## The Chaise (R471 to R493) -/

/-- An entry of the measurement extension log (R481): slot, digest, description. -/
structure MelEntry where
  slot : Nat
  digest : List Byte
  desc : List Byte
  deriving DecidableEq, Repr

/-- An answer of the SPDM responder or the PLDM terminus (R484 to R490, R493). -/
inductive Reply where
  /-- ERROR with its code name: 1 InvalidRequest, 2 Busy, 3 SessionLimitExceeded, 4 Unspecified, 5 UnsupportedRequest. -/
  | error (code : Nat)
  /-- The measurement blocks of one snapshot (index, 48 B), and the signature when one was asked. -/
  | measurements (blocks : List (Nat × List Byte)) (sig : Option (List Byte))
  | mel (entries : List MelEntry)
  | certificate (chain : List Byte)
  | digests (slot0 : Option (List Byte))
  | challengeAuth (sig : List Byte)
  | keyExchange (session : Nat) (sig : List Byte)
  | ideKeyed
  | answered
  | discovery (types : List Nat)
  /-- A numeric sensor's reading. -/
  | sensor (id : Nat) (reading : Int)
  /-- The result of a PLDM Type 5 request: accepted or not, and the signature status after a verify. -/
  | fw (ok : Bool) (sigStatus : Option Nat)
  /-- A PLDM request that the terminus does not serve. -/
  | pldmRefused
  deriving DecidableEq, Repr

/-- A PLDM Type 5 update in progress (R493): the slot written, and whether its verify has passed. -/
structure FwUpdate where
  slot : Nat
  verified : Bool
  deriving DecidableEq, Repr

/-- The Chaise beyond its registers. -/
structure Chaise where
  /-- Measurement slots, 48 B each; a slot not listed is zero (R481). -/
  slots : Tbl (List Byte)
  /-- The measurement extension log, oldest first. -/
  mel : List MelEntry
  /-- Numbers of the secured sessions open (R486). -/
  sessions : List Nat
  /-- The SPI flash on the board; an unlisted byte reads 0xFF (log entry 3). -/
  flash : Tbl Byte
  /-- Header of the running image, and the port configuration record and cache configuration as read at cold step 4. -/
  image : List Byte
  board : List Byte
  update : Option FwUpdate
  /-- Fuse words that fail their check, by page offset (R492). -/
  fuseBad : List Nat
  /-- The Chaise has stopped because its PLL lost lock (R510). -/
  stopped : Bool
  /-- The signer has failed its self-check (R495). -/
  signFault : Bool
  /-- Answers sent, newest first. -/
  replies : List Reply
  deriving DecidableEq, Repr

/-- The Chaise before its first boot. -/
def Chaise.reset : Chaise := ⟨[], [], [], [], [], [], none, [], false, false, []⟩

/-! ## The beat servo, power and clocks, resets and pins -/

/-- The beat servo (R27 to R32): whether acquisition still waits for its first marker, the consecutive markers within bounds, and
the highest multiple of the beat length that the FBC has crossed. -/
structure Servo where
  acq : Bool
  run : Nat
  top : Nat
  deriving DecidableEq, Repr

/-- The servo before it is enabled. -/
def Servo.reset : Servo := ⟨false, 0, 0⟩

/-- Power, clocks and the pins (R343, R497 to R514, R536). -/
structure Power where
  /-- P-state in force, cap duty and thermal duty in eighths, and the changes due at the next boundary: cap in eighths
  (0 no change, 1 down, 2 up), thermal alike (R502 to R506). -/
  pstate : Nat
  /-- A write of PWR_PSTATE waits for the next boundary (R502). -/
  pend : Bool
  capDuty : Nat
  capStep : Nat
  thermDuty : Nat
  thermStep : Nat
  /-- THERMTRIP_N is asserted; clocks but the Chaise's are stopped (R507). -/
  tripped : Bool
  /-- RESET_N is asserted (R514). -/
  inReset : Bool
  /-- The third counted reset within 600 s has begun: OUT_OF_SERVICE follows its end (R534). -/
  escalate : Bool
  /-- Domain resets in progress, oldest first: domain and target (R512). -/
  doms : List (Nat × Nat)
  /-- FTc_RESET_N of each far-tier controller, 1 high; and the controllers whose other FTc signals the device drives (R578, R579, R582). -/
  ftReset : BitVec 8
  ftDriven : BitVec 8
  deriving DecidableEq, Repr

/-- The state at cold reset with RESET_N asserted. -/
def Power.reset : Power := ⟨0, false, 8, 0, 8, 0, false, true, false, [], 0, 0⟩

/-! ## The Dareder role and a worker's part in it (R562 to R573) -/

/-- A CONFIG body (R563). -/
structure PodCfg where
  axis : W32
  node : W16
  cfgEp : Nat
  parent : Nat
  depth : Nat
  atFbc : Nat
  beatAt : Nat
  deriving DecidableEq, Repr

/-- A change of the route banks that the active runs (R391, R393, R550, R566): the bank that it writes and then injects, the bank that it proves empty, the
phase (0 DRAINED is being armed, 1 DRAINED is being read, 2 the change is armed), the routers that have not answered in this phase, whether a read of
phase 1 showed 0, and the beat of the change. -/
structure BankJob where
  bank : Nat
  drains : Nat
  phase : Nat
  left : List Nat
  bad : Bool
  at_ : Nat
  deriving DecidableEq, Repr

/-- The active's comparison of a PRIMARY with its SHADOW (R555, R573): the next entry of each ring by address, the first half of an entry being read,
entries that wait for the other's (address, beat, digest, valid), the next beat expected of the step, whether the step is equal so far, the consecutive
equal steps, and a promotion that is due. -/
structure ShadowRun where
  tails : Tbl Nat
  half : Tbl (List Byte)
  seen : List (Nat × Nat × Nat × Bool)
  next : Nat
  ok : Bool
  eq : Nat
  due : Bool
  deriving DecidableEq, Repr

/-- The pod's part of a device's state. -/
structure Pod where
  /-- Worker: its configuration epoch (R359, R563), and a CONFIG that waits for AT_FBC. -/
  cfgEp : Nat
  pending : Option PodCfg
  /-- Dareder: it is the active; its TERM (R570). -/
  active : Bool
  term : Nat
  /-- A heartbeat of the other has arrived in this beat, and the beats without one (R570). -/
  heard : Bool
  missed : Nat
  /-- State log records received and not committed, by generation; the generation last committed; the records applied
  (R569). -/
  logs : List (Nat × List Byte)
  gen : Nat
  applied : List (Nat × List Byte)
  /-- A gap in SEQ was found: the whole state is due (R569). -/
  gap : Bool
  /-- Congestion map by node, and the answers of workers by node (R567, R571). -/
  congest : Tbl (List Byte)
  acks : Tbl Nat
  collected : Tbl (List Byte)
  /-- RAS and TELE messages received from workers, newest first: node and body. -/
  ras : List (Nat × List Byte)
  tele : List (Nat × List Byte)
  /-- Worker: bins 5, 6 and 7 of RTR_HIST summed since the last CONGEST, by port * 8 + VC (R567). -/
  busy : Tbl Nat
  /-- Active: a change of the route banks in progress, whether the bank not in use is proven empty, whether another change waits; the failed
  (node, port) pairs, the fenced devices, and of these the ones that the next change of epoch shuts out (R550, R566). -/
  job : Option BankJob
  proven : Bool
  stale : Bool
  down : List (Nat × Nat)
  fenced : List Nat
  fencing : List Nat
  /-- Active: a configuration being applied, its epoch and the workers that have not answered OK (R564). -/
  config : Option (Nat × List Nat)
  shadow : ShadowRun
  deriving DecidableEq, Repr

/-- A device with no pod configuration. -/
def Pod.reset : Pod :=
  ⟨0, none, false, 0, false, 0, [], 0, [], false, [], [], [], [], [], [], none, false, false, [], [], [], none, ⟨[], [], [], 0, true, 0, false⟩⟩

/-- A journal record read for replay (R63, R64). -/
structure JRec where
  ctx : Nat
  kind : Nat
  target : Nat
  beat : Nat
  seq : Nat
  payload : List Byte
  /-- Offset in the ring past the record. -/
  next : Nat
  deriving DecidableEq, Repr

/-- Everything but the queue of waiting commands. -/
structure Hw where
  dev : Dev
  /-- Physical cores 0 to 107 (R14). -/
  cores : Tbl Core
  /-- Block state of contexts that do not hold their cores in this beat, by physical core * 256 + context (R446). -/
  parks : Tbl Core
  ctxs : Tbl Ctx
  rtr : Router
  links : Tbl Link
  colls : List Coll
  /-- A Bay's combine unit gathering its cores (R419). -/
  bcu : Tbl (Option Gather)
  /-- Group slots that failed their parity check and so act as not configured, until they are written again (R427). -/
  grpLost : List Nat
  suu : Suu
  hif : Hif
  shdw : Shadow
  bays : Tbl BayX
  chaise : Chaise
  servo : Servo
  power : Power
  pod : Pod
  /-- Data that register reads have returned, newest first: the access path and the bytes (R87). -/
  reads : List (Path × List Byte)
  deriving DecidableEq, Repr

/-! ## Reset and the outcomes of a command -/

/-- Register space at cold reset: context 0 is BOUND to function 0 and partition 0 (R444, R468, R470); every other register holds
its table's reset value. -/
def Pages.reset : Pages where
  regs := [(Reg.SRIOV_CTX 0, 0xFFFFFF00#32), (Reg.CTX_STATE 0, 0x20000000#32)]
  snap := []
  fbc := 0
  beatNum := 0
  fresh := 0
  msi := []
  mgOut := []
  chaiseIrq := 0

/-- The stack update units with no recipe and no request. -/
def Suu.reset : Suu := ⟨[], [], 0, []⟩

/-- The router with nothing held. -/
def Router.reset : Router := ⟨[], [], [], [], []⟩

/-- The host interface with no queue in use. -/
def Hif.reset : Hif := ⟨[], [], 0, 0, none, [], none, [], []⟩

/-- The hardware at cold reset with RESET_N asserted (R13, R514). -/
def Hw.reset : Hw where
  dev := ⟨Pages.reset, Mem.reset⟩
  cores := []
  parks := []
  ctxs := []
  rtr := Router.reset
  links := []
  colls := []
  grpLost := []
  bcu := []
  suu := Suu.reset
  hif := Hif.reset
  shdw := ⟨[], []⟩
  bays := []
  chaise := Chaise.reset
  servo := Servo.reset
  power := Power.reset
  pod := Pod.reset
  reads := []

/-- The block: the commands that wait, first in first out, and everything else. -/
structure State where
  pending : List Instr
  hw : Hw
  deriving DecidableEq, Repr

/-- The machine right after cold reset, with RESET_N still asserted and nothing waiting (R13, R514). -/
def State.reset : State := ⟨[], Hw.reset⟩

/-- Faults: the spec gives every event of the device an effect, so no command faults. -/
inductive Fault where
  deriving DecidableEq, Repr

/-- Why a command is refused by the model. -/
inductive Refusal where
  /-- A command that the model gives no meaning; no arm of exec answers with it. Safe. -/
  | notModelled (mnemonic : String)
  /-- An Ethaqua command whose operands the translator of R242 to R247 refuses, so that no core ever holds it; raised by the
  Ethaqua meanings. Safe. -/
  | illFormed
  deriving DecidableEq, Repr
end Sys2Proof.Machine
end

