-- ==== Sys2Proof/Machine/Pages.lean ====
section
/-! DEFINITION. Operations over register space: reading and writing registers, 64-wbit pairs, counters, the route lookup
of management traffic, detectors with their RAS records, telemetry events and injection (R22, R23, R79 to R93, R389,
R521 to R530, R540). -/

namespace Sys2Proof.Machine

/-! ## Registers -/

/-- The register of key k. -/
def Pages.rd (p : Pages) (k : Nat) : W32 := tget regReset p.regs k

/-- Set the register of key k. -/
def Pages.wr (k : Nat) (v : W32) (p : Pages) : Pages := { p with regs := tset regReset p.regs k v }

/-- Update the register of key k. -/
def Pages.upd (k : Nat) (f : W32 → W32) (p : Pages) : Pages := p.wr k (f (p.rd k))

/-- A field of a register. -/
def Pages.get (p : Pages) (k hi lo : Nat) : Nat := fld (p.rd k) hi lo

/-- Set a field of a register. -/
def Pages.put (k hi lo v : Nat) (p : Pages) : Pages := p.upd k fun w => setFld w hi lo v

/-- A 64-wbit pair whose low word has key k. -/
def Pages.rd64 (p : Pages) (k : Nat) : W64 := join32 (p.rd k) (p.rd (k + 1))

/-- Set a 64-wbit pair. -/
def Pages.wr64 (k : Nat) (v : W64) (p : Pages) : Pages := (p.wr k (lo32 v)).wr (k + 1) (hi32 v)

/-- Set one wbit of a register. -/
def Pages.setb (k i : Nat) (b : Bool) (p : Pages) : Pages := p.put k i i b.toNat

/-- One wbit of a register. -/
def Pages.bit (p : Pages) (k i : Nat) : Bool := (p.rd k).getLsbD i

/-- Add n to a saturating 32-wbit counter (R93). -/
def Pages.sat (k n : Nat) (p : Pages) : Pages := p.upd k fun w => satAdd w n

/-- Add n to an event-counter pair: bits [62:0] count, and passing 2^63 - 1 wraps and sets the sticky OVF, bit 63
(R91). -/
def Pages.count (k n : Nat) (p : Pages) : Pages :=
  let v := (p.rd64 k).toNat
  let c := v % 2 ^ 63 + n
  p.wr64 k (BitVec.ofNat 64 (c % 2 ^ 63 + (if decide (2 ^ 63 ≤ c) || decide (2 ^ 63 ≤ v) then 2 ^ 63 else 0)))

/-- Draw a fresh index for a free value. -/
def Pages.draw (p : Pages) : Nat × Pages := (p.fresh, { p with fresh := p.fresh + 1 })

/-- Raise a register to at least v in a field (a "largest since" register). -/
def Pages.maxFld (k hi lo v : Nat) (p : Pages) : Pages := if p.get k hi lo < v then p.put k hi lo v else p

/-! ## Counting pages' own state -/

/-- A page is enabled: PG_CTRL.ENABLE (R81). -/
def Pages.enabled (p : Pages) (pg : Nat) : Bool := p.bit (Reg.PG_CTRL pg) 0

/-- A page is fenced: PG_CTRL.FENCE (R81). -/
def Pages.fenced (p : Pages) (pg : Nat) : Bool := p.bit (Reg.PG_CTRL pg) 1

/-- The page is under reset: PG_STAT.IN_RESET (R82). -/
def Pages.inReset (p : Pages) (pg : Nat) : Bool := p.bit (Reg.PG_STAT pg) 31

/-- The block of a page does its work: enabled, not fenced, not in a block reset (R81, R82). -/
def Pages.works (p : Pages) (pg : Nat) : Bool := p.enabled pg && !p.fenced pg && !p.inReset pg

/-- Number of detectors of a page: PG_CAP [5:0] (R80). -/
def detCount (pg : Nat) : Nat := pageCap (pageKind pg) % 64

/-- PG_INT_STAT.ERR: some PG_ERR_STAT wbit is set and not masked (R84). -/
def Pages.errFlag (p : Pages) (pg : Nat) : Bool :=
  decide ((p.rd (Reg.PG_ERR_STAT pg) &&& ~~~(p.rd (Reg.PG_ERR_MASK pg))) ≠ 0)

/-- PG_INT_STAT as it reads: ERR in [31], the block's events below (R84). -/
def Pages.intStat (p : Pages) (pg : Nat) : W32 := setBit (p.rd (Reg.PG_INT_STAT pg)) 31 (p.errFlag pg)

/-- The page holds its interrupt raised: PG_INT_STAT AND PG_INT_EN is non-zero (R84). -/
def Pages.intRaised (p : Pages) (pg : Nat) : Bool := decide ((p.intStat pg &&& p.rd (Reg.PG_INT_EN pg)) ≠ 0)

/-! ## The route to a node, and management messages (R388, R389) -/

/-- The coordinate of a node ID on axis a (R21). -/
def coordOf (dst a : Nat) : Nat := dst / 16 ^ a % 16

/-- A link carries flits: state ACTIVE, 6 (R358). -/
def Pages.linkActive (p : Pages) (port : Nat) : Bool := p.get (Reg.LINK_STAT port) 31 28 = 6

/-- A port whose link is ACTIVE or in WIDTH_CHANGE accepts packets for output (R378), under QUARANTINE too (R360). -/
def Pages.portUp (p : Pages) (port : Nat) : Bool :=
  let st := p.get (Reg.LINK_STAT port) 31 28
  st = 6 || st = 7

/-- The device is in the Dareder role: CAP_ROLE [0], which copies the strap (R7, R22). -/
def Pages.isDareder (p : Pages) : Bool := p.bit Reg.DEV_STRAP 0

/-- The result of a route lookup. -/
inductive Route where
  | toPort (port : Nat)
  | here
  | noRoute
  deriving DecidableEq, Repr

/-- One normal entry of R389's lookup: (V, port code). -/
def Pages.normEntry (p : Pages) (bank cls axis c : Nat) : Bool × Nat :=
  let e := fld (p.rd (Reg.RTAB_NORM bank (16 * cls + 4 * axis + c / 4))) (8 * (c % 4) + 7) (8 * (c % 4))
  (e / 128 = 1, e % 16)

/-- The parity check of the entry at an offset, as the lookup reads it. -/
abbrev TabCheck := Nat → Pages → Bool × Pages

/-- The dimension-order part of R389: the first axis whose coordinate is not reached gives the port. An entry that fails parity acts as invalid. -/
def Pages.normRoute (par : TabCheck) (bank cls dst : Nat) : List Nat → Pages → Option (Option Nat) × Pages
  | [], p => (some none, p)
  | ax :: rest, p =>
    let f := par (0x100 + 0x40 * cls + 0x10 * ax + coordOf dst ax) p
    let e := p.normEntry bank cls ax (coordOf dst ax)
    if f.1 || !e.1 then (none, f.2) else if e.2 = 0xE then normRoute par bank cls dst rest f.2 else (some (some e.2), f.2)

/-- A detour j of a bank matches (R389). -/
def Pages.detourHit (p : Pages) (bank cls dst out j : Nat) : Bool :=
  let m := p.rd (Reg.DT_MATCH bank j)
  let c := p.rd (Reg.DT_COND bank j)
  let mask := fld m 31 16
  wbit c 31 && decide (Nat.land dst mask = Nat.land (fld m 15 0) mask) && wbit c cls &&
    (decide (fld c 11 8 = out) || decide (fld c 11 8 = 0xF))

/-- The detours outrank the normal entry, lowest j first; 16 stands for "out is local" in OPORT's comparison. One that fails parity acts as absent. -/
def Pages.detour (par : TabCheck) (bank cls dst out : Nat) : List Nat → Pages → Option Nat × Pages
  | [], p => (none, p)
  | j :: rest, p =>
    let f := par (0x300 + 16 * j) p
    if !f.1 && p.detourHit bank cls dst out j then (some (p.get (Reg.DT_ACT bank j) 3 0), f.2) else detour par bank cls dst out rest f.2

/-- The lookup of R389 for a worker's own tables, and whether the hop is a detour. -/
def Pages.lookup (par : TabCheck) (bank cls dst : Nat) (p : Pages) : (Route × Bool) × Pages :=
  let n := p.normRoute par bank cls dst [0, 1, 2, 3]
  match n.1 with
  | none => ((.noRoute, false), n.2)
  | some out =>
    if out = none ∧ dst ≠ p.get Reg.CAP_NODE 15 0 then ((.noRoute, false), n.2)
    else
      let d := n.2.detour par bank cls dst (out.getD 16) (List.range 16)
      match d.1 with
      | some np => ((.toPort np, true), d.2)
      | none => ((match out with | some port => .toPort port | none => .here, false), d.2)

/-- The VC class of R389 for a VC: 0 request, 1 response, 2 collective, 3 message, 4 management. -/
def vcClass (vc : Nat) : Nat := if vc < 2 then 0 else if vc < 4 then 1 else if vc < 6 then 2 else if vc = 6 then 3 else 4

/-- The route of a packet for DST, with the Dareder addresses of R388, and whether the hop is a detour; role is the address this device answers to
when it is a Dareder. -/
def Pages.routeOf (par : TabCheck) (bank vc dst role : Nat) (p : Pages) : (Route × Bool) × Pages :=
  if p.isDareder then
    (if dst = role then ((.here, false), p)
     else if dst = 0xFFFF ∨ dst = 0xFFFE then ((if p.linkActive 9 then .toPort 9 else .noRoute, false), p)
     else p.lookup par bank (vcClass vc) dst)
  else if dst = 0xFFFF ∨ dst = 0xFFFE then
    let port := if dst = 0xFFFF then p.get Reg.RTR_DAR_PORT 3 0 else p.get Reg.RTR_DAR_PORT 7 4
    let node := if dst = 0xFFFF then p.get Reg.RTR_DAR_NODE 15 0 else p.get Reg.RTR_DAR_NODE 31 16
    if port ≤ 9 then ((.toPort port, false), p)
    else if node = p.get Reg.CAP_NODE 15 0 then ((.noRoute, false), p)
    else
      let r := p.lookup par bank (vcClass vc) node
      if r.1.1 = .here then ((.noRoute, false), r.2) else r
  else p.lookup par bank (vcClass vc) dst

/-- Send a management message toward a Dareder; without a route it is dropped under R378 and counted there (R527). -/
def Pages.mgSend (m : MgMsg) (p : Pages) : Pages :=
  match (p.routeOf (fun _ q => (false, q)) (p.get Reg.RTR_BANK 0 0) 7 m.dest 0x10000).1.1 with
  | .noRoute => p.sat Reg.RTR_DROP_NOROUTE 1
  | .toPort port => if p.portUp port then { p with mgOut := p.mgOut ++ [m] } else p.sat Reg.RTR_DROP_LINKDOWN 1
  | .here => { p with mgOut := p.mgOut ++ [m] }

/-- Send an MSI-X message. -/
def Pages.msix (func vec : Nat) (p : Pages) : Pages := { p with msi := ⟨func, vec⟩ :: p.msi }

/-! ## Detectors (R84, R85, R524 to R528) -/

/-- The severity class of a detector (R521, R522; the BAY page's by R558's chapter). -/
def detClass (pg det : Nat) : Nat :=
  match pageKind pg with
  | .dev => 4
  | .beat => if det = 3 || det = 4 || det = 5 then 4 else if det = 6 then 5 else 1
  | .jrnl => 1
  | .mxa | .tvu => 5
  | .gig => if det = 2 then 0 else 5
  | .scr => if det = 0 then 0 else 5
  | .ntc => if det = 0 then 0 else if det = 3 then 1 else if det = 4 then 6 else 2
  | .ftc => if det = 0 then 0 else if det = 3 || det = 4 then 1 else 2
  | .memxl => if det = 0 then 0 else if det = 2 then 1 else 2
  | .wcb => 2
  | .suu => 5
  | .ope => if det = 3 then 1 else 3
  | .link => if det = 0 || det = 1 then 0 else 3
  | .rtr => if det = 3 then 1 else 2
  | .rtab => 2
  | .stg => 2
  | .bcu => if det = 1 then 1 else 2
  | .hif => if det = 3 then 2 else 1
  | .cmp => if det = 0 then 0 else 6
  | .sec => if det = 0 then 0 else 1
  | .fuse | .pwr | .therm | .ras | .tele => 1
  | .clk => if det = 1 then 1 else 6
  | .rst => 6
  | .hang => if det = 1 then 1 else if det = 2 then 3 else if det = 0 then 5 else 6
  | .bay => if det = 1 || det = 2 then 5 else 1
  | .sriov | .ctx | .qdb | .qcfg | .ctxWindow | .hole => 1

/-- A context named by a detector: number and generation; none sets NOCTX. -/
abbrev CtxId := Option (Nat × Nat)

/-- The bits a detector event always leaves: its PG_ERR_STAT bit, the count, and the first capture (R84, R85). -/
def Pages.mark (pg det addr : Nat) (cx : CtxId) (p : Pages) : Pages :=
  let p1 := (p.setb (Reg.PG_ERR_STAT pg) det true).sat (Reg.PG_ERR_CNT pg) 1
  if p.bit (Reg.PG_ERR_CTX pg) 31 then p1
  else ((p1.wr (Reg.PG_ERR_ADDR_LO pg) (BitVec.ofNat 32 addr)).wr (Reg.PG_ERR_ADDR_HI pg) (BitVec.ofNat 32 (addr / 2 ^ 32))).wr
    (Reg.PG_ERR_CTX pg)
    (BitVec.ofNat 32 (2 ^ 31 + det * 256 + match cx with | none => 2 ^ 30 | some c => c.2 % 16 * 65536 + c.1 % 256))

/-- The four words of a RAS record (R525). -/
def rasRecord (pg det cls addr beat : Nat) (cx : CtxId) : List W32 :=
  [ BitVec.ofNat 32 (pg % 4096 * 2 ^ 20 + det * 2 ^ 15 + cls * 2 ^ 12 +
      match cx with | none => 2 ^ 11 | some c => c.1 % 256),
    BitVec.ofNat 32 addr,
    BitVec.ofNat 32 (addr / 2 ^ 32 % 65536 + match cx with | none => 0 | some c => c.2 % 16 * 65536),
    BitVec.ofNat 32 beat ]

/-- Write consecutive registers. -/
def Pages.wrList (k : Nat) : List W32 → Pages → Pages
  | [], p => p
  | v :: vs, p => Pages.wrList (k + 1) vs (p.wr k v)

/-- The bytes of register words, little-endian. -/
def wordsBytes (ws : List W32) : List Byte := ws.flatMap fun w => bytesLE 4 w.toNat

/-- Route a record of a class to the host, the Dareder and the Chaise (R527). -/
def Pages.rasRoute (cls : Nat) (rec : List W32) (p : Pages) : Pages :=
  let r := p.rd (Reg.RAS_ROUTE cls)
  let p1 := if wbit r 31 then p.msix 0 (fld r 5 0) else p
  let p2 := if wbit r 30 then p1.mgSend ⟨0xFFFF, 0x01, 0, 0, 0, wordsBytes rec⟩ else p1
  if wbit r 29 then { p2 with chaiseIrq := p2.chaiseIrq + 1 } else p2

/-! ## Injection (R86, R529, R530) -/

/-- An armed detector fires at this opportunity: armed, its page enabled and not fenced, and TARGET 0xFFFF or equal to
the instance. -/
def Pages.armed (p : Pages) (pg det target : Nat) : Bool :=
  p.bit (Reg.PG_ERR_INJ pg) det && p.enabled pg && !p.fenced pg && !p.inReset pg &&
    (decide (p.get (Reg.PG_ERR_INJ_MODE pg) 15 0 = 0xFFFF) ||
     decide (p.get (Reg.PG_ERR_INJ_MODE pg) 15 0 = target % 65536))

/-- Take one injection opportunity: in mode ONCE the arming wbit clears when it fires (R86). -/
def Pages.fire (pg det target : Nat) (p : Pages) : Bool × Pages :=
  if p.armed pg det target then
    (true, if p.get (Reg.PG_ERR_INJ_MODE pg) 31 30 = 0 then p.setb (Reg.PG_ERR_INJ pg) det false else p)
  else (false, p)

/-- Evaluate a condition, real or injected, whose event raises the detector itself. -/
def Pages.holds (pg det addr : Nat) (real : Bool) (p : Pages) : Bool × Pages :=
  let f := p.fire pg det addr
  (real || f.1, f.2)

/-! ## The RAS log, raising a detector, and evaluating its condition (R84, R85, R526, R527, R529) -/

/-- Write a RAS record into its ring of 64, which holds 63, or drop it with LOG_DROP; then route it (R526, R527). -/
def Pages.rasWrite (cls : Nat) (rec : List W32) (p : Pages) : Pages :=
  if !p.works Pg.ras then p else
  let h := p.get Reg.RAS_LOG_HEAD 5 0
  let full := p.holds Pg.ras 0 0 (decide ((h + 1) % 64 = p.get Reg.RAS_LOG_TAIL 5 0))
  let p1 := if full.1 then
      ((full.2.sat Reg.RAS_LOG_DROP 1).mark Pg.ras 0 0 none)
    else (full.2.wrList (Reg.RAS_LOG (4 * h)) rec).put Reg.RAS_LOG_HEAD 5 0 ((h + 1) % 64)
  (((p1.setb Reg.RAS_SEEN cls true).count Reg.RAS_REC_LO 1)).rasRoute cls rec

/-- A detector event: the page's marks, and a RAS record when its PG_ERR_STAT wbit goes from 0 to 1 unmasked (R84, R85,
R524). -/
def Pages.raise (pg det addr : Nat) (cx : CtxId) (p : Pages) : Pages :=
  let was := p.bit (Reg.PG_ERR_STAT pg) det
  let masked := p.bit (Reg.PG_ERR_MASK pg) det
  let p1 := p.mark pg det addr cx
  if was || masked then p1
  else p1.rasWrite (detClass pg det) (rasRecord pg det (detClass pg det) addr p.beatNum.toNat cx)

/-- Evaluate a detector's condition, real or injected, and raise the detector when it holds (R529: an injected event acts
in every respect as a real one). Answers whether it held. -/
def Pages.detect (pg det addr : Nat) (cx : CtxId) (real : Bool) (p : Pages) : Bool × Pages :=
  let f := p.fire pg det addr
  if real || f.1 then (true, f.2.raise pg det addr cx) else (false, f.2)

/-! ## Telemetry (R540) and the capability table (R22, R23) -/

/-- The words of a telemetry event (R540). -/
def teleEvent (kind sub data beat value : Nat) : List W32 :=
  [ BitVec.ofNat 32 (kind * 2 ^ 24 + sub % 256 * 2 ^ 16 + data % 65536), BitVec.ofNat 32 beat,
    BitVec.ofNat 32 (beat / 2 ^ 32 % 65536), BitVec.ofNat 32 value ]

/-- Write a telemetry event of an enabled kind to its ring, or drop it with EVT_DROP; forward it to the Dareder when
TELE_FWD says so (R540). beat is the event's beat. -/
def Pages.teleAt (kind sub data beat value : Nat) (p : Pages) : Pages :=
  if p.works Pg.tele && p.bit Reg.TELE_CTRL 31 && p.bit Reg.TELE_CTRL kind then
    let ev := teleEvent kind sub data beat value
    let h := p.get Reg.TELE_HEAD 6 0
    let full := p.holds Pg.tele 0 0 (decide ((h + 1) % 128 = p.get Reg.TELE_TAIL 6 0))
    let p1 := if full.1 then (full.2.sat Reg.TELE_DROP 1).raise Pg.tele 0 0 none
      else (full.2.wrList (Reg.TELE_EVT (4 * h)) ev).put Reg.TELE_HEAD 6 0 ((h + 1) % 128)
    if p.bit Reg.TELE_FWD kind then p1.mgSend ⟨0xFFFF, 0x02, 0, 0, 0, wordsBytes ev⟩ else p1
  else p

/-- A telemetry event stamped with the current beat. -/
def Pages.tele (kind sub data value : Nat) (p : Pages) : Pages := p.teleAt kind sub data p.beatNum.toNat value

/-- A change of a capability entry: the entry, one increment of CAP_GEN, and the CAP_CHANGE event (R23, R540). -/
def Pages.capBump (p : Pages) : Pages :=
  let p1 := p.upd Reg.CAP_GEN (· + 1)
  p1.tele 8 0 (p1.get Reg.CAP_GEN 15 0) 0

/-- Change capability entries, with one CAP_GEN increment when something changed. -/
def Pages.capSet (f : Pages → Pages) (keys : List Nat) (p : Pages) : Pages :=
  let p1 := f p
  if keys.all fun k => p1.rd k = p.rd k then p1 else p1.capBump

/-! ## Access errors (R90) -/

/-- PATH and FUNC of R90. -/
def Path.code : Path → Nat × Nat
  | .host 0 => (0, 0)
  | .host f => (1, f)
  | .chaise => (2, 0)
  | .mgmt => (3, 0)

/-- The snapshot path of R91: host link, Chaise, management VC. -/
def Path.snap : Path → Nat
  | .host _ => 0
  | .chaise => 1
  | .mgmt => 2

/-- The access came over the host link. -/
def Path.isHost : Path → Bool
  | .host _ => true
  | _ => false

/-- The flags of PG_ACC_ERR (R90). -/
inductive AccErr where
  | narrow | ro | rsvd | locked | state | hole | hostDenied
  deriving DecidableEq, Repr

/-- A flag's wbit number (R90). -/
def AccErr.bitNo : AccErr → Nat
  | .narrow => 0 | .ro => 1 | .rsvd => 2 | .locked => 3 | .state => 4 | .hole => 5 | .hostDenied => 6

/-- Flag an access error in a page: the first flagged access captures OFFSET, FUNC and PATH; a later one sets OVF
(R90). -/
def Pages.flag (pg off : Nat) (path : Path) (e : AccErr) (p : Pages) : Pages :=
  p.upd (Reg.PG_ACC_ERR pg) fun w =>
    if fld w 6 0 = 0 then
      BitVec.ofNat 32 (w.toNat / 2 ^ 31 * 2 ^ 31 + path.code.1 * 2 ^ 28 + off % 4096 * 2 ^ 16 + path.code.2 % 256 * 256 + 2 ^ e.bitNo)
    else setBit (setBit w 31 true) e.bitNo true

/-! ## Common field readings -/

/-- The beat length in ns: 2 to BEAT_LEN (R65). -/
def Pages.beatLen (p : Pages) : Nat := 2 ^ p.get Reg.BEAT_LEN 4 0

/-- STATE of a context: 0 FREE, 1 BOUND, 2 TEARING (R470). -/
def Pages.ctxSt (p : Pages) (c : Nat) : Nat := p.get (Reg.CTX_STATE c) 31 29
/-- Generation of a context (R444, R470). -/
def Pages.ctxGen (p : Pages) (c : Nat) : Nat := p.get (Reg.CTX_STATE c) 27 24
/-- Partition of a context (R470). -/
def Pages.ctxPart (p : Pages) (c : Nat) : Nat := p.get (Reg.CTX_STATE c) 19 16
/-- Function of a context (R470). -/
def Pages.ctxFunc (p : Pages) (c : Nat) : Nat := p.get (Reg.CTX_STATE c) 15 8
/-- A context with its generation, as a detector names it. -/
def Pages.ctxId (p : Pages) (c : Nat) : CtxId := some (c, p.ctxGen c)

/-- The partition that owns Bay b: HIF_BAY_PART (R443, R467). -/
def Pages.bayPart (p : Pages) (b : Nat) : Nat :=
  if b < 8 then p.get Reg.HIF_BAY_PART0 (4 * b + 3) (4 * b) else p.get Reg.HIF_BAY_PART1 (4 * (b - 8) + 3) (4 * (b - 8))

/-- The Bays of a partition, in order. -/
def Pages.partBays (p : Pages) (part : Nat) : List Nat := (List.range 12).filter fun b => p.bayPart b = part

/-- The logical cores of a partition, in order: the partition index of a core is its place in this list. -/
def Pages.partCores (p : Pages) (part : Nat) : List Nat := (p.partBays part).flatMap fun b => rangeFrom (8 * b) 8

/-- The physical core of logical core L, through its Bay's map BAY_L2P (R14, R15, R558). -/
def Pages.physOf (p : Pages) (l : Nat) : Nat :=
  9 * (l / 8) + p.get (Reg.BAY_L2P (l / 8)) (4 * (l % 8) + 3) (4 * (l % 8))

/-- The logical core that physical core n holds, if any. -/
def Pages.logOf (p : Pages) (n : Nat) : Option Nat :=
  (rangeFrom (n / 9 * 8) 8).find? fun l => p.physOf l = n

/-- Number of core cycles in n ns at the part's core clock (R4, CAP_CLK in MHz). -/
def Pages.cycles (p : Pages) (ns : Nat) : Nat := ns * p.get Reg.CAP_CLK 15 0 / 1000

/-- A capability entry as context c's CTX copy reads it (R25): the partition's Bay count, the context's scratch window,
one partition, nothing lent. -/
def Pages.ctxCap (p : Pages) (c off : Nat) : W32 :=
  let k := regKey 0 off
  if k = Reg.CAP_BAYS then setFld (p.rd k) 3 0 ((p.partBays (p.ctxPart c)).filter fun b => !p.bit (Reg.BAY_STAT b) 31).length
  else if k = Reg.CAP_SCR then
    let lo := p.get (Reg.CTX_SCR c) 7 0
    let hi := p.get (Reg.CTX_SCR c) 15 8
    BitVec.ofNat 32 (lo * 65536 + (hi - lo) * 64)
  else if k = Reg.CAP_PART then 1
  else if k = Reg.CAP_FT_LENT_LO ∨ k = Reg.CAP_FT_LENT_HI then 0
  else p.rd k

end Sys2Proof.Machine
end

