-- ==== Sys2Proof/Machine/Memory.lean ====
section
/-! DEFINITION. The near and far tier, their error path, the write-combining buffers, and address translation
(R94 to R98, R283 to R317, R523, R591). -/

namespace Sys2Proof.Machine

/-! ## Register space through Dev -/

/-- Apply an update of register space. -/
def Dev.onPg (f : Pages → Pages) (d : Dev) : Dev := { d with pg := f d.pg }

/-- Apply an update of memory. -/
def Dev.onMem (f : Mem → Mem) (d : Dev) : Dev := { d with mem := f d.mem }

/-- Evaluate a detector's condition through Dev. -/
def Dev.detect (pg det addr : Nat) (cx : CtxId) (real : Bool) (d : Dev) : Bool × Dev :=
  let r := d.pg.detect pg det addr cx real
  (r.1, { d with pg := r.2 })

/-! ## The device address map (R94, R95) -/

/-- The regions of R94. -/
inductive Region where
  | near | far | scratch | regs | host | hole
  deriving DecidableEq, Repr

/-- The base of the far tier. -/
def ftBase : Nat := 0x004000000000
/-- The base of the scratch windows. -/
def scrBase : Nat := 0x080000000000
/-- The base of register space. -/
def regBase : Nat := 0x0F0000000000
/-- The base of the host window. -/
def hostBase : Nat := 0x100000000000

/-- The region of a device address, under the usable limits of CAP_NT_TOP and CAP_FT_USE (R94, R95). -/
def Pages.region (p : Pages) (a : Nat) : Region :=
  if a < (p.rd64 Reg.CAP_NT_TOP_LO).toNat ∧ a < 0x003000000000 then .near
  else if ftBase ≤ a ∧ a < ftBase + (p.rd64 Reg.CAP_FT_USE_LO).toNat ∧ a < 0x014000000000 then .far
  else if scrBase ≤ a ∧ a < scrBase + 0x60000000 then
    (if (a - scrBase) % 0x1000000 < 0x800000 then .scratch else .hole)
  else if regBase ≤ a ∧ a < regBase + 0x4000000 then .regs
  else if hostBase ≤ a ∧ a < 0x200000000000 then .host
  else .hole

/-- The region that holds a whole byte range, hole when the range touches a hole or crosses regions (R98). A range of no
bytes lies where its first address lies. -/
def Pages.rangeRegion (p : Pages) (a n : Nat) : Region :=
  let r := p.region a
  if n ≤ 1 then r
  else if p.region (a + n - 1) ≠ r then .hole
  else if r = .scratch ∧ (a - scrBase) / 0x1000000 ≠ (a + n - 1 - scrBase) / 0x1000000 then .hole
  else r

/-! ## Placement (R284, R300) -/

/-- The physical channel of a near-tier address (R284). -/
def Pages.channelOf (p : Pages) (a : Nat) : Nat :=
  let slot := a / 256 % p.get Reg.CAP_NT_CHAN 8 0
  p.get (Reg.XL_CHMAP (slot / 4)) (8 * (slot % 4) + 7) (8 * (slot % 4))

/-- The byte offset within its channel of a near-tier address (R284). -/
def Pages.channelOfs (p : Pages) (a : Nat) : Nat := a / 256 / p.get Reg.CAP_NT_CHAN 8 0 * 256 + a % 256

/-- The physical controller of a far-tier address (R300). -/
def Pages.ctlOf (p : Pages) (a : Nat) : Nat :=
  (if p.bit Reg.XL_FT_POP 8 then 4 else 0) + (a - ftBase) / 64 / 15 % p.get Reg.XL_FT_POP 3 0

/-- The check-line group of a far-tier address within its controller (R300). -/
def Pages.chkGroup (p : Pages) (a : Nat) : Nat := (a - ftBase) / 64 / 15 / p.get Reg.XL_FT_POP 3 0

/-- The unit a tier address belongs to, as the error log names it: TIER, page of the stack or controller, UNIT (R315). -/
def Pages.unitOf (p : Pages) (a : Nat) : Nat × Nat × Nat :=
  if a < ftBase then (0, Pg.ntc (p.channelOf a / 32), p.channelOf a) else (1, Pg.ftc (p.ctlOf a), p.ctlOf a)

/-! ## The memory error log (R292, R315) -/

/-- Who reads or writes memory (READER of R315); remote is the Bay DMA that serves an XGET of another node (R272, R306). -/
inductive Reader where
  | scrubber | dma | suu | stage | host | chaise | wcb | init | remote
  deriving DecidableEq, Repr

/-- READER's code (R315). -/
def Reader.code : Reader → Nat
  | .scrubber => 0 | .dma => 1 | .suu => 2 | .stage => 3 | .host => 4 | .chaise => 5 | .wcb => 6 | .init => 7 | .remote => 3

/-- The reader sees the bytes of open WCB entries (R296). -/
def Reader.seesWcb : Reader → Bool
  | .dma | .chaise | .remote => true
  | _ => false

/-- Append an entry to the memory error log, or drop it with LOG_DROP (R292, R315). -/
def Pages.xlLog (kind tier reader unit addr : Nat) (cx : CtxId) (p : Pages) : Pages :=
  let h := p.get Reg.XL_LOG_HEAD 5 0
  let full := p.holds Pg.memxl 2 0 (decide ((h + 1) % 64 = p.get Reg.XL_LOG_TAIL 5 0))
  if full.1 then (full.2.sat Reg.XL_LOG_DROP 1).raise Pg.memxl 2 0 none
  else
    let p := full.2
    let w0 := kind * 2 ^ 28 + tier * 2 ^ 27 + reader * 2 ^ 24 + unit % 256 +
      match cx with | none => 2 ^ 15 | some c => c.1 % 256 * 2 ^ 16 + c.2 % 16 * 2 ^ 11
    (p.wrList (Reg.XL_LOG (4 * h))
      [BitVec.ofNat 32 w0, BitVec.ofNat 32 addr, BitVec.ofNat 32 (addr / 2 ^ 32 % 65536), BitVec.ofNat 32 p.beatNum.toNat]).put
      Reg.XL_LOG_HEAD 5 0 ((h + 1) % 64)

/-! ## Lines -/

/-- What an unlisted byte of the tiers or of host memory reads as. DESIGN CHOICE (log entry 3): zero. -/
def memDefault : Nat → Byte := fun _ => 0

/-- The memory is in its canonical form: addresses rising, and no byte listed that an unlisted address reads as. -/
def Mem.wf (m : Mem) : Bool := Tbl.canonical memDefault m.bytes && Tbl.canonical memDefault m.host

/-- The stored byte at an address, without the WCB. -/
def Mem.byte (m : Mem) (a : Nat) : Byte := tget memDefault m.bytes a

/-- Store a byte. -/
def Mem.setByte (a : Nat) (b : Byte) (m : Mem) : Mem := { m with bytes := tset memDefault m.bytes a b }

/-- Store consecutive bytes from an address. -/
def Mem.setBytes (a : Nat) (bs : List Byte) (m : Mem) : Mem := { m with bytes := tsetList memDefault m.bytes a bs }

/-- A line is poisoned. -/
def Mem.poisoned (m : Mem) (line : Nat) : Bool := tget (fun _ => false) m.poison line

/-- Mark or clear a line's poison. -/
def Mem.setPoison (line : Nat) (b : Bool) (m : Mem) : Mem :=
  { m with poison := tset (fun _ => false) m.poison line b }

/-- The open WCB entry of a line. -/
def Mem.wcbOf (m : Mem) (line : Nat) : Option WcbEntry := m.wcb.find? fun e => e.line = line

/-- A byte as a reader sees it (R296). -/
def Mem.byteFor (m : Mem) (r : Reader) (a : Nat) : Byte :=
  if r.seesWcb then
    match m.wcbOf (a / 64) with
    | some e => tget (fun _ => m.byte a) e.bytes a
    | none => m.byte a
  else m.byte a

/-- Count one corrected error of a unit and raise STORM when THRESH fall within WINDOW seconds, once per window, with the line and the
reading context (R291, R311). -/
def Dev.storm (unit page tier line : Nat) (cx : CtxId) (d : Dev) : Dev :=
  let key := if tier = 0 then unit else 256 + unit
  let ctl := if tier = 0 then d.pg.rd (Reg.NT_STORM_CTRL (unit / 32)) else d.pg.rd (Reg.FT_STORM_CTRL unit)
  let win := fld ctl 23 16 * 10 ^ 9
  let w := tget (fun _ => ⟨0, 0, false⟩) d.mem.storm key
  let now := d.pg.fbc.toNat
  let w1 : StormWin := if now < w.start + win then { w with count := w.count + 1 } else ⟨now, 1, false⟩
  let hit := decide (fld ctl 15 0 ≤ w1.count) && !w1.raised
  let r := d.detect page 3 (64 * line) cx hit
  let d1 := if r.1 then r.2.onPg (Pages.xlLog 3 tier 0 unit 0 none) else r.2
  d1.onMem fun m => { m with storm := tset (fun _ => ⟨0, 0, false⟩) m.storm key (if hit then { w1 with raised := true } else w1) }

/-- A correctable error of a line is found: corrected data, write-back, CE raised and counted, storm checked (R287,
R591). -/
def Dev.foundCe (line : Nat) (cx : CtxId) (d : Dev) : Dev :=
  let u := d.pg.unitOf (64 * line)
  let d1 := d.onPg fun p => p.raise u.2.1 0 (64 * line) cx
  let d2 := d1.onPg fun p =>
    if u.1 = 0 then (p.sat (Reg.NT_CE_CNT (u.2.2 / 32)) 1).sat (Reg.NT_CE_CH (u.2.2 / 32) (u.2.2 % 32)) 1
    else p.sat (Reg.FT_CE_CNT u.2.2) 1
  (d2.onMem fun m => { m with flips := tset (fun _ => 0) m.flips line 0 }).storm u.2.2 u.2.1 u.1 line cx

/-- An uncorrectable error of a line is found: the poison pattern is written, UE is raised, counted and logged (R288). -/
def Dev.foundUe (r : Reader) (line : Nat) (cx : CtxId) (d : Dev) : Dev :=
  let u := d.pg.unitOf (64 * line)
  ((d.onMem fun m => ({ m with flips := tset (fun _ => 0) m.flips line 0 }).setPoison line true).onPg fun p =>
    ((p.raise u.2.1 1 (64 * line) cx).sat (if u.1 = 0 then Reg.NT_UE_CNT (u.2.2 / 32) else Reg.FT_UE_CNT u.2.2) 1).xlLog
      1 u.1 r.code u.2.2 (64 * line) cx)

/-- A read of a poisoned line: POISON_RD, its count and its log entry (R289). -/
def Dev.poisonRd (r : Reader) (line : Nat) (cx : CtxId) (d : Dev) : Dev :=
  let u := d.pg.unitOf (64 * line)
  d.onPg fun p =>
    ((p.raise u.2.1 2 (64 * line) cx).sat (if u.1 = 0 then Reg.NT_POISON_RD_CNT (u.2.2 / 32) else Reg.FT_POISON_RD_CNT u.2.2) 1).xlLog
      2 u.1 r.code u.2.2 (64 * line) cx

/-- The far tier's check-line cache is consulted for a line: a miss counts, and the newest 256 groups of a controller
stay cached; a write updates the line's code there and makes the check line dirty, and one that is evicted is written back
(R301). -/
def Dev.chkAccess (write : Bool) (line : Nat) (d : Dev) : Dev :=
  if 64 * line < ftBase then d
  else
    let c := d.pg.ctlOf (64 * line)
    let g := d.pg.chkGroup (64 * line)
    let other (e : Nat × Nat × Bool) : Bool := !decide (e.1 = c && e.2.1 = g)
    match d.mem.chk.find? fun e => !other e with
    | some e => d.onMem fun m => { m with chk := (c, g, e.2.2 || write) :: m.chk.filter other }
    | none => (d.onPg (Pages.count (Reg.FT_CHKMISS_LO c) 1)).onMem fun m =>
      { m with chk := (c, g, write) :: (m.chk.filter (·.1 = c)).take 255 ++ m.chk.filter (·.1 ≠ c) }

/-- The stack of a near-tier line has failed its interface check: it reads as poison and drops writes (R523). The check
is an injection opportunity of NTC LINK. -/
def Dev.stackDead (cx : CtxId) (line : Nat) (d : Dev) : Bool × Dev :=
  if ftBase ≤ 64 * line then (false, d)
  else
    let s := d.pg.channelOf (64 * line) / 32
    if s ∈ d.mem.deadStacks then (true, d)
    else
      let r := d.detect (Pg.ntc s) 4 (64 * line) cx false
      if r.1 then (true, r.2.onMem fun m => { m with deadStacks := s :: m.deadStacks }) else (false, r.2)

/-- The stack's or controller's page lets no access through: it is disabled, fenced or in reset. The boot's own accesses come before ENABLE
is set (R81, R477). -/
def Dev.tierOff (r : Reader) (line : Nat) (d : Dev) : Bool := r ≠ .init && !d.pg.works (d.pg.unitOf (64 * line)).2.1

/-- Read a whole line for a reader: its bytes, or none when it reads as poison. A unit whose page lets nothing through delivers zeros, as a
dropped read does (R81, R543, log entry 63). The SUUs reach the stack's array beside the stack
interface (R319). -/
def Dev.readLine (r : Reader) (cx : CtxId) (line : Nat) (d : Dev) : Option (List Byte) × Dev :=
  if d.tierOff r line then (some (List.replicate 64 0), d) else
  let s := if r = .suu then (false, d) else d.stackDead cx line
  let d0 := s.2.chkAccess (tget (fun _ => 0) s.2.mem.flips line ≠ 0) line
  let d1 := d0.onPg fun p =>
    if 64 * line < ftBase then p.count (Reg.NT_RD_LO (p.channelOf (64 * line) / 32)) 64
    else p.count (Reg.FT_RD_LO (p.ctlOf (64 * line))) 64
  let fl := tget (fun _ => 0) d1.mem.flips line
  let d2 := if fl = 1 then d1.foundCe line cx else if fl = 2 then d1.foundUe r line cx else d1
  let u := d2.pg.unitOf (64 * line)
  let o := d2.pg.holds u.2.1 2 (64 * line) (s.1 || d2.mem.poisoned line)
  let d2 : Dev := { d2 with pg := o.2 }
  if o.1 then (none, d2.poisonRd r line cx)
  else (some ((rangeFrom (64 * line) 64).map (d2.mem.byteFor r)), d2)

/-- A memory-ECC injection opportunity: a whole-line write to the unit in TARGET leaves one or two symbols flipped
(R529). -/
def Dev.eccInject (line : Nat) (d : Dev) : Dev :=
  let u := d.pg.unitOf (64 * line)
  let f0 := d.pg.fire u.2.1 0 u.2.2
  let f1 := f0.2.fire u.2.1 1 u.2.2
  { d with pg := f1.2,
           mem := { d.mem with flips := tset (fun _ => 0) d.mem.flips line (if f1.1 then 2 else if f0.1 then 1 else 0) } }

/-- Open entries of a stack. -/
def Dev.wcbStack (d : Dev) (s : Nat) : List WcbEntry :=
  d.mem.wcb.filter fun e => decide (d.pg.channelOf (64 * e.line) / 32 = s)

/-- Refresh WCB_STAT and WCB_OCC after entries open or close (R317). -/
def Dev.wcbOcc (s : Nat) (d : Dev) : Dev :=
  let n := (d.wcbStack s).length
  d.onPg fun p => ((p.setb Reg.WCB_STAT s (decide (0 < n))).put (Reg.WCB_OCC s) 7 0 n).maxFld (Reg.WCB_OCC s) 23 16 n

/-- Drop the open entry of a line, if there is one (R294). -/
def Dev.wcbDrop (line : Nat) (d : Dev) : Dev :=
  if d.mem.wcb.any fun e => e.line = line then
    (d.onMem fun m => { m with wcb := m.wcb.filter fun e => e.line ≠ line }).wcbOcc (d.pg.channelOf (64 * line) / 32)
  else d

/-- Write a whole line to its tier for a writer: it clears poison and drops any open WCB entry (R288, R294). -/
def Dev.writeLine (r : Reader) (line : Nat) (bs : List Byte) (d : Dev) : Dev :=
  if d.tierOff r line then d else
  let s := if r = .suu then (false, d) else d.stackDead none line
  let d1 := (s.2.chkAccess true line).onPg fun p =>
    if 64 * line < ftBase then p.count (Reg.NT_WR_LO (p.channelOf (64 * line) / 32)) 64
    else p.count (Reg.FT_WR_LO (p.ctlOf (64 * line))) 64
  if s.1 then d1
  else ((d1.wcbDrop line).onMem fun m => (m.setPoison line false).setBytes (64 * line) bs).eccInject line

/-! ## The write-combining buffers (R294 to R297) -/

/-- Flush one entry: a full mask is written as a whole line, any other by a read-modify-write, which drops the bytes and
raises PARTIAL_POISON when the line is poisoned (R295, R297); a stack whose page lets nothing through takes nothing (R81). -/
def Dev.wcbFlush (e : WcbEntry) (d : Dev) : Dev :=
  let s := d.pg.channelOf (64 * e.line) / 32
  let d0 := d.onMem fun m => { m with wcb := m.wcb.filter fun x => x.line ≠ e.line }
  let par := d0.detect Pg.wcb 0 (64 * e.line) e.cx false
  let d1 := par.2
  let d2 :=
    if par.1 then d1.foundUe .wcb e.line e.cx
    else if d1.tierOff .wcb e.line then d1
    else if e.bytes.length = 64 then
      (d1.onPg (Pages.count Reg.WCB_WHOLE_LO 1)).writeLine .wcb e.line ((rangeFrom (64 * e.line) 64).map (tget memDefault e.bytes))
    else
      let r := d1.readLine .wcb e.cx e.line
      let o := r.2.pg.holds Pg.wcb 1 (64 * e.line) r.1.isNone
      let d3 := ({ r.2 with pg := o.2 } : Dev).onPg (Pages.count Reg.WCB_RMW_LO 1)
      match (if o.1 then none else r.1) with
      | none => (d3.onPg fun p => p.raise Pg.wcb 1 (64 * e.line) e.cx).onPg
          (Pages.xlLog 4 0 6 (d.pg.channelOf (64 * e.line)) (64 * e.line) e.cx)
      | some bs => d3.writeLine .wcb e.line
          ((List.range 64).map fun i => tget (fun _ => bs.getD i 0) e.bytes (64 * e.line + i))
  d2.wcbOcc s

/-- Flush every entry that satisfies a test, in order. -/
def Dev.wcbFlushAll (p : WcbEntry → Bool) (d : Dev) : Dev := (d.mem.wcb.filter p).foldl (fun d e => d.wcbFlush e) d

/-- Merge a partial near-tier write of one line into the WCB, opening an entry, and forcing out the stack's oldest entry
when none of its 128 is free (R294, R295). -/
def Dev.wcbMerge (cx : CtxId) (a : Nat) (bs : List Byte) (d : Dev) : Dev :=
  let line := a / 64
  let s := d.pg.channelOf (64 * line) / 32
  let old := d.mem.wcbOf line
  let d1 := match old with
    | some _ => d
    | none => match (d.wcbStack s) with
      | e :: rest => if 127 ≤ rest.length then (d.wcbFlush e).onPg (Pages.sat Reg.WCB_FULLEV_CNT 1) else d
      | [] => d
  let prev := (old.map (·.bytes)).getD []
  let prevC := (old.map (·.ctxs)).getD []
  -- an explicit mask: bytes are listed even where they are zero, so no default erases them
  let merged := bs.zipIdx.foldl (fun t b => tinsert (terase t (a + b.2)) (a + b.2) b.1) prev
  let e : WcbEntry := ⟨line, merged, cx, match cx with | some c => sadd prevC c.1 | none => prevC⟩
  ((d1.onMem fun m => { m with wcb := m.wcb.filter (fun x => x.line ≠ line) ++ [e] }).onPg
    (Pages.count Reg.WCB_MERGE_LO 1)).wcbOcc s

/-! ## Ranges of tier memory -/

/-- The pieces of a byte range, one per 64 B line: address, length. -/
def linePieces (a n : Nat) : List (Nat × Nat) :=
  (List.range ((a % 64 + n + 63) / 64)).map fun i =>
    let lo := max a ((a / 64 + i) * 64)
    (lo, min (a + n) ((a / 64 + i + 1) * 64) - lo)

/-- Read a byte range of the tiers: none when some line reads as poison (R289). -/
def Dev.tierRead (r : Reader) (cx : CtxId) (a n : Nat) (d : Dev) : Option (List Byte) × Dev :=
  (linePieces a n).foldl
    (fun acc pc =>
      let l := acc.2.readLine r cx (pc.1 / 64)
      (match acc.1, l.1 with
        | some bs, some lb => some (bs ++ slice (pc.1 % 64) pc.2 lb)
        | _, _ => none, l.2))
    (some [], d)

/-- Write one line's piece: whole lines go straight; a partial near-tier write merges in the WCB; a partial far-tier
write is a read-modify-write whose bytes are dropped on poison (R289, R294, R301). A WCB that does no work takes nothing (R81). -/
def Dev.writePiece (r : Reader) (cx : CtxId) (a : Nat) (bs : List Byte) (d : Dev) : Dev :=
  if bs.length = 64 then d.writeLine r (a / 64) bs
  else if bs.isEmpty || (decide (ftBase ≤ a) && d.tierOff r (a / 64)) then d
  else if a < ftBase then (if d.pg.works Pg.wcb then d.wcbMerge cx a bs else d)
  else
    let l := d.readLine r cx (a / 64)
    let d1 := l.2.onPg fun p => p.count (Reg.FT_RMW_LO (p.ctlOf a)) 1
    match l.1 with
    | none => d1
    | some lb => d1.writeLine r (a / 64) (lb.take (a % 64) ++ bs ++ lb.drop (a % 64 + bs.length))

/-- Write a byte range of the tiers. -/
def Dev.tierWrite (r : Reader) (cx : CtxId) (a : Nat) (bs : List Byte) (d : Dev) : Dev :=
  (linePieces a bs.length).foldl (fun d pc => d.writePiece r cx pc.1 (slice (pc.1 - a) pc.2 bs)) d

/-- Place in host memory of an untranslated address of a function: what the host maps it to is the host's own, so the addresses of each
function are kept apart (R97, log entry 23). -/
def busKey (fn a : Nat) : Nat := fn * 2 ^ 64 + a

/-- Read host memory at a bus address of a function. -/
def Mem.hostRead (m : Mem) (fn a n : Nat) : List Byte := tgetList memDefault m.host (busKey fn a) n

/-- Write host memory at a bus address of a function. -/
def Mem.hostWrite (fn a : Nat) (bs : List Byte) (m : Mem) : Mem := { m with host := tsetList memDefault m.host (busKey fn a) bs }

/-- The function bound to the context of an access; the PF's where no context is named (R97, R470). -/
def Pages.fnOf (p : Pages) (cx : CtxId) : Nat := match cx with | some c => p.ctxFunc c.1 | none => 0

/-- ATS answers an access of the host window, or fails it, which counts (R97, R467). -/
def Dev.ats (cx : CtxId) (a : Nat) (d : Dev) : Bool × Dev :=
  let f := d.pg.draw
  let ok := !Config.atsFails (d.pg.fnOf cx) (a - hostBase) f.1
  (ok, { d with pg := if ok then f.2 else f.2.sat Reg.HIF_ATS_FAIL_CNT 1 })

/-- Read a device range of near tier, far tier or host window, already checked to lie in one region. DESIGN CHOICE (log entry 23): a
read of the host window that fails ATS ends as a read of poison does. -/
def Dev.read (r : Reader) (cx : CtxId) (a n : Nat) (d : Dev) : Option (List Byte) × Dev :=
  if hostBase ≤ a then
    let t := d.ats cx a
    if t.1 then (some (t.2.mem.hostRead (d.pg.fnOf cx) (a - hostBase) n), t.2.onPg (Pages.count Reg.HIF_RXB_LO n)) else (none, t.2)
  else d.tierRead r cx a n

/-- Write a device range of near tier, far tier or host window. DESIGN CHOICE (log entry 23): a write to the host window that fails ATS is
dropped. -/
def Dev.write (r : Reader) (cx : CtxId) (a : Nat) (bs : List Byte) (d : Dev) : Dev :=
  if hostBase ≤ a then
    let t := d.ats cx a
    if t.1 then (t.2.onMem (Mem.hostWrite (d.pg.fnOf cx) (a - hostBase) bs)).onPg (Pages.count Reg.HIF_TXB_LO bs.length) else t.2
  else d.tierWrite r cx a bs

/-! ## Translation (R303 to R307) -/

/-- The fault reasons of R305. Two are no reasons of translation: decode, a range that crosses from one region into another (R98), and off, a
MEMXL page that does no work (R81). -/
inductive XlReason where
  | invalid | write | format | target | lent | poison | decode | off
  deriving DecidableEq, Repr

/-- A reason's code (R305). -/
def XlReason.code : XlReason → Nat
  | .invalid => 1 | .write => 2 | .format => 3 | .target => 4 | .lent => 5 | .poison => 6 | .decode => 0 | .off => 0

/-- A device range meets a lent far-tier range: a region in state PENDING, ACTIVE or RELEASING (R305, R464). -/
def Pages.lent (p : Pages) (a n : Nat) : Bool :=
  (List.range 8).any fun j =>
    let lo := ftBase + p.get (Reg.LEND_BASE j) 11 0 * 0x10000000
    let hi := lo + p.get (Reg.LEND_SIZE j) 11 0 * 0x10000000
    decide (p.get (Reg.LEND_STAT j) 2 0 ≠ 0) && decide (a < hi) && decide (lo < a + n)

/-- The checks on a leaf (R304, R305): its page size, then whether the range is a legal target. -/
def Pages.leafCheck (p : Pages) (pa size : Nat) : Option XlReason :=
  if pa % size ≠ 0 then some .format
  else match p.rangeRegion pa size with
    | .near | .far | .host => none
    | _ => some .target

/-- Bytes covered by one entry of level l (R303). -/
def levelSpan (l : Nat) : Nat := if l = 0 then 2 ^ 39 else if l = 1 then 2 ^ 30 else if l = 2 then 2 ^ 21 else 2 ^ 16

/-- One step of the walk at a level (R303 to R305): read the entry of table t; answer the leaf (address, size, W), or the
next table, or the failure. -/
def Dev.walkStep (r : Reader) (cx : CtxId) (l t va : Nat) (d : Dev) : Except XlReason (Sum (Nat × Nat × Bool) Nat) × Dev :=
  let idx := if l = 3 then va / 2 ^ 16 % 32 else va / levelSpan l % 512
  let ea := t + 8 * idx
  let tblBytes := if l = 3 then 256 else 4096
  if t % tblBytes ≠ 0 ∨ d.pg.rangeRegion t tblBytes ≠ .near then (.error .format, d)
  else
    -- the log names the request that caused the walk, while the walker sees open WCB entries whoever caused it (R296, R315)
    let rd0 := d.tierRead r cx ea 8
    let o := rd0.2.pg.holds Pg.memxl 1 (ea / 64 * 64) rd0.1.isNone
    let rd : Option (List Byte) × Dev :=
      (if o.1 then none else rd0.1.map fun _ => (rangeFrom ea 8).map (rd0.2.mem.byteFor .dma), { rd0.2 with pg := o.2 })
    match rd.1 with
    | none => (.error .poison, rd.2.onPg fun p => p.raise Pg.memxl 1 (ea / 64 * 64) cx)
    | some bs =>
      let e := BitVec.ofNat 64 (ofBytesLE bs)
      let isLeaf := l = 3 || ((l = 1 || l = 2) && wbit e 1)
      let addr := fld e 47 8 * 256
      if !wbit e 0 then (.error .invalid, rd.2)
      else if fld e 63 48 ≠ 0 ∨ fld e 7 3 ≠ 0 ∨ (!isLeaf && wbit e 2) ∨ (l = 0 && wbit e 1) then (.error .format, rd.2)
      else if isLeaf then (.ok (.inl (addr, levelSpan l, wbit e 2)), rd.2)
      else (.ok (.inr addr), rd.2)

/-- The walk from a level's table; fuel is the number of levels left. -/
def Dev.walk (r : Reader) (bay ctx gen va : Nat) : Nat → Nat → Nat → Dev → Except XlReason (Nat × Nat × Bool) × Dev
  | 0, _, _, d => (.error .format, d)
  | fuel + 1, l, t, d =>
    match d.walkStep r (some (ctx, gen)) l t va with
    | (.error e, d1) => (.error e, d1)
    | (.ok (.inl leaf), d1) => (.ok leaf, d1)
    | (.ok (.inr t1), d1) =>
      let d2 := if bay < 12 then
          d1.onMem fun m =>
            let w : WalkEntry := ⟨bay, ctx, gen, l + 1, va / levelSpan l * levelSpan l, t1⟩
            { m with walks := w :: (m.walks.filter fun x => x.bay = bay && x ≠ w).take 63 ++ m.walks.filter (·.bay ≠ bay) }
        else d1
      d2.walk r bay ctx gen va fuel (l + 1) t1

/-- The TLB entry of a Bay for a CVA; one that fails its parity is dropped (R307, R316). -/
def Dev.tlbHit (bay ctx va : Nat) (d : Dev) : Option TlbEntry × Dev :=
  let gen := d.pg.ctxGen ctx
  let mine (e : TlbEntry) : Bool := e.bay = bay && e.ctx = ctx && e.gen = gen && e.va ≤ va && va < e.va + e.size
  match d.mem.tlb.find? mine with
  | none => (none, d)
  | some e =>
    let par := d.detect Pg.memxl 0 va (some (ctx, gen)) false
    if par.1 then (none, par.2.onMem fun m => { m with tlb := m.tlb.filter fun e => !mine e }) else (some e, par.2)

/-- The walker-cache entry of a Bay at a level for a CVA; one that fails its parity is dropped (R307, R316). -/
def Dev.walkHit (bay ctx va l : Nat) (d : Dev) : Option WalkEntry × Dev :=
  let gen := d.pg.ctxGen ctx
  let mine (w : WalkEntry) : Bool :=
    w.bay = bay && w.ctx = ctx && w.gen = gen && w.level = l && w.va = va / levelSpan (l - 1) * levelSpan (l - 1)
  match d.mem.walks.find? mine with
  | none => (none, d)
  | some w =>
    let par := d.detect Pg.memxl 0 va (some (ctx, gen)) false
    if par.1 then (none, par.2.onMem fun m => { m with walks := m.walks.filter fun w => !mine w }) else (some w, par.2)

/-- Where a walk starts: the deepest walker-cache entry of the levels named, else the root (R307). -/
def Dev.walkFrom (bay ctx va : Nat) : List Nat → Dev → (Nat × Nat) × Dev
  | [], d => ((0, fld (d.pg.rd64 (Reg.XL_ROOT ctx)) 47 12 * 4096), d)
  | l :: ls, d =>
    let x := d.walkHit bay ctx va l
    match x.1 with
    | some w => ((l, w.table), x.2)
    | none => Dev.walkFrom bay ctx va ls x.2

/-- A transfer touches a hole or crosses regions: DECODE, with its first address and context (R85, R98, R101). -/
def Dev.decode (addr : Nat) (cx : CtxId) (real : Bool) (d : Dev) : Bool × Dev := d.detect Pg.dev 0 addr cx real

/-- The page that holds a CVA: from the Bay's TLB, or by a walk that starts at the deepest walker-cache entry (R307).
bay 0xFF stands for a translation that no Bay makes, which holds no TLB. first is the first address of the transfer, where an earlier page
gave it. A leaf on a hole raises DECODE, one in register space REG_SPACE. DESIGN CHOICE (log entry 23): REG_SPACE captures the leaf's
device address, and DECODE of a transfer whose first page is the one that fails captures the address that the leaf gives its first byte. -/
def Dev.findPage (r : Reader) (bay ctx va : Nat) (first : Option Nat) (d : Dev) : Except XlReason (Nat × Nat × Nat × Bool) × Dev :=
  let gen := d.pg.ctxGen ctx
  let hit := d.tlbHit bay ctx va
  let d := hit.2
  match hit.1 with
  | some e => (.ok (e.va, e.size, e.pa, e.w), d)
  | none =>
    let root := d.pg.rd64 (Reg.XL_ROOT ctx)
    if !wbit root 0 then (.error .invalid, d)
    else
      let from_ := d.walkFrom bay ctx va [3, 2, 1]
      let start := from_.1
      let d := from_.2
      let wk := (d.onPg (Pages.count Reg.XL_TLB_MISS_LO (if bay < 12 then 1 else 0))).walk r bay ctx gen va 4 start.1 start.2
      match wk.1 with
      | .error e => (.error e, wk.2)
      | .ok (pa, size, w) =>
        let reg := wk.2.pg.holds Pg.dev 1 pa (decide (wk.2.pg.region pa = .regs))
        let wk : Unit × Dev := ((), { wk.2 with pg := reg.2 })
        match (if reg.1 then some ((wk.2.pg.leafCheck pa size).getD .target) else wk.2.pg.leafCheck pa size) with
        | some e =>
          let hole := decide (e = .target) && !reg.1 && decide (wk.2.pg.rangeRegion pa size = .hole)
          (.error e, if reg.1 then wk.2.onPg fun p => p.raise Pg.dev 1 pa (some (ctx, gen))
            else if hole then wk.2.onPg fun p => p.raise Pg.dev 0 (first.getD (pa + va % size)) (some (ctx, gen)) else wk.2)
        | none =>
          let va0 := va / size * size
          let d2 := if bay < 12 then wk.2.onMem fun m =>
              { m with tlb := ⟨bay, ctx, gen, va0, size, pa, w⟩ ::
                  (m.tlb.filter fun x => x.bay = bay).take 1023 ++ m.tlb.filter (·.bay ≠ bay) }
            else wk.2
          (.ok (va0, size, pa, w), d2)

/-- Record the first translation fault (XL_FAULT, R314). -/
def Pages.xlFault (bay ctx : Nat) (e : XlReason) (p : Pages) : Pages :=
  if p.bit Reg.XL_FAULT 31 then p
  else p.wr Reg.XL_FAULT (BitVec.ofNat 32 (2 ^ 31 + e.code * 2 ^ 16 + bay % 256 * 256 + ctx % 256))

/-- A translated segment: device address and length. -/
abbrev Seg := Nat × Nat

/-- Translate a range, page by page; fuel bounds the pages (one per 64 KiB and two ends). -/
def Dev.xlPages (r : Reader) (bay ctx : Nat) (wr : Bool) : Nat → Nat → Nat → List Seg → Dev →
    Except XlReason (List Seg) × Dev
  | 0, _, _, acc, d => (.ok acc.reverse, d)
  | fuel + 1, va, n, acc, d =>
    if n = 0 then (.ok acc.reverse, d)
    else match d.findPage r bay ctx va (acc.getLast?.map (·.1)) with
      | (.error e, d1) => (.error e, d1)
      | (.ok (va0, size, pa, w), d1) =>
        let k := min n (va0 + size - va)
        let a := pa + (va - va0)
        if wr && !w then (.error .write, d1)
        else if d1.pg.lent a k then (.error .lent, d1)
        else d1.xlPages r bay ctx wr fuel (va + k) (n - k) ((a, k) :: acc)

/-- Translate the CVA range of a transfer: its device segments, or the failure, which XL_FAULT records (R305, R306); segments in more than
one region are a decode fault (R98). A MEMXL that does no work translates nothing (R81, log entry 63). -/
def Dev.translate (r : Reader) (bay ctx va n : Nat) (wr : Bool) (d : Dev) : Except XlReason (List Seg) × Dev :=
  if !d.pg.works Pg.memxl then (.error .off, d)
  else if 2 ^ 48 < va + n then (.error .target, d.onPg (Pages.xlFault bay ctx .target))
  else
    match d.xlPages r bay ctx wr (n / 65536 + 2) va n [] with
    | (.error e, d1) => (.error e, d1.onPg (Pages.xlFault bay ctx e))
    | (.ok [], d1) => (.ok [], d1)
    | (.ok (s :: ss), d1) =>
      let o := d1.decode s.1 (some (ctx, d1.pg.ctxGen ctx)) (ss.any fun x => decide (d1.pg.region x.1 ≠ d1.pg.region s.1))
      (if o.1 then .error .decode else .ok (s :: ss), o.2)

/-- Read translated segments: none when a line reads as poison. -/
def Dev.readSegs (r : Reader) (cx : CtxId) (segs : List Seg) (d : Dev) : Option (List Byte) × Dev :=
  segs.foldl
    (fun acc s =>
      let l := acc.2.read r cx s.1 s.2
      (match acc.1, l.1 with | some a, some b => some (a ++ b) | _, _ => none, l.2))
    (some [], d)

/-- Write bytes to translated segments in order. -/
def Dev.writeSegs (r : Reader) (cx : CtxId) : List Seg → List Byte → Dev → Dev
  | [], _, d => d
  | s :: ss, bs, d => Dev.writeSegs r cx ss (bs.drop s.2) (d.write r cx s.1 (bs.take s.2))

/-- Drop TLB and walker-cache entries that satisfy a test on context and on CVA overlap; the pages of the dropped TLB entries are noted,
for what was translated through them (R307). -/
def Mem.xlDrop (ctxTest : Nat → Bool) (lo hi : Nat) (m : Mem) : Mem :=
  let gone (e : TlbEntry) : Bool := ctxTest e.ctx && decide (e.va < hi) && decide (lo < e.va + e.size)
  { m with tlb := m.tlb.filter fun e => !gone e,
           inval := (m.tlb.filter gone).map fun e => (e.ctx, e.pa, e.size),
           walks := m.walks.filter fun w => !(ctxTest w.ctx && decide (w.va < hi) && decide (lo < w.va + levelSpan (w.level - 1))) }

end Sys2Proof.Machine
end

