-- ==== Sys2Proof/Machine/Ops.lean ====
section
/-! DEFINITION. The named operations of a core: its scratch with shadow frames and error check, performance counters and
format flags with their speculative deltas, programme exceptions, and the seeded generators (R50 to R53, R129, R161,
R192 to R194, R200, R537). -/

namespace Sys2Proof.Machine

/-! ## A core in its surroundings -/

/-- What a core's instruction knows of its surroundings: physical and logical core, running context with generation,
reproducibility mode (0 FAST, 1 RESULT, 2 EXACT), the scratch window's first byte and end (R445), the shadow pool's first page and size, the
parameter registers. -/
structure CInfo where
  n : Nat
  l : Nat
  ctx : Nat
  gen : Nat
  mode : Nat
  winLo : Nat
  winHi : Nat
  poolLo : Nat
  poolN : Nat
  preg : Tbl W64
  deriving DecidableEq, Repr

/-- The context as a detector names it. -/
def CInfo.cx (ci : CInfo) : CtxId := some (ci.ctx, ci.gen)

/-- A core together with register space. -/
structure CV where
  pg : Pages
  core : Core
  deriving DecidableEq, Repr

/-- Apply an update of register space. -/
def CV.onPg (f : Pages → Pages) (v : CV) : CV := { v with pg := f v.pg }

/-- Apply an update of the core. -/
def CV.onCore (f : Core → Core) (v : CV) : CV := { v with core := f v.core }

/-- The core runs a speculative block (R50). -/
def Core.speculative (c : Core) : Bool := c.spec.isSome

/-- Bytes of a core's scratch (R14). -/
def scrSize : Nat := 0x800000

/-- A byte range [lo, hi) breaks RANGE: it leaves the context's scratch window (R445). -/
def CInfo.outside (ci : CInfo) (lo hi : Nat) : Bool := decide (lo < ci.winLo) || decide (ci.winHi < hi)

/-- Parameter register p; one not declared reads zero (R241). -/
def CInfo.p (ci : CInfo) (p : Nat) : W64 := tget (fun _ => 0) ci.preg p

/-! ## Detectors of a core's pages -/

/-- An armed detector fires on an access whose instances satisfy a test (R529). -/
def Pages.fireP (pg det : Nat) (hit : Nat → Bool) (p : Pages) : Bool × Pages :=
  let t := p.get (Reg.PG_ERR_INJ_MODE pg) 15 0
  if t = 0xFFFF || hit t then p.fire pg det t else (false, p)

/-- Evaluate a parity detector of class UNIT on an access: when it fires, the core fails (R162, R201, R224, R537). -/
def CV.parity (pg det : Nat) (addr : Nat → Nat) (hit : Nat → Bool) (cx : CtxId) (v : CV) : CV :=
  let t := v.pg.get (Reg.PG_ERR_INJ_MODE pg) 15 0
  let f := v.pg.fireP pg det hit
  if f.1 then { pg := f.2.raise pg det (addr t) cx, core := { v.core with failed := true } } else { v with pg := f.2 }

/-! ## Scratch -/

/-- Page of a scratch offset (R51: pages of 4 KiB). -/
def scrPage (o : Nat) : Nat := o / 4096

/-- The committed byte of a core's scratch. DESIGN CHOICE (log entry 3): a byte never written reads 0. -/
def Core.byteC (c : Core) (o : Nat) : Byte := tget (fun _ => 0) c.scr o

/-- A byte as the core's own block reads it: the shadow frame where one exists (R50). -/
def Core.byte (c : Core) (o : Nat) : Byte :=
  match c.spec with
  | some s => if scrPage o ∈ s.pages then tget (fun o => c.byteC o) s.bytes o else c.byteC o
  | none => c.byteC o

/-- Store committed bytes. -/
def Core.setC (o : Nat) (bs : List Byte) (c : Core) : Core := { c with scr := tsetList (fun _ => 0) c.scr o bs }

/-- List explicit bytes of a shadow frame; every byte written is listed. -/
def shadowPut (t : Tbl Byte) (o : Nat) (bs : List Byte) : Tbl Byte :=
  bs.zipIdx.foldl (fun t b => tinsert (terase t (o + b.2)) (o + b.2) b.1) t

/-- Pages a byte range touches. -/
def rangePages (o n : Nat) : List Nat := if n = 0 then [] else rangeFrom (scrPage o) (scrPage (o + n - 1) - scrPage o + 1)

/-- The pages of some ranges that have no shadow frame yet. -/
def Spec.newPages (s : Spec) (rs : List (Nat × Nat)) : List Nat :=
  ((rs.flatMap fun r => rangePages r.1 r.2).dedup).filter fun p => p ∉ s.pages

/-- A speculative write of these ranges finds a free frame for every page it touches (R51). -/
def Core.framesFree (c : Core) (ci : CInfo) (rs : List (Nat × Nat)) : Bool :=
  match c.spec with
  | none => true
  | some s => decide (s.pages.length + (s.newPages rs).length ≤ ci.poolN)

/-- Some range touches the context's shadow pool (R51). -/
def CInfo.touchesPool (ci : CInfo) (rs : List (Nat × Nat)) : Bool :=
  rs.any fun r => (rangePages r.1 r.2).any fun p => ci.poolLo ≤ p && p < ci.poolLo + ci.poolN

/-- The core's own program writes bytes: to shadow frames while it speculates, else to committed scratch (R50, R51). A
whole-line write is an injection opportunity of the SCR page (R529). -/
def CV.scrWrite (ci : CInfo) (o : Nat) (bs : List Byte) (v : CV) : CV :=
  if v.core.failed then v
  else match v.core.spec with
  | some s =>
    { v with core := { v.core with spec := some { s with
        pages := s.newPages [(o, bs.length)] ++ s.pages, bytes := shadowPut s.bytes o bs,
        tainted := s.tainted || ci.touchesPool [(o, bs.length)] } } }
  | none => { v with core := v.core.setC o bs }

/-- Leave flips in the whole lines of a range, as an armed SCR CE or UE injects (R529). -/
def CV.scrInject (ci : CInfo) (o n : Nat) (v : CV) : CV :=
  if o % 64 = 0 ∧ 64 ≤ n then
    let bank := o / 64 % 32
    let hit := fun t => decide (t % 256 = bank)
    let a := v.pg.fireP (Pg.scr ci.n) 0 hit
    let b := a.2.fireP (Pg.scr ci.n) 1 hit
    { pg := b.2, core := { v.core with scrFlips := tset (fun _ => 0) v.core.scrFlips (o / 64) (if b.1 then 2 else if a.1 then 1 else 0) } }
  else v

/-- Check the lines of a range as they are read: a correctable word is corrected and written back; an uncorrectable one
stops the core (R537). -/
def CV.scrCheck (ci : CInfo) (o n : Nat) (v : CV) : CV :=
  let bad := v.core.scrFlips.filter fun e => decide (o < 64 * e.1 + 64) && decide (64 * e.1 < o + n) && decide (0 < n)
  bad.foldl
    (fun v e =>
      let a := scrBase + ci.l * 0x1000000 + 64 * e.1
      if e.2 = 1 then
        { pg := (v.pg.raise (Pg.scr ci.n) 0 a ci.cx).sat (Reg.SCR_CE_CNT ci.n) 1,
          core := { v.core with scrFlips := terase v.core.scrFlips e.1 } }
      else
        { pg := (v.pg.raise (Pg.scr ci.n) 1 a ci.cx).sat (Reg.SCR_UE_CNT ci.n) 1, core := { v.core with failed := true } })
    v

/-- The core's own program reads a byte range. -/
def CV.scrRead (ci : CInfo) (o n : Nat) (v : CV) : List Byte × CV :=
  let v1 := v.scrCheck ci o n
  let v2 := if ci.touchesPool [(o, n)] then
      v1.onCore fun c => { c with spec := c.spec.map fun s => { s with tainted := true } } else v1
  ((rangeFrom o n).map v2.core.byte, v2)

/-- Write rows, then give the SCR page its injection opportunity. -/
def CV.scrWriteI (ci : CInfo) (o : Nat) (bs : List Byte) (v : CV) : CV := (v.scrWrite ci o bs).scrInject ci o bs.length

/-! ## Counters and flags, committed or speculative -/

/-- Count committed work in an event counter pair, or as a speculative delta (R50, R159, R199). -/
def CV.perf (key n : Nat) (v : CV) : CV :=
  match v.core.spec with
  | some s => { v with core := { v.core with spec := some { s with perf := (key, n) :: s.perf } } }
  | none => { v with pg := v.pg.count key n }

/-- Set MXA format flags (R128, R129). -/
def CV.flagM (ci : CInfo) (f : FFlags) (v : CV) : CV :=
  match v.core.spec with
  | some s => { v with core := { v.core with spec := some { s with setM := s.setM ||| f } } }
  | none => { v with pg := v.pg.upd (Reg.MXA_FMT_STAT ci.n) (· ||| f) }

/-- Set TVU format flags (R128, R129). -/
def CV.flagT (ci : CInfo) (f : FFlags) (v : CV) : CV :=
  match v.core.spec with
  | some s => { v with core := { v.core with spec := some { s with setT := s.setT ||| f } } }
  | none => { v with pg := v.pg.upd (Reg.TVU_FMT_STAT ci.n) (· ||| f) }

/-- A unit's FMT_STAT [5:0] as the running block sees it (R258). -/
def CV.flags (ci : CInfo) (tvu : Bool) (v : CV) : Nat :=
  let w := v.pg.rd (if tvu then Reg.TVU_FMT_STAT ci.n else Reg.MXA_FMT_STAT ci.n)
  match v.core.spec with
  | some s => fld (if tvu then (w &&& ~~~s.clrT) ||| s.setT else (w &&& ~~~s.clrM) ||| s.setM) 5 0
  | none => fld w 5 0

/-- CSET CLR: clear the flags that were read, in the speculative copy of a speculative block (R276). -/
def CV.flagClr (ci : CInfo) (tvu : Bool) (f : Nat) (v : CV) : CV :=
  let m : W32 := BitVec.ofNat 32 f
  match v.core.spec with
  | some s => { v with core := { v.core with spec := some (if tvu then
      { s with setT := s.setT &&& ~~~m, clrT := s.clrT ||| m } else { s with setM := s.setM &&& ~~~m, clrM := s.clrM ||| m }) } }
  | none => { v with pg := v.pg.upd (if tvu then Reg.TVU_FMT_STAT ci.n else Reg.MXA_FMT_STAT ci.n) (· &&& ~~~m) }

/-! ## Counters C and comparators K (R240) -/

/-- Counter i as the block sees it. -/
def Core.c (c : Core) (i : Nat) : W64 :=
  tget (fun _ => 0) (match c.spec with | some s => s.ctr | none => c.ctr) i

/-- Comparator i as the block sees it. -/
def Core.k (c : Core) (i : Nat) : Bool :=
  tget (fun _ => false) (match c.spec with | some s => s.cmp | none => c.cmp) i

/-- Set a counter, in the speculative copy of a speculative block. -/
def Core.setCtr (i : Nat) (w : W64) (c : Core) : Core :=
  match c.spec with
  | some s => { c with spec := some { s with ctr := tset (fun _ => 0) s.ctr i w } }
  | none => { c with ctr := tset (fun _ => 0) c.ctr i w }

/-- Set a comparator. -/
def Core.setCmp (i : Nat) (b : Bool) (c : Core) : Core :=
  match c.spec with
  | some s => { c with spec := some { s with cmp := tset (fun _ => false) s.cmp i b } }
  | none => { c with cmp := tset (fun _ => false) c.cmp i b }

/-! ## Programme exceptions (R161, R167, R200, R280) -/

/-- The units whose exceptions a block records: MXA, TVU, and the XFER queue with control. -/
inductive XUnit where
  | mxa | tvu | xfer
  deriving DecidableEq, Repr

/-- A unit's code in a deferred record. -/
def XUnit.code : XUnit → Nat
  | .mxa => 0 | .tvu => 1 | .xfer => 2

/-- The unit of a code. -/
def XUnit.ofCode : Nat → XUnit
  | 0 => .mxa | 1 => .tvu | _ => .xfer

/-- The exception register of a unit: MXA_EXC, TVU_EXC, or the logical core's record in its Bay page (R280, R558). -/
def CInfo.excReg (ci : CInfo) : XUnit → Nat
  | .mxa => Reg.MXA_EXC ci.n
  | .tvu => Reg.TVU_EXC ci.n
  | .xfer => Reg.BAY_XEXC (ci.l / 8) (ci.l % 8)

/-- Record an exception in a register that keeps its first record (R167). -/
def Pages.recordExc (key : Nat) (deferred : Bool) (code index : Nat) (p : Pages) : Pages :=
  if p.bit key 31 then p
  else p.wr key (BitVec.ofNat 32 (2 ^ 31 + (if deferred then 2 ^ 30 else 0) + code % 16 * 2 ^ 24 + index % 2 ^ 24))

/-- Two places of the dispatch order are one queue: the matrix queue 0, the vector queue 1, the XFER queue 2 and 3; 4 is a FENCE of
scope LOCAL, 5 a GCALL that has not returned. -/
def sameQueue (a b : Nat) : Bool := decide (a = b) || ((a == 2 || a == 3) && (b == 2 || b == 3))

/-- The head of a queue may start: no earlier-dispatched instruction that it may have to wait for under R156 has still to
start, and every FENCE of scope LOCAL before it is complete (R279). kinds 0 matrix, 1 vector, 2 and 3 XFER. DEDUCED (log entry 40):
the model waits whether or not their pages overlap, and what follows a FENCE of scope LOCAL waits for it. -/
def Core.mayStart (kind : Nat) (c : Core) : Bool :=
  let before := c.ord.takeWhile fun k => !sameQueue k kind
  let fenced := before.reverse.dropWhile (· ≠ 4)
  (before.all fun k => if kind ≤ 1 then decide (3 ≤ k) else decide (2 ≤ k)) && fenced.all (· ≠ 5)

/-- Take the first entry of a queue out of the dispatch order. -/
def eraseKind (kind : Nat) : List Nat → List Nat
  | [] => []
  | k :: ks => if sameQueue k kind then ks else k :: eraseKind kind ks

/-- An instruction of a kind has started. -/
def Core.started (kind : Nat) (c : Core) : Core := { c with ord := eraseKind kind c.ord }

/-- Some XFER instruction of the core has still to write one of these pages of its scratch (R156). -/
def Core.landing (pages : List Nat) (c : Core) : Bool := c.outs.any fun o => o.pages.any fun q => q ∈ pages

/-- The unit issues no later instruction of the block. -/
def Core.stopUnit (u : XUnit) (c : Core) : Core :=
  match u with
  | .mxa => { c with mStop := true, mxq := [], ord := c.ord.filter (· ≠ 0) }
  | .tvu => { c with tStop := true, tvq := [], ord := c.ord.filter (· ≠ 1) }
  | .xfer => { c with xStop := true }

/-- A committed exception halts the context; the first of them is the one the event names (R41, R455). -/
def Core.halt (unit code index : Nat) (c : Core) : Core :=
  if c.exc then c else { c with exc := true, excRec := (unit, code, index) }

/-- A unit's number in an EXC event (R455). -/
def XUnit.event : XUnit → Nat
  | .mxa => 0 | .tvu => 1 | .xfer => 3

/-- Deliver a committed exception: the record, and the halt of the context, which the core notes in exc (R41, R161, R200,
R280). -/
def CV.excDeliver (ci : CInfo) (u : XUnit) (deferred : Bool) (code index : Nat) (v : CV) : CV :=
  { pg := v.pg.recordExc (ci.excReg u) deferred code index, core := v.core.halt u.event code index }

/-- An instruction breaks a rule at run time: it writes nothing, its unit stops, and the exception is recorded, or
deferred in a speculative block (R50, R161, R200, R280). At most three units of a block can defer, below the limit of
8. -/
def CV.except (ci : CInfo) (u : XUnit) (code index : Nat) (v : CV) : CV :=
  let v1 := v.onCore (Core.stopUnit u)
  match v.core.spec with
  | some s => { v1 with core := { v1.core with spec := some { s with deferred := s.deferred ++ [⟨u.code, code, index⟩] } } }
  | none => v1.excDeliver ci u false code index

/-! ## Seeded generators (R192 to R194) -/

/-- The seed and NODE in force for the block (R192). -/
def CV.seed (v : CV) : W64 × Bool :=
  match v.core.spec.bind (·.seed) with
  | some s => s
  | none => v.core.seed

/-- The key of generator g of logical core l (R192). -/
def srgKey (seed : W64) (node : Option Nat) (l g : Nat) : W64 :=
  (match node with
    | some nd => seed ^^^ BitVec.ofNat 64 (nd * 2 ^ 48)
    | none => seed) + BitVec.ofNat 64 (1 + l * 513 + g) * 0x8E3F5A19D07C64B5

/-- A draw of the SRG (R193). -/
def srgDraw (key : W64) (k i e : Nat) : Nat :=
  let st : W64 := BitVec.ofNat 64 (k % 2 ^ 40 * 2 ^ 24 + i % 2 ^ 24)
  let x0 := key ^^^ (st * 0xC2B73E51A6D49F27)
  let x1 := x0 ^^^ (BitVec.ofNat 64 (e % 2 ^ 32) * 0x8E3F5A19D07C64B5)
  let x2 := (x1 ^^^ (x1 >>> 29)) * 0xC2B73E51A6D49F27
  let x3 := (x2 ^^^ (x2 >>> 32)) * 0x8E3F5A19D07C64B5
  let x4 := x3 ^^^ (x3 >>> 31)
  x4.toNat / 2 ^ 32

/-- The block number k of the running block. -/
def Core.blkK (c : Core) : Nat := (c.blk.map (·.k)).getD 0

/-- The draw of generator g, element e, instruction i, for the running block of a core. -/
def CV.draw (ci : CInfo) (g i e : Nat) (v : CV) : Nat :=
  let s := v.seed
  srgDraw (srgKey s.1 (if s.2 then some (v.pg.get Reg.CAP_NODE 15 0) else none) ci.l g) v.core.blkK i e

/-- The lane that processes element (r, c) of a tile (R172). -/
def lane (wide : Bool) (r c : Nat) : Nat := if wide then 16 * r + c % 16 else 16 * r + c / 2 % 16

end Sys2Proof.Machine
end

