-- ==== Sys2Proof/Machine/Operands.lean ====
section
/-! DEFINITION. The operand forms of the Ethaqua instructions and their descriptors (R174, R258, R262). -/

namespace Sys2Proof.Machine

/-- The value of a SOFS (R258): its immediate, or the scratch offset in the named parameter register. -/
def Sofs.val (o : Sofs) (ci : CInfo) : Nat :=
  match o with
  | .imm v => v.toNat
  | .preg p => (ci.p p.toNat).toNat % 2 ^ 23

/-- The SOFS is taken from a parameter register. -/
def Sofs.fromPreg : Sofs → Bool
  | .imm _ => false
  | .preg _ => true

/-- The value of an IDX; none when a counter lies outside 0 to 2^24 - 1 (R258). -/
def Idx.val (x : Idx) (c : Core) : Option Nat :=
  match x with
  | .imm v => some v.toNat
  | .ctr i => if (c.c i).toNat < 2 ^ 24 then some (c.c i).toNat else none

/-- The value of a SOP (R258); FLG reads the unit's flags as the block sees them. -/
def Sop.val (x : Sop) (ci : CInfo) (v : CV) : W64 :=
  match x with
  | .imm w => w.signExtend 64
  | .preg p => ci.p p.toNat
  | .ctr i => v.core.c i
  | .cap w => w.zeroExtend 64
  | .flg t => BitVec.ofNat 64 (v.flags ci t)

/-- The SOP is fixed at translation (R257). -/
def Sop.fixed : Sop → Bool
  | .imm _ | .cap _ => true
  | _ => false

/-- An address operand: [47:0] of the value (R258). -/
def Sop.addr (x : Sop) (ci : CInfo) (v : CV) : Nat := (x.val ci v).toNat % 2 ^ 48

/-! ## Tensor descriptors (R174) -/

/-- A tensor descriptor: rank, SCL, format, base, extents, strides of axes 1 to 3, scale base and row stride; whether a
reserved bit is set. -/
structure TDesc where
  rank : Nat
  scl : Bool
  fmt : Option Fmt
  base : Nat
  e0 : Nat
  e1 : Nat
  e2 : Nat
  e3 : Nat
  s1 : Nat
  s2 : Nat
  s3 : Nat
  sbase : Nat
  sstr : Nat
  resv : Bool
  deriving DecidableEq, Repr

/-- Read a descriptor from its 64 bytes: axes at or above RANK have extent 1 and their strides are ignored (R174). -/
def TDesc.ofBytes (bs : List Byte) : TDesc :=
  let w (i : Nat) : Nat := ofBytesLE (slice (4 * i) 4 bs)
  let rank := w 0 / 2 ^ 29 % 4 + 1
  { rank := rank
    scl := w 0 / 2 ^ 28 % 2 = 1
    fmt := Fmt.ofCode (w 0 / 2 ^ 24 % 16)
    base := w 0 % 2 ^ 23
    e0 := w 1 % 2 ^ 24
    e1 := if rank < 2 then 1 else w 2 % 2 ^ 24
    e2 := if rank < 3 then 1 else w 3 % 2 ^ 24
    e3 := if rank < 4 then 1 else w 4 % 2 ^ 24
    s1 := if rank < 2 then 0 else w 5 % 2 ^ 24
    s2 := if rank < 3 then 0 else w 6 % 2 ^ 24
    s3 := if rank < 4 then 0 else w 7 % 2 ^ 24
    sbase := w 8 % 2 ^ 23
    sstr := w 9 % 2 ^ 24
    resv := w 0 / 2 ^ 31 = 1 || w 0 / 2 ^ 23 % 2 = 1 || (rangeFrom 1 7).any (fun i => 2 ^ 24 ≤ w i) ||
      decide (2 ^ 23 ≤ w 8) || decide (2 ^ 24 ≤ w 9) || (bs.drop 40).any (· ≠ 0) }

/-- Bytes of axis 0 of a tensor, whole blocks for a scaled tensor (R105, R110, R175). -/
def TDesc.rowBytes (d : TDesc) (t : Fmt) (scaled : Bool) : Nat :=
  if scaled then ceilDiv d.e0 32 * (4 * t.width) else (t.width * d.e0 + 7) / 8

/-- One past the last byte the tensor reaches. -/
def TDesc.dataEnd (d : TDesc) (t : Fmt) (scaled : Bool) : Nat :=
  d.base + (d.e1 - 1) * d.s1 + (d.e2 - 1) * d.s2 + (d.e3 - 1) * d.s3 + d.rowBytes t scaled

/-- Rows of a tensor: EXT1 * EXT2 * EXT3 (R176). -/
def TDesc.rows (d : TDesc) : Nat := d.e1 * d.e2 * d.e3

/-- One past the last scale byte (R176). -/
def TDesc.scaleEnd (d : TDesc) : Nat := d.sbase + (d.rows - 1) * d.sstr + ceilDiv d.e0 32

/-- The byte ranges of the data rows of a tensor: every row's start and length. -/
def TDesc.rowRanges (d : TDesc) (t : Fmt) (scaled : Bool) : List (Nat × Nat) :=
  (List.range d.e3).flatMap fun i3 => (List.range d.e2).flatMap fun i2 => (List.range d.e1).map fun i1 =>
    (d.base + i1 * d.s1 + i2 * d.s2 + i3 * d.s3, d.rowBytes t scaled)

/-- The byte ranges of the scale rows. -/
def TDesc.scaleRanges (d : TDesc) : List (Nat × Nat) :=
  (List.range d.rows).map fun r => (d.sbase + r * d.sstr, ceilDiv d.e0 32)

/-- Two ranges share a byte. -/
def overlap (a b : Nat × Nat) : Bool := decide (a.1 < b.1 + b.2) && decide (b.1 < a.1 + a.2)

/-- Some range of one list shares a byte with some range of another. -/
def overlaps (as bs : List (Nat × Nat)) : Bool := as.any fun a => bs.any fun b => overlap a b

/-- Read a descriptor from the core's scratch. -/
def CV.desc (ci : CInfo) (o : Nat) (v : CV) : TDesc × CV :=
  let r := v.scrRead ci o 64
  (TDesc.ofBytes r.1, r.2)

/-- A block access names registers that do not exist, or the local store: no valid translated code (R213, R282). -/
def GMem.illegal (m : GMem) (rd : Fin 32) (scratch : Bool) : Bool := m.blk && (!scratch || decide (24 < rd.val))

/-- The registers a pop may name (R282). -/
def popfOk (rd : Fin 32) : Bool := decide (rd.val = 8 ∨ rd.val = 16 ∨ rd.val = 24)

end Sys2Proof.Machine
end

