-- ==== Sys2Proof/Machine/Matrix.lean ====
section
/-! DEFINITION. The matrix array: operands, exact arithmetic and the order of every sum, and the effects of MMODE, MLOAD,
MSTREAM, MDRAIN as the MXA queue starts them (R130 to R169, R262). -/

namespace Sys2Proof.Machine

/-! ## Mode word (R138) and density (R130) -/

/-- A dataflow's code. -/
def Dflow.code : Dflow → Nat
  | .ws => 0 | .is => 1 | .os => 2

/-- The dataflow of a mode word. -/
def dflowOf (w : W32) : Dflow := if fld w 31 30 = 0 then .ws else if fld w 31 30 = 1 then .is else .os

/-- A rounding mode's code (R115). -/
def Rc.bits (rc : Rc) : Nat :=
  (if rc.flush then 4 else 0) + match rc.mode with | .rne => 0 | .sr => 1 | .rtz => 2

/-- Density of a pair of formats: that of the wider operand: 0 D16, 1 D8, 2 D4, 3 D32 (R130, R131). -/
def density (a b : Fmt) : Nat :=
  let w := max a.width b.width
  if w = 32 then 3 else if w = 16 then 0 else if w = 8 then 1 else 2

/-- Tile K extent of a density (R130). -/
def tileK (d : Nat) : Nat := if d = 0 then 128 else if d = 1 then 256 else if d = 2 then 512 else 32

/-- Largest N, M or OS extent of a density (R133). -/
def extMax (d : Nat) : Nat := if d = 3 then 32 else 128

/-- K elements of one OS wavefront (R140). -/
def waveK (d : Nat) : Nat := if d = 1 then 2 else if d = 2 then 4 else 1

/-- The pairs of formats R131 allows. -/
def mxaPair (a b : Fmt) : Bool :=
  let fl (t : Fmt) : Bool := t = .f16w || t = .f16x || t.isBlock
  let it (t : Fmt) : Bool := t = .i8 || t = .i4
  (fl a && fl b) || (it a && it b) || (a = .f32w && b = .f32w)

/-- The output formats R139 allows for a pair. -/
def mxaOut (a o : Fmt) : Bool :=
  if a.ef.isSome then o.ef.isSome
  else o = .i32 || o = .i16 || o = .i8 || o = .u8 || o = .i4 || o = .f32w || o = .f16w || o = .f16x

/-- The mode word MMODE writes, with DENS and VALID (R138). -/
def MmodeOp.word (o : MmodeOp) : W32 :=
  BitVec.ofNat 32 (o.df.code * 2 ^ 30 + o.fmtR.code * 2 ^ 26 + o.fmtC.code * 2 ^ 22 + o.rc.bits * 2 ^ 19 +
    o.sclR.toNat * 2 ^ 18 + o.sclC.toNat * 2 ^ 17 + density o.fmtR o.fmtC * 2 ^ 15 + 2 ^ 14)

/-- The fields of the mode word in force. -/
structure MMode where
  df : Dflow
  fr : Fmt
  fc : Fmt
  rc : Rc
  sr : Bool
  sc : Bool
  dens : Nat
  valid : Bool
  deriving DecidableEq, Repr

/-- Read the mode in force from the mode word. -/
def MMode.of (w : W32) : MMode where
  df := dflowOf w
  fr := (Fmt.ofCode (fld w 29 26)).getD .f16w
  fc := (Fmt.ofCode (fld w 25 22)).getD .f16w
  rc := (Rc.ofBits (fld w 21 19)).getD .default
  sr := wbit w 18
  sc := wbit w 17
  dens := fld w 16 15
  valid := wbit w 14

/-- The mode in force of a core. -/
def CV.mmode (v : CV) : MMode := .of v.core.mmode

/-! ## Arithmetic (R148 to R153) -/

/-- A product; an F32W product keeps 31 significant bits (R148). -/
def product (f32 : Bool) (a b : Val) : Val :=
  match a, b with
  | .num x, .num y =>
    let p := x.mul y
    if f32 && !p.isZero then
      let q := p.log2 - 30
      .num ⟨p.neg, p.roundAt q .rtz 0, q, false⟩
    else .num p
  | _, _ => .nan

/-- The sum of a group of products: each truncated toward zero to a multiple of 2^(Emax - 33), then added exactly
(R149). -/
def groupSum (ps : List Val) : Val :=
  let fin := ps.filterMap fun p => match p with | .num x => some x | .nan => none
  if fin.length < ps.length then .nan
  else
    let m := fin.foldl (fun m x => if m.lt x.abs then x.abs else m) Dy.zero
    if m.isZero then .num .zero
    else
      let u := m.log2 - 33
      let s : Int := fin.foldl (fun s x => s + (if x.neg then -((x.roundAt u .rtz 0 : Nat) : Int) else (x.roundAt u .rtz 0 : Nat))) 0
      .num ⟨decide (s < 0), s.natAbs, u, false⟩

/-- Split a list into groups of 8. -/
def groups8 {α : Type} (l : List α) : List (List α) :=
  (List.range (ceilDiv l.length 8)).map fun g => slice (8 * g) 8 l

/-- An operand row: each element's code and its block's scale (127 when unscaled). -/
abbrev ORow := List (Nat × Nat)

/-- One group enters the running sum on the float path (R148 to R151). -/
def accGroup (fa fb : Fmt) (s : W64 × FFlags) (g : List ((Nat × Nat) × (Nat × Nat))) : W64 × FFlags :=
  let f32 := decide (fa = .f32w)
  let ps := g.map fun e => product f32 (fa.decode e.1.1) (fb.decode e.2.1)
  let sc : Int := match g with | e :: _ => (e.1.2 : Int) + e.2.2 - 254 | [] => 0
  match groupSum ps with
  | .nan =>
    let r := Acc.enter true (Acc.val s.1)
    (r.1, s.2 ||| r.2 ||| flNanIn)
  | .num t =>
    let r := Acc.add s.1 false (t.scale sc)
    (r.1, s.2 ||| r.2)

/-- Saturate to the I32 range (R152). -/
def satI32 (x : Int) : Int × FFlags :=
  if x < -2147483648 then (-2147483648, flSat) else if 2147483647 < x then (2147483647, flSat) else (x, 0)

/-- One group enters the running sum on the integer path (R152). -/
def intGroup (fa fb : Fmt) (s : W64 × FFlags) (g : List ((Nat × Nat) × (Nat × Nat))) : W64 × FFlags :=
  let t : Int := g.foldl (fun t e => t + signedOf fa.width e.1.1 * signedOf fb.width e.2.1) 0
  let r := satI32 (signedOf 32 s.1.toNat + t)
  (BitVec.ofNat 64 (ofSigned 32 r.1), s.2 ||| r.2)

/-- The running sum of one instruction's groups for one output element, in increasing K order (R151, R153). -/
def chain (fa fb : Fmt) (s : W64 × FFlags) (a b : ORow) : W64 × FFlags :=
  (groups8 (a.zip b)).foldl (if fa.ef.isSome then accGroup fa fb else intGroup fa fb) s

/-- The partial sum enters last (R152, R153): code of F32W or I32. -/
def addPsum (float : Bool) (s : W64) (code : Nat) : W64 × FFlags :=
  if float then
    match Fmt.f32w.decode code with
    | .nan => let r := Acc.enter true (Acc.val s); (r.1, r.2 ||| flNanIn)
    | .num x => Acc.add s false x
  else
    let r := satI32 (signedOf 32 code + signedOf 32 s.toNat)
    (BitVec.ofNat 64 (ofSigned 32 r.1), r.2)

/-- A running sum as a value to convert. -/
def accVal (float : Bool) (s : W64) : Val := if float then Acc.out s else .num (.ofInt (signedOf 32 s.toNat))

/-! ## Operands in scratch (R132, R262) -/

/-- What an operand descriptor of a matrix instruction breaks, if anything: SHAPE 3, RANGE 4, ALIGN 5 (R132, R161,
R262). Rows r0 .. r0 + n - 1, elements k0 .. k0 + k - 1. -/
def operandBad (ci : CInfo) (o : Sofs) (off : Nat) (d : TDesc) (t : Fmt) (scaled : Bool) (r0 n k0 k : Nat) (isOut : Bool) : Option Nat :=
  if o.fromPreg && off % 64 ≠ 0 then some 5
  else if 2 < d.rank then some 3
  else if d.e1 < r0 + n ∨ d.e0 < k0 + k then some 3
  else if !isOut && (scaled || decide (t.width < 8)) && k0 % 32 ≠ 0 then some 3
  else if d.base % 64 ≠ 0 ∨ d.s1 % 64 ≠ 0 ∨ (scaled && (d.sbase % 16 ≠ 0 || d.sstr % 16 ≠ 0)) then some 5
  else if ci.outside d.base (d.base + (r0 + n - 1) * d.s1 + (if scaled then ceilDiv (k0 + k) 32 * (4 * t.width) else ((k0 + k) * t.width + 7) / 8)) ||
      (scaled && ci.outside d.sbase (d.sbase + (r0 + n - 1) * d.sstr + ceilDiv (k0 + k) 32)) then some 4
  else none

/-- The bytes a row's elements k0 .. k0 + k - 1 occupy: offset and length. -/
def rowSeg (d : TDesc) (t : Fmt) (scaled : Bool) (row k0 k : Nat) : Nat × Nat :=
  (d.base + row * d.s1 + k0 * t.width / 8, if scaled then ceilDiv k 32 * (4 * t.width) else (k * t.width + 7) / 8)

/-- The scale bytes of a row's elements. -/
def scaleSeg (d : TDesc) (row k0 k : Nat) : Nat × Nat := (d.sbase + row * d.sstr + k0 / 32, ceilDiv k 32)

/-- Read one operand row. -/
def CV.opRow (ci : CInfo) (d : TDesc) (t : Fmt) (scaled : Bool) (row k0 k : Nat) (v : CV) : ORow × CV :=
  let sg := rowSeg d t scaled row k0 k
  let r := v.scrRead ci sg.1 sg.2
  let s := if scaled then r.2.scrRead ci (scaleSeg d row k0 k).1 (scaleSeg d row k0 k).2 else ([], r.2)
  ((List.range k).map fun i => (elemAt t.width r.1 i, if scaled then (s.1.getD (i / 32) 127).toNat else 127), s.2)

/-- Read n operand rows from row r0. -/
def CV.opRows (ci : CInfo) (d : TDesc) (t : Fmt) (scaled : Bool) (r0 n k0 k : Nat) (v : CV) : List ORow × CV :=
  (rangeFrom r0 n).foldl
    (fun acc r => let x := acc.2.opRow ci d t scaled r k0 k; (acc.1 ++ [x.1], x.2)) ([], v)

/-- The ranges n rows occupy, scales included. -/
def rowsRanges (d : TDesc) (t : Fmt) (scaled : Bool) (r0 n k0 k : Nat) : List (Nat × Nat) :=
  (rangeFrom r0 n).flatMap fun r => rowSeg d t scaled r k0 k :: (if scaled then [scaleSeg d r k0 k] else [])

/-- Convert and write one output row: the drain's conversion, its draws, scales and padding (R110, R116, R153, R155).
row numbers the output row within the instruction; orow is its row of the descriptor. -/
def CV.outRow (ci : CInfo) (idx : Nat) (m : MMode) (d : TDesc) (t : Fmt) (row orow : Nat) (sums : List W64) (v : CV) : CV :=
  let float := m.fr.ef.isSome
  let n := sums.length
  let draws := fun c => v.draw ci 512 idx (row * n + c)
  let vals := sums.map (accVal float)
  let rc : Rc := if t = .f32w then .default else m.rc
  let dataAt := (rowSeg d t t.isBlock orow 0 n).1
  if t.isBlock then
    let blocks := (List.range (ceilDiv n 32)).map fun j => blockEncode t rc (fun i => draws (32 * j + i)) (slice (32 * j) 32 vals)
    let codes := blocks.flatMap fun b => (b.1 ++ List.replicate 32 0).take 32
    let fl := blocks.foldl (fun f b => f ||| b.2.2) 0
    ((v.scrWriteI ci dataAt (packRow t.width codes)).scrWriteI ci (d.sbase + orow * d.sstr)
      (blocks.map fun b => BitVec.ofNat 8 b.2.1)).flagM ci fl
  else
    let rs := vals.zipIdx.map fun x => t.encode rc (draws x.2) x.1
    (v.scrWriteI ci dataAt (packRow t.width (rs.map (·.1)))).flagM ci (rs.foldl (fun f r => f ||| r.2) 0)

/-- Drain rows of sums: under ADD each row's partial sums are read first and added last (R153, R154). -/
def CV.drainRows (ci : CInfo) (idx : Nat) (m : MMode) (od pd : TDesc) (t : Fmt) (add : Bool) (orow : Nat)
    (rows : List (List W64)) (v : CV) : CV :=
  let float := m.fr.ef.isSome
  rows.zipIdx.foldl
    (fun v r =>
      let ps := if add then v.opRow ci pd (if float then .f32w else .i32) false (orow + r.2) 0 r.1.length else ([], v)
      let sums := if add then (r.1.zip ps.1).map fun x => addPsum float x.1 x.2.1 else r.1.map fun s => (s, 0)
      (ps.2.flagM ci (sums.foldl (fun f s => f ||| s.2) 0)).outRow ci idx m od t r.2 (orow + r.2) (sums.map (·.1)))
    v

/-! ## Instructions -/

/-- Checks that every matrix instruction starts with: OFF, NOMODE (R161). -/
def CV.mxaPre (ci : CInfo) (needMode : Bool) (v : CV) : Option Nat :=
  if !v.pg.enabled (Pg.mxa ci.n) then some 8
  else if needMode && !(v.mmode).valid then some 1
  else none

/-- The address of a cell as TILE_PAR and ACC_PAR capture it: the cell that an injection names, else the first (R169). -/
def cellAddr (t : Nat) : Nat := if t = 0xFFFF then 0 else t

/-- A feeder or drain transfer of the line at a scratch offset is an injection opportunity of FEED_PAR (R169, R529). -/
def CV.feed (ci : CInfo) (off : Nat) (v : CV) : CV :=
  v.parity (Pg.mxa ci.n) 2 (fun _ => scrBase + ci.l * 0x1000000 + off / 64 * 64) (fun _ => true) ci.cx

/-- What starting a matrix instruction answers: it ran (or raised its exception), or it waits at the head of the queue;
wait true means that it waits for a free shadow frame. -/
inductive Started where
  | ran (v : CV)
  | waits (pool : Bool)
  deriving DecidableEq, Repr

/-- MMODE (R133, R138). DESIGN CHOICE (log entry 84): a tile and an open pass stay in place when it changes DF or a format;
a tile keeps the format it was loaded in, and the banks' sums are read by the mode in force. -/
def mmodeRun (ci : CInfo) (idx : Nat) (o : MmodeOp) (v : CV) : Started :=
  match v.mxaPre ci false with
  | some e => .ran (v.except ci .mxa e idx)
  | none => .ran (v.onCore fun c => { c with mmode := o.word })

/-- MLOAD starts: the tile's rows are read into the loading registers (R134, R143, R262). It waits while an earlier load
has not been swapped in. -/
def mloadRun (ci : CInfo) (idx : Nat) (o : MloadOp) (v : CV) : Started :=
  if v.core.loading.isSome || v.core.back.isSome then .waits false
  else match v.mxaPre ci true with
  | some e => .ran (v.except ci .mxa e idx)
  | none =>
    let m := v.mmode
    let off := o.desc.val ci
    let k := o.kt.toNat + 1
    let n := o.nt.toNat + 1
    match o.kofs.val v.core, o.rofs.val v.core with
    | some k0, some r0 =>
      if tileK m.dens < k ∨ extMax m.dens < n then .ran (v.except ci .mxa 3 idx)
      else if ci.outside off (off + 64) then .ran (v.except ci .mxa 4 idx)
      else
        let d := v.desc ci off
        match operandBad ci o.desc off d.1 m.fc m.sc r0 n k0 k false with
        | some e => .ran (v.except ci .mxa e idx)
        | none =>
          let rows := (d.2.feed ci (rowSeg d.1 m.fc m.sc r0 k0 k).1).opRows ci d.1 m.fc m.sc r0 n k0 k
          .ran (rows.2.onCore fun c => { c with loading := some ⟨m.fc, k, rows.1, rowsRanges d.1 m.fc m.sc r0 n k0 k⟩ })
    | _, _ => .ran (v.except ci .mxa 3 idx)

/-- A tile load finishes: BACK holds the tile (R134, R143). -/
def Core.loadDone (c : Core) : Core :=
  match c.loading with
  | some t => { c with loading := none, back := some t }
  | none => c

/-- The output's checks common to MSTREAM and MDRAIN: the descriptor rules, and the overlap rules of R154 and R157. -/
def outBad (ci : CInfo) (o po : Sofs) (off poff : Nat) (od pd : TDesc) (t : Fmt) (add float : Bool) (orow n w : Nat)
    (srcs : List (Nat × Nat)) : Option Nat :=
  match operandBad ci o off od t t.isBlock orow n 0 w true with
  | some e => some e
  | none =>
    let outs := rowsRanges od t t.isBlock orow n 0 w
    let pt : Fmt := if float then .f32w else .i32
    let pbad := if add then operandBad ci po poff pd pt false orow n 0 w true else none
    match pbad with
    | some e => some e
    | none =>
      let ps := if add then rowsRanges pd pt false orow n 0 w else []
      if overlaps outs srcs then some 9
      else if add && !(decide (outs = ps) && t = pt) && overlaps outs ps then some 9
      else none

/-- MSTREAM in WS and IS (R133, R134, R141, R153, R154). -/
def mstreamWs (ci : CInfo) (idx : Nat) (o : MstreamOp) (v : CV) : Started :=
  let m := v.mmode
  if o.swap && v.core.loading.isSome then .waits false
  else match (if o.swap then v.core.back else v.core.front) with
  | none => .ran (v.except ci .mxa 2 idx)
  | some tile =>
    let cnt : Option Nat := match o.count with | .imm w => some (w.toNat + 1) | .ctr _ => o.count.val v.core
    match cnt, o.kofs.val v.core, o.rofs.val v.core, o.orow.val v.core with
    | some n, some k0, some r0, some ow =>
      let roff := o.rdesc.val ci
      let ooff := o.odesc.val ci
      let poff := o.pdesc.val ci
      if n = 0 ∨ 2 ^ 24 < n then .ran (v.except ci .mxa 3 idx)
      else if ci.outside roff (roff + 64) || ci.outside ooff (ooff + 64) || (o.add && ci.outside poff (poff + 64)) then .ran (v.except ci .mxa 4 idx)
      else
        let rd := v.desc ci roff
        let od := rd.2.desc ci ooff
        let pd := if o.add then od.2.desc ci poff else (od.1, od.2)
        let w := tile.rows.length
        let float := m.fr.ef.isSome
        match operandBad ci o.rdesc roff rd.1 m.fr m.sr r0 n k0 tile.k false with
        | some e => .ran (v.except ci .mxa e idx)
        | none =>
          match outBad ci o.odesc o.pdesc ooff poff od.1 pd.1 o.fmtO o.add float ow n w
              (rowsRanges rd.1 m.fr m.sr r0 n k0 tile.k ++ tile.src) with
          | some e => .ran (v.except ci .mxa e idx)
          | none =>
            if !v.core.framesFree ci (rowsRanges od.1 o.fmtO o.fmtO.isBlock ow n 0 w) then .waits true
            else
              let v1 := if o.swap then pd.2.onCore fun c => { c with front := c.back, back := none } else pd.2
              let v2 := ((v1.parity (Pg.mxa ci.n) 0 cellAddr (fun _ => true) ci.cx).parity (Pg.mxa ci.n) 1 cellAddr (fun _ => true) ci.cx).feed ci
                (rowSeg rd.1 m.fr m.sr r0 k0 tile.k).1
              if v2.core.failed then .ran v2
              else
                let rows := v2.opRows ci rd.1 m.fr m.sr r0 n k0 tile.k
                let sums := rows.1.map fun a => tile.rows.map fun b => chain m.fr tile.fmt (0, 0) a b
                let fl := sums.foldl (fun f r => r.foldl (fun f x => f ||| x.2) f) 0
                .ran (((rows.2.flagM ci fl).drainRows ci idx m od.1 pd.1 o.fmtO o.add ow (sums.map fun r => r.map (·.1))).perf
                  (Reg.MXA_WAVE_LO ci.n) n)
    | _, _, _, _ => .ran (v.except ci .mxa 3 idx)

/-- The OS bank that is active. -/
def Core.bank (c : Core) : List (List W64) := if c.osel then c.bank1 else c.bank0

/-- Set the active OS bank. -/
def Core.setBank (b : List (List W64)) (c : Core) : Core := if c.osel then { c with bank1 := b } else { c with bank0 := b }

/-- MSTREAM in OS (R135, R136, R142, R153). -/
def mstreamOs (ci : CInfo) (idx : Nat) (o : MstreamOp) (v : CV) : Started :=
  let m := v.mmode
  let mt := o.mt.toNat + 1
  let nt := o.nt.toNat + 1
  let cnt : Option Nat := match o.count with | .imm w => some (w.toNat + 1) | .ctr _ => o.count.val v.core
  match cnt, o.kofs.val v.core, o.rofs.val v.core with
  | some k, some k0, some r0 =>
    let roff := o.rdesc.val ci
    let coff := o.cdesc.val ci
    if k = 0 ∨ 2 ^ 24 < k ∨ extMax m.dens < mt ∨ extMax m.dens < nt then .ran (v.except ci .mxa 3 idx)
    else if (match v.core.pass with | some p => p.mt ≠ mt || p.nt ≠ nt | none => false) then .ran (v.except ci .mxa 3 idx)
    else if ci.outside roff (roff + 64) || ci.outside coff (coff + 64) then .ran (v.except ci .mxa 4 idx)
    else
      let rd := v.desc ci roff
      let cd := rd.2.desc ci coff
      match operandBad ci o.rdesc roff rd.1 m.fr m.sr r0 mt k0 k false, operandBad ci o.cdesc coff cd.1 m.fc m.sc r0 nt k0 k false with
      | some e, _ => .ran (v.except ci .mxa e idx)
      | none, some e => .ran (v.except ci .mxa e idx)
      | none, none =>
        let v2 := (cd.2.parity (Pg.mxa ci.n) 1 cellAddr (fun _ => true) ci.cx).feed ci (rowSeg rd.1 m.fr m.sr r0 k0 k).1
        if v2.core.failed then .ran v2
        else
          let ra := v2.opRows ci rd.1 m.fr m.sr r0 mt k0 k
          let rb := ra.2.opRows ci cd.1 m.fc m.sc r0 nt k0 k
          let old : List (List W64) := match v.core.pass with
            | some _ => v.core.bank
            | none => List.replicate mt (List.replicate nt 0)
          let sums := (old.zip ra.1).map fun x => (x.1.zip rb.1).map fun y => chain m.fr m.fc (y.1, 0) x.2 y.2
          let fl := sums.foldl (fun f r => r.foldl (fun f x => f ||| x.2) f) 0
          let bank := sums.map fun r => r.map (·.1)
          .ran (((rb.2.onCore fun c => { c.setBank bank with pass := some (c.pass.getD ⟨mt, nt, idx⟩) }).flagM ci fl).perf
              (Reg.MXA_WAVE_LO ci.n) (ceilDiv k (waveK m.dens)))
  | _, _, _ => .ran (v.except ci .mxa 3 idx)

/-- MSTREAM (R136, R141, R142). -/
def mstreamRun (ci : CInfo) (idx : Nat) (o : MstreamOp) (v : CV) : Started :=
  match v.mxaPre ci true with
  | some e => .ran (v.except ci .mxa e idx)
  | none => if (v.mmode).df = .os then mstreamOs ci idx o v else mstreamWs ci idx o v

/-- MDRAIN: close the pass, swap the bank, write the closed bank (R135, R144, R153, R154). -/
def mdrainRun (ci : CInfo) (idx : Nat) (o : MdrainOp) (v : CV) : Started :=
  match v.mxaPre ci true with
  | some e => .ran (v.except ci .mxa e idx)
  | none =>
    match v.core.pass, o.orow.val v.core with
    | none, _ => .ran (v.except ci .mxa 6 idx)
    | some _, none => .ran (v.except ci .mxa 3 idx)
    | some pass, some ow =>
      let m := v.mmode
      let ooff := o.odesc.val ci
      let poff := o.pdesc.val ci
      let float := m.fr.ef.isSome
      if ci.outside ooff (ooff + 64) || (o.add && ci.outside poff (poff + 64)) then .ran (v.except ci .mxa 4 idx)
      else
        let od := v.desc ci ooff
        let pd := if o.add then od.2.desc ci poff else (od.1, od.2)
        match outBad ci o.odesc o.pdesc ooff poff od.1 pd.1 o.fmtO o.add float ow pass.mt pass.nt [] with
        | some e => .ran (v.except ci .mxa e idx)
        | none =>
          if !v.core.framesFree ci (rowsRanges od.1 o.fmtO o.fmtO.isBlock ow pass.mt 0 pass.nt) then .waits true
          else
            let bank := v.core.bank
            let v2 := (pd.2.parity (Pg.mxa ci.n) 1 cellAddr (fun _ => true) ci.cx).feed ci (rowSeg od.1 o.fmtO o.fmtO.isBlock ow 0 pass.nt).1
            if v2.core.failed then .ran v2
            else
              let v3 := v2.onCore fun c => { c with pass := none, osel := !c.osel }
              .ran (v3.drainRows ci idx m od.1 pd.1 o.fmtO o.add ow bank)

/-- Start one queued matrix instruction. -/
def mxaStart (ci : CInfo) (idx : Nat) (i : CoreInsn) (v : CV) : Started :=
  match i with
  | .mmode o => mmodeRun ci idx o v
  | .mload o => mloadRun ci idx o v
  | .mstream o => mstreamRun ci idx o v
  | .mdrain o => mdrainRun ci idx o v
  | _ => .ran v

/-- The array is frozen by the debug registers (R163). -/
def CV.mxaHalted (ci : CInfo) (v : CV) : Bool := v.pg.bit (Reg.MXA_DBG_CTRL ci.n) 30

/-- A descriptor as it stands in scratch. -/
def CV.peek (off : Nat) (v : CV) : TDesc := TDesc.ofBytes ((rangeFrom off 64).map v.core.byte)

/-- What the ranges of a matrix instruction depend on besides its operands: the mode in force, columns and K extent of the tiles in
FRONT and BACK, and the extents of the open pass. -/
structure MView where
  m : MMode
  front : Option (Nat × Nat)
  back : Option (Nat × Nat)
  pass : Option (Nat × Nat)
  deriving DecidableEq, Repr

/-- The view of a core as it stands; a tile that is still loading is the one BACK will hold. -/
def MView.of (v : CV) : MView where
  m := v.mmode
  front := v.core.front.map fun t => (t.rows.length, t.k)
  back := (v.core.back.orElse fun _ => v.core.loading).map fun t => (t.rows.length, t.k)
  pass := v.core.pass.map fun p => (p.mt, p.nt)

/-- The view after an instruction. -/
def MView.after (w : MView) (i : CoreInsn) : MView :=
  match i with
  | .mmode o => { w with m := .of o.word }
  | .mload o => { w with back := some (o.nt.toNat + 1, o.kt.toNat + 1) }
  | .mstream o => if w.m.df = .os then { w with pass := some (w.pass.getD (o.mt.toNat + 1, o.nt.toNat + 1)) }
    else if o.swap then { w with front := w.back, back := none } else w
  | .mdrain _ => { w with pass := none }
  | _ => w

/-- The scratch ranges that a matrix instruction would read and those it would write, started under a view (R156). Rows past the first
131,072 would leave the scratch or repeat a row of stride 0. -/
def mxaRanges (ci : CInfo) (i : CoreInsn) (w : MView) (v : CV) : List (Nat × Nat) × List (Nat × Nat) :=
  let m := w.m
  let rows (o : Sofs) (t : Fmt) (scaled : Bool) (r0 n k0 k : Nat) : List (Nat × Nat) :=
    rowsRanges (v.peek (o.val ci)) t scaled r0 (min n 131072) k0 k
  let ix (x : Idx) : Nat := (x.val v.core).getD 0
  let out (od pd : Sofs) (t : Fmt) (add : Bool) (ow n w : Nat) : List (Nat × Nat) × List (Nat × Nat) :=
    ((od.val ci, 64) :: (if add then (pd.val ci, 64) :: rows pd (if m.fr.ef.isSome then .f32w else .i32) false ow n 0 w else []),
      rows od t t.isBlock ow n 0 w)
  match i with
  | .mload o => ((o.desc.val ci, 64) :: rows o.desc m.fc m.sc (ix o.rofs) (o.nt.toNat + 1) (ix o.kofs) (o.kt.toNat + 1), [])
  | .mstream o =>
    let n := match o.count with | .imm w => w.toNat + 1 | .ctr _ => ix o.count
    if m.df = .os then
      ((o.rdesc.val ci, 64) :: (o.cdesc.val ci, 64) :: (rows o.rdesc m.fr m.sr (ix o.rofs) (o.mt.toNat + 1) (ix o.kofs) n ++
        rows o.cdesc m.fc m.sc (ix o.rofs) (o.nt.toNat + 1) (ix o.kofs) n), [])
    else
      match (if o.swap then w.back else w.front) with
      | none => ([], [])
      | some t =>
        let x := out o.odesc o.pdesc o.fmtO o.add (ix o.orow) n t.1
        ((o.rdesc.val ci, 64) :: (x.1 ++ rows o.rdesc m.fr m.sr (ix o.rofs) n (ix o.kofs) t.2), x.2)
  | .mdrain o => match w.pass with
    | none => ([], [])
    | some p => out o.odesc o.pdesc o.fmtO o.add (ix o.orow) p.1 p.2
  | _ => ([], [])

/-- The pages of some ranges. -/
def pagesOf (rs : List (Nat × Nat)) : List Nat := rs.flatMap fun r => rangePages r.1 r.2

/-- A matrix instruction is held while an XFER instruction has still to write a page that it reads or writes (R156). -/
def mxaHeld (ci : CInfo) (i : CoreInsn) (v : CV) : Bool :=
  if v.core.outs.all fun o => o.pages.isEmpty then false
  else let r := mxaRanges ci i (.of v) v; v.core.landing (pagesOf (r.1 ++ r.2))

/-- Ranges that the queued matrix instructions dispatched before an index have still to write (R156). -/
def mxaWrites (ci : CInfo) (before : Nat) (v : CV) : List (Nat × Nat) :=
  (v.core.mxq.foldl (fun s e => ((if e.1 < before then s.1 ++ (mxaRanges ci e.2 s.2 v).2 else s.1), s.2.after e.2))
    (([] : List (Nat × Nat)), MView.of v)).1

/-- Start queued matrix instructions in order while they can start (R134, R156, R159, R260). A head that waits for a shadow
frame counts BEAT_SHFULL_CNT once (R50). -/
def mxaPump (ci : CInfo) : Nat → CV → CV
  | 0, v => v
  | fuel + 1, v =>
    if v.core.failed || v.core.mStop || v.core.mWait || v.mxaHalted ci || !v.core.mayStart 0 then v
    else match v.core.mxq with
      | [] => v
      | (idx, i) :: rest =>
        if mxaHeld ci i v then v else
        match mxaStart ci idx i v with
        | .waits pool =>
          if pool then { pg := v.pg.sat Reg.BEAT_SHFULL_CNT 1, core := { v.core with mWait := true } }
          else v
        | .ran w => mxaPump ci fuel (w.onCore fun c => if c.mStop then c else { c with mxq := rest, ord := eraseKind 0 c.ord })

end Sys2Proof.Machine
end

