-- ==== Sys2Proof/Machine/Gig.lean ====
section
/-! DEFINITION. The Gig core and its message FIFO: routines, the scalar instructions, exceptions, pops, flushes and the
level (R206 to R224, R281, R282). -/

namespace Sys2Proof.Machine

/-! ## Registers and status -/

/-- General register i; G0 reads zero (R206). -/
def Core.g (c : Core) (i : Nat) : W64 := if i = 0 then 0 else tget (fun _ => 0) c.greg i

/-- Set a general register; G0 ignores writes (R206). -/
def Core.setG (i : Nat) (w : W64) (c : Core) : Core :=
  if i = 0 then c else { c with greg := tset (fun _ => 0) c.greg i w }

/-- A Gig exception: the routine stops before the instruction takes effect, the queued calls are discarded, and the
context halts with cause EXC (R213). -/
def CV.gigExc (ci : CInfo) (code : Nat) (v : CV) : CV :=
  let run := v.core.grun
  let idx := (run.map (·.call.index)).getD 0
  let p1 := if v.pg.bit (Reg.GIG_EXC ci.n) 31 then v.pg
    else (v.pg.recordExc (Reg.GIG_EXC ci.n) false code idx).wr (Reg.GIG_EXC_PC ci.n)
      (BitVec.ofNat 32 (match run with | some r => Config.gigPc r.call.routine r.pc % 2 ^ 24 | none => 0))
  { pg := p1, core := { v.core.halt 2 code idx with gq := [], grun := none, gStop := true, ord := v.core.ord.filter (· ≠ 5) } }

/-- The second operand's value. -/
def GSrc.val (s : GSrc) (c : Core) : W64 :=
  match s with
  | .reg r => c.g r
  | .imm w => w.signExtend 64

/-! ## The message FIFO (R214 to R220) -/

/-- The idle item: HEAD 0xFFFF_FFFF, the rest zero (R214). -/
def idleItem : List Byte := List.replicate 4 0xFF ++ List.replicate 60 0

/-- The entries of an item (R214): HEAD and SRC, the payload, zeros to the end of the last entry. -/
def itemEntries (tag srcCore srcNode : Nat) (payload : List Byte) : List (List Byte) :=
  let b := payload.length
  let n := ceilDiv (8 + b) 64
  let all := bytesLE 4 (b % 1024 * 2 ^ 16 + tag % 2 ^ 16) ++ bytesLE 4 (srcCore % 128 * 2 ^ 25 + srcNode % 2 ^ 16) ++ payload ++
    List.replicate (64 * n - 8 - b) 0
  (List.range n).map fun i => slice (64 * i) 64 all

/-- Entries of a list of items. -/
def fifoEntries (l : List FifoItem) : Nat := (l.map fun i => i.entries.length).sum

/-- The fill: entries of visible items that have not been popped (R215). -/
def Core.fill (c : Core) : Nat := fifoEntries c.fifo

/-- Entries reserved: for messages still arriving, and for those held for the boundary (R215, R223). -/
def Core.rsvd (c : Core) : Nat := fifoEntries c.fifoHeld + (c.fifoResv.map (·.2)).sum

/-- GIG_FIFO_STAT shows the FIFO (R223). -/
def CV.fifoShow (ci : CInfo) (v : CV) : CV :=
  let mid := v.core.fifo.any (·.started)
  let items := (v.core.fifo.filter fun i => !i.started).length
  v.onPg (Pages.wr (Reg.GIG_FIFO_STAT ci.n) (BitVec.ofNat 32 (mid.toNat * 2 ^ 31 + v.core.fill * 2 ^ 16 + v.core.rsvd * 2 ^ 8 + items)))

/-- GIG_FIFO_STAT after a change, and the level: a crossing sets PG_INT_STAT.LEVEL and wakes a Gig in WAITF (R218,
R223). -/
def CV.fifoSync (ci : CInfo) (v : CV) : CV :=
  let fill := v.core.fill
  let p1 := (v.fifoShow ci).pg
  let level := min 64 (p1.get (Reg.GIG_FIFO_CTRL ci.n) 6 0)
  let cross := level ≠ 0 && decide (v.core.prevFill < level) && decide (level ≤ fill)
  { pg := if cross then p1.setb (Reg.PG_INT_STAT (Pg.gig ci.n)) 0 true else p1,
    core := { v.core with
      prevFill := fill
      grun := if cross then (v.core.grun.map fun r => { r with woken := true }) else v.core.grun } }

/-- A flush of the FIFO (R219): visible and held items are counted whole; a partly popped one and a partly arrived one as partial; the
latter's reservation is cancelled and FLUSH_PART set. -/
def CV.fifoFlush (ci : CInfo) (v : CV) : CV :=
  let mid := (v.core.fifo.filter (·.started)).length
  let whole := (v.core.fifo.filter fun i => !i.started).length + v.core.fifoHeld.length
  let part := (v.core.fifoResv.filter fun r => r.2 ≠ 0).length
  let p1 := (v.pg.sat (Reg.GIG_FLUSH_CNT ci.n) whole).sat (Reg.GIG_PART_CNT ci.n) (mid + part)
  let p2 := if part = 0 then p1 else p1.setb (Reg.PG_INT_STAT (Pg.gig ci.n)) 2 true
  -- the fill becomes 0 and raises nothing; the next crossing counts from 0
  ({ pg := p2, core := { v.core with fifo := [], fifoHeld := [], fifoResv := v.core.fifoResv.map fun r => (r.1, 0), prevFill := 0 } } : CV).fifoSync ci

/-- Entries that an item of b payload bytes takes (R214). -/
def itemSize (b : Nat) : Nat := ceilDiv (8 + b) 64

/-- A message is dropped whole: DROP (R215). -/
def CV.fifoDrop (ci : CInfo) (v : CV) : CV :=
  v.onPg fun p => (p.sat (Reg.GIG_DROP_CNT ci.n) 1).setb (Reg.PG_INT_STAT (Pg.gig ci.n)) 1 true

/-- Too few entries are free for an item of n, or its context is not that of the core's beat slot (R215). -/
def Core.fifoRefuses (c : Core) (sameCtx : Bool) (n : Nat) : Bool := !sameCtx || decide (64 < c.fill + c.rsvd + n)

/-- The header of a message of b bytes arrives ahead of its payload: every entry is reserved, or the message is dropped (R215). -/
def CV.fifoReserve (ci : CInfo) (key : Nat) (sameCtx : Bool) (b : Nat) (v : CV) : CV :=
  let no := v.core.fifoRefuses sameCtx (itemSize b)
  let v1 := v.onCore fun c => { c with fifoResv := c.fifoResv ++ [(key, if no then 0 else itemSize b)] }
  (if no then v1.fifoDrop ci else v1).fifoShow ci

/-- A reservation ends without its message. -/
def CV.fifoRelease (ci : CInfo) (key : Nat) (v : CV) : CV :=
  if v.core.fifoResv.any fun r => r.1 = key then
    (v.onCore fun c => { c with fifoResv := c.fifoResv.eraseP fun r => r.1 = key }).fifoShow ci
  else v

/-- The last byte of a message arrives, whose header may have come before under a key. Its item becomes visible, or in RESULT
and EXACT modes is held for the boundary; where nothing was reserved it takes its entries now, and a message that was dropped or
flushed meanwhile is gone (R215, R216, R219). Answers whether it was taken. -/
def CV.fifoArrive (ci : CInfo) (key : Option Nat) (sameCtx : Bool) (tag srcCore srcNode : Nat) (payload : List Byte) (v : CV) : Bool × CV :=
  let es := itemEntries tag srcCore srcNode payload
  let mine : Option Nat := key.bind fun p => (v.core.fifoResv.find? fun r => r.1 = p).map (·.2)
  let v1 := v.onCore fun c => { c with fifoResv := c.fifoResv.eraseP fun r => some r.1 = key }
  if mine = some 0 then (false, v1.fifoSync ci)
  else if mine.isNone && v1.core.fifoRefuses sameCtx es.length then (false, v1.fifoDrop ci)
  else
    let it : FifoItem := ⟨srcNode, srcCore, es, false, v.core.fifoTail⟩
    let c := { v1.core with fifoTail := (v.core.fifoTail + es.length) % 64 }
    (true, ({ v1 with core := if ci.mode = 0 then { c with fifo := c.fifo ++ [it] } else { c with fifoHeld := c.fifoHeld ++ [it] } } : CV).fifoSync ci)

/-- Insert a held item after those that come before it in the order of source node, then source core; equal ones keep
their arrival order (R216). -/
def itemInsert (x : FifoItem) : List FifoItem → List FifoItem
  | [] => [x]
  | y :: ys => if y.node < x.node ∨ (y.node = x.node ∧ y.core ≤ x.core) then y :: itemInsert x ys else x :: y :: ys

/-- At a boundary the held items become visible together, in source order (R216). -/
def CV.fifoReveal (ci : CInfo) (v : CV) : CV :=
  if v.core.fifoHeld.isEmpty then v
  else (v.onCore fun c => { c with fifo := c.fifo ++ c.fifoHeld.foldl (fun l x => itemInsert x l) [], fifoHeld := [] }).fifoSync ci

/-- A pop (R217): the next entry, or the idle item. -/
def CV.fifoPop (ci : CInfo) (v : CV) : List Byte × CV :=
  match v.core.fifo with
  | ⟨nd, cr, e :: es, _, sl⟩ :: rest =>
    (e, (v.onCore fun c => { c with fifo := if es.isEmpty then rest else ⟨nd, cr, es, true, (sl + 1) % 64⟩ :: rest }).fifoSync ci)
  | _ => (idleItem, v)

/-! ## Running one scalar instruction -/

/-- Advance the running routine to an instruction index, and count the instruction. -/
def CV.gigNext (ci : CInfo) (pc : Nat → Nat) (v : CV) : CV :=
  (v.onCore fun c => { c with grun := c.grun.map fun r => { r with pc := pc r.pc, held := false } }).onPg (Pages.count (Reg.GIG_INSN_LO ci.n) 1)

/-- A scalar instruction of the running routine: it executes when a routine runs, does not wait in WAITF, and the Gig is
neither frozen nor stopped; a code line with bad parity is fetched again and only counted; past the routine's code there is no
valid instruction (R209, R213, R224). -/
def gigGo (ci : CInfo) (f : GRun → CV → CV) (v : CV) : CV :=
  match v.core.grun with
  | none => v
  | some r =>
    if v.core.failed || v.core.gStop || r.waiting || v.pg.bit (Reg.GIG_DBG_CTRL ci.n) 30 then v
    else
      let a := Config.gigLine r.call.routine r.pc
      let v := { v with pg := (v.pg.detect (Pg.gig ci.n) 2 a ci.cx false).2 }
      if !v.pg.enabled (Pg.gig ci.n) then v.gigExc ci 5
      else if r.call.len ≤ r.pc then v.gigExc ci 1
      else f r v

/-- An instruction that sets RD and goes on. -/
def CV.gigSet (ci : CInfo) (rd : Nat) (w : W64) (v : CV) : CV := (v.onCore (Core.setG rd w)).gigNext ci (· + 1)

/-- ADD, SUB, AND, OR, XOR, modulo 2^64. -/
def GAlu.eval (op : GAlu) (a b : W64) : W64 :=
  match op with
  | .add => a + b | .sub => a - b | .and => a &&& b | .or => a ||| b | .xor => a ^^^ b

/-- Gig ADD, SUB, AND, OR, XOR (R282). -/
def gigAlu (ci : CInfo) (op : GAlu) (rd ra : Fin 32) (b : GSrc) (v : CV) : CV :=
  gigGo ci (fun _ v => v.gigSet ci rd (op.eval (v.core.g ra) (b.val v.core))) v

/-- Shifts by the low 6 bits. -/
def GShift.eval (op : GShift) (a b : W64) : W64 :=
  let k := b.toNat % 64
  match op with
  | .shl => a <<< k | .shr => a >>> k | .sra => a.sshiftRight k

/-- Gig SHL, SHR, SRA (R282). -/
def gigShift (ci : CInfo) (op : GShift) (rd ra : Fin 32) (b : GSrc) (v : CV) : CV :=
  gigGo ci (fun _ v => v.gigSet ci rd (op.eval (v.core.g ra) (b.val v.core))) v

/-- Gig SLT, SLTU (R282). -/
def gigSlt (ci : CInfo) (signed : Bool) (rd ra : Fin 32) (b : GSrc) (v : CV) : CV :=
  gigGo ci (fun _ v =>
    let x := v.core.g ra
    let y := b.val v.core
    v.gigSet ci rd (if (if signed then x.slt y else x.ult y) then 1 else 0)) v

/-- Gig MUL: the low 64 bits (R282). -/
def gigMul (ci : CInfo) (rd ra : Fin 32) (b : GSrc) (v : CV) : CV :=
  gigGo ci (fun _ v => v.gigSet ci rd (v.core.g ra * b.val v.core)) v

/-- DIV, DIVU, REM, REMU of a non-zero divisor. The spec names no rounding for a signed quotient that is not exact:
Config.divFloors (log entry 6). -/
def GDiv.eval (op : GDiv) (a b : W64) : W64 :=
  let q : Int := if Config.divFloors then Int.fdiv a.toInt b.toInt else Int.tdiv a.toInt b.toInt
  match op with
  | .divu => a / b
  | .remu => a % b
  | .div => BitVec.ofInt 64 q
  | .rem => BitVec.ofInt 64 (a.toInt - q * b.toInt)

/-- Gig DIV, DIVU, REM, REMU; a zero divisor raises DIVZ (R213, R282). -/
def gigDiv (ci : CInfo) (op : GDiv) (rd ra : Fin 32) (b : GSrc) (v : CV) : CV :=
  gigGo ci (fun _ v =>
    if b.val v.core = 0 then v.gigExc ci 4 else v.gigSet ci rd (op.eval (v.core.g ra) (b.val v.core))) v

/-- Gig LIH (R282). -/
def gigLih (ci : CInfo) (rd : Fin 32) (imm : W32) (v : CV) : CV :=
  gigGo ci (fun _ v => v.gigSet ci rd (join32 (lo32 (v.core.g rd)) imm)) v

/-- The address a memory operand forms, modulo 2^64 (R281). -/
def GMem.addr (m : GMem) (c : Core) : Nat :=
  (c.g m.ra + match m.src with | .reg r => c.g r <<< m.sz.val | .imm w => w.signExtend 64).toNat

/-- Bytes of an access. -/
def GMem.size (m : GMem) : Nat := if m.blk then 64 else 2 ^ m.sz.val

/-- What an access breaks: RANGE 2, then ALIGN 3 (R207, R213). -/
def GMem.bad (m : GMem) (c : Core) (lo hi : Nat) : Option Nat :=
  let a := m.addr c
  if a < lo ∨ hi < a + m.size then some 2 else if a % m.size ≠ 0 then some 3 else none

/-- A scratch access of the Gig is held while a matrix instruction dispatched before its GCALL has still to write one of its
pages (R156, R210). -/
def CV.gigHeld (ci : CInfo) (r : GRun) (m : GMem) (v : CV) : Bool :=
  !v.core.mxq.isEmpty &&
    (let w := pagesOf (mxaWrites ci r.call.index v)
     (rangePages (m.addr v.core) m.size).any fun q => q ∈ w)

/-- The routine waits at its next instruction for the scratch. -/
def CV.gigHold (v : CV) : CV := v.onCore fun c => { c with grun := c.grun.map fun r => { r with held := true } }

/-- A local-store access is an injection opportunity of LS_PAR (R224). -/
def CV.lsTouch (ci : CInfo) (a n : Nat) (v : CV) : CV :=
  v.parity (Pg.gig ci.n) 0 (fun t => if t = 0xFFFF then a else t) (fun t => decide (a ≤ t) && decide (t < a + n)) ci.cx

/-- Gig LDL: zero-extended local-store load (R282). -/
def gigLdl (ci : CInfo) (rd : Fin 32) (m : GMem) (v : CV) : CV :=
  gigGo ci (fun _ v =>
    if m.illegal rd false then v.gigExc ci 1 else
    match m.bad v.core 0 65536 with
    | some e => v.gigExc ci e
    | none =>
      let v := v.lsTouch ci (m.addr v.core) m.size
      if v.core.failed then v
      else v.gigSet ci rd (BitVec.ofNat 64 (ofBytesLE (tgetList (fun _ => 0) v.core.ls (m.addr v.core) m.size)))) v

/-- Gig STL (R282). -/
def gigStl (ci : CInfo) (rd : Fin 32) (m : GMem) (v : CV) : CV :=
  gigGo ci (fun _ v =>
    if m.illegal rd false then v.gigExc ci 1 else
    match m.bad v.core 0 65536 with
    | some e => v.gigExc ci e
    | none => (v.onCore fun c => { c with ls := tsetList (fun _ => 0) c.ls (m.addr c) (bytesLE m.size (c.g rd).toNat) }).gigNext ci (· + 1)) v

/-- Eight registers from 64 bytes. -/
def Core.setG8 (rd : Nat) (bs : List Byte) (c : Core) : Core :=
  (List.range 8).foldl (fun c i => c.setG (rd + i) (BitVec.ofNat 64 (ofBytesLE (slice (8 * i) 8 bs)))) c

/-- The 64 bytes of eight registers. -/
def Core.g8 (c : Core) (rd : Nat) : List Byte := (List.range 8).flatMap fun i => bytesLE 8 (c.g (rd + i)).toNat

/-- Gig LDS, blocks included (R206, R282). -/
def gigLds (ci : CInfo) (rd : Fin 32) (m : GMem) (v : CV) : CV :=
  gigGo ci (fun r v =>
    if m.illegal rd true then v.gigExc ci 1 else
    match m.bad v.core ci.winLo ci.winHi with
    | some e => v.gigExc ci e
    | none =>
      if v.gigHeld ci r m then v.gigHold else
      let r := v.scrRead ci (m.addr v.core) m.size
      if r.2.core.failed then r.2
      else if m.blk then (r.2.onCore (Core.setG8 rd r.1)).gigNext ci (· + 1)
      else r.2.gigSet ci rd (BitVec.ofNat 64 (ofBytesLE r.1))) v

/-- Gig STS, blocks included (R206, R282). -/
def gigSts (ci : CInfo) (rd : Fin 32) (m : GMem) (v : CV) : CV :=
  gigGo ci (fun r v =>
    if m.illegal rd true then v.gigExc ci 1 else
    match m.bad v.core ci.winLo ci.winHi with
    | some e => v.gigExc ci e
    | none =>
      if v.gigHeld ci r m then v.gigHold else
      (v.scrWriteI ci (m.addr v.core) (if m.blk then v.core.g8 rd else bytesLE m.size (v.core.g rd).toNat)).gigNext ci (· + 1)) v

/-- Gig LDP (R282). -/
def gigLdp (ci : CInfo) (rd : Fin 32) (p : BitVec 8) (v : CV) : CV :=
  gigGo ci (fun _ v => v.gigSet ci rd (ci.p p.toNat)) v

/-- Gig LDCAP: the CTX copy's entry, zero-extended (R25, R282). -/
def gigLdcap (ci : CInfo) (rd : Fin 32) (off : Nat) (v : CV) : CV :=
  gigGo ci (fun _ v => v.gigSet ci rd ((v.pg.ctxCap ci.ctx off).zeroExtend 64)) v

/-- A branch's comparison. -/
def GBr.taken (op : GBr) (a b : W64) : Bool :=
  match op with
  | .beq => a = b | .bne => a ≠ b | .blt => a.slt b | .bge => !a.slt b | .bltu => a.ult b | .bgeu => !a.ult b | .j => true

/-- Gig BEQ to BGEU and J: RA compared with RB, or with IMM where I is 1 (rb none); the target is the instruction's own index plus
IMM (R281, R282). -/
def gigBr (ci : CInfo) (op : GBr) (ra : Fin 32) (rb : Option (Fin 32)) (imm : W32) (v : CV) : CV :=
  gigGo ci (fun _ v =>
    let t := op.taken (v.core.g ra) (match rb with | some r => v.core.g r | none => imm.signExtend 64)
    v.gigNext ci fun pc => if t then ((pc : Int) + imm.toInt).toNat else pc + 1) v

/-- A pop checks the entry it reads (FIFO_PAR, R224). -/
def CV.fifoCheck (ci : CInfo) (v : CV) : CV :=
  match v.core.fifo with
  | [] => v
  | it :: _ => v.parity (Pg.gig ci.n) 1 (fun _ => it.slot) (fun t => decide (t = it.slot)) ci.cx

/-- Gig POPF (R217, R282). -/
def gigPopf (ci : CInfo) (rd : Fin 32) (v : CV) : CV :=
  gigGo ci (fun _ v =>
    if !popfOk rd then v.gigExc ci 1 else
    let v := v.fifoCheck ci
    if v.core.failed then v
    else
      let r := v.fifoPop ci
      (r.2.onCore (Core.setG8 rd r.1)).gigNext ci (· + 1)) v

/-- Gig WAITF: it ends at once when an item is visible, and waits otherwise (R218). -/
def gigWaitf (ci : CInfo) (v : CV) : CV :=
  gigGo ci (fun _ v =>
    if v.core.fifo.isEmpty then
      (v.onCore fun c => { c with grun := c.grun.map fun r => { r with waiting := true, woken := false } })
    else v.gigNext ci (· + 1)) v

/-- A waiting Gig that is not frozen resumes when an item is visible, the level was crossed, or its block is in overrun (R218, R221). -/
def gigWake (ci : CInfo) (v : CV) : CV :=
  match v.core.grun with
  | some r =>
    if r.waiting && !v.pg.bit (Reg.GIG_DBG_CTRL ci.n) 30 && !v.core.failed && (!v.core.fifo.isEmpty || r.woken || (match v.core.blk with | some b => b.overrun | none => false)) then
      (v.onCore fun c => { c with grun := some { r with waiting := false, woken := false } }).gigNext ci (· + 1)
    else v
  | none => v

/-- Gig MFLUSH (R219). -/
def gigMflush (ci : CInfo) (v : CV) : CV := gigGo ci (fun _ v => (v.fifoFlush ci).gigNext ci (· + 1)) v

/-- Gig RET: G1 goes to the return counter and the routine ends (R209). -/
def gigRet (ci : CInfo) (v : CV) : CV :=
  gigGo ci (fun r v =>
    (v.gigNext ci id).onCore fun c =>
      let c1 := match r.call.retc with | some k => c.setCtr k (c.g 1) | none => c
      { c1 with grun := none, ord := eraseKind 5 c1.ord }) v

/-- Gig TRAP (R213). -/
def gigTrap (ci : CInfo) (v : CV) : CV := gigGo ci (fun _ v => v.gigExc ci 6) v

/-- The Gig starts its next queued routine: G1 to G4 hold the arguments, every other register zero (R209). -/
def gigDispatch (ci : CInfo) (v : CV) : CV :=
  match v.core.gq, v.core.grun with
  | c :: rest, none =>
    if v.core.failed || v.core.gStop || v.pg.bit (Reg.GIG_DBG_CTRL ci.n) 30 then v
    else if !v.pg.enabled (Pg.gig ci.n) then
      (v.onCore fun k => { k with grun := some ⟨c, 0, false, false, false⟩ }).gigExc ci 5
    else (v.onCore fun k => { k with
        gq := rest
        grun := some ⟨c, 0, false, false, false⟩
        greg := (c.args.zipIdx.foldl (fun t a => tset (fun _ => 0) t (a.2 + 1) a.1) []) })
  | _, _ => v

/-- Calls queued or running. -/
def Core.gigCalls (c : Core) : Nat := c.gq.length + (if c.grun.isSome then 1 else 0)

end Sys2Proof.Machine
end

