-- ==== Sys2Proof/Machine/Wire.lean ====
section
/-! DEFINITION. CRC-32 and CRC-64, and the bytes of a packet (R225, R373 to R377). -/

namespace Sys2Proof.Machine

/-- One bit of a reflected CRC of width n. -/
def crcBit {n : Nat} (poly r : BitVec n) : BitVec n := if r.getLsbD 0 then (r >>> 1) ^^^ poly else r >>> 1

/-- One byte of a reflected CRC. -/
def crcByte {n : Nat} (poly r : BitVec n) (b : Byte) : BitVec n := iter (crcBit poly) 8 (r ^^^ b.setWidth n)

/-- The CRC-32 of IEEE 802.3. -/
def crc32 (bs : List Byte) : W32 := bs.foldl (crcByte 0xEDB88320#32) (BitVec.allOnes 32) ^^^ BitVec.allOnes 32

/-- The running register of the CRC-64 of ECMA-182, reflected (R377), over more bytes. -/
def crc64Run (r : W64) (bs : List Byte) : W64 := bs.foldl (crcByte 0xC96C5795D7870F42#64) r

/-- The CRC-64 of a transfer (R377). -/
def crc64 (bs : List Byte) : W64 := crc64Run (BitVec.allOnes 64) bs ^^^ BitVec.allOnes 64

/-- Header bytes 0 to 27 of a packet (R373). -/
def Packet.head (p : Packet) (vc : Nat) : List Byte :=
  bytesLE 2 p.dst ++ bytesLE 2 p.src ++ bytesLE 1 p.ctx ++ bytesLE 1 (p.gen % 16 * 16 + p.bank % 2 * 8 + vc % 8) ++
    bytesLE 1 p.opc ++ bytesLE 1 p.fep ++ bytesLE 6 p.addr ++
    bytesLE 2 (p.eot.toNat * 0x4000 + p.sot.toNat * 0x2000 + p.len % 0x2000) ++
    bytesLE 4 (p.beat % 8 * 2 ^ 29 + p.pseq % 64 * 2 ^ 23 + p.tag % 2 ^ 23) ++ bytesLE 8 p.ext.toNat

/-- HCRC as the header's other bytes give it, with the VC taken as zero (R373). -/
def Packet.crc (p : Packet) : W32 := crc32 (p.head 0)

/-- The packet with its HCRC set. -/
def Packet.seal (p : Packet) : Packet := { p with hcrc := p.crc }

/-- The bytes of a packet. -/
def Packet.bytes (p : Packet) : List Byte := p.head p.vc ++ bytesLE 4 p.hcrc.toNat ++ p.payload

/-- Read a packet from its bytes. -/
def Packet.parse (bs : List Byte) : Packet :=
  let f (i n : Nat) : Nat := ofBytesLE (slice i n bs)
  { dst := f 0 2
    src := f 2 2
    ctx := f 4 1
    gen := f 5 1 / 16
    bank := f 5 1 / 8 % 2
    vc := f 5 1 % 8
    opc := f 6 1
    fep := f 7 1
    addr := f 8 6
    eot := f 14 2 / 0x4000 % 2 = 1
    sot := f 14 2 / 0x2000 % 2 = 1
    len := f 14 2 % 0x2000
    beat := f 16 4 / 2 ^ 29
    pseq := f 16 4 / 2 ^ 23 % 64
    tag := f 16 4 % 2 ^ 23
    ext := BitVec.ofNat 64 (f 20 8)
    hcrc := BitVec.ofNat 32 (f 28 4)
    payload := bs.drop 32
    score := Config.packetCore (f 28 4) % 128 }

/-- Flits a packet of payload n occupies (R349, R376). -/
def flitsOf (n : Nat) : Nat := ceilDiv (32 + n) 240

/-- Cut a byte list into pieces of k bytes. -/
def chunks (k : Nat) : Nat → List Byte → List (List Byte)
  | 0, _ => []
  | n + 1, bs => bs.take k :: chunks k n (bs.drop k)

end Sys2Proof.Machine
end

