-- ==== Sys2Proof/Machine/Links.lean ====
section
/-! DEFINITION. Optical ports and links: training, lane sets, flits with acknowledgement, replay and credits, width
changes, retrains and quarantine (R341 to R372). -/

namespace Sys2Proof.Machine

/-- A link together with register space. -/
structure LV where
  pg : Pages
  lk : Link
  deriving DecidableEq, Repr

/-- Apply an update of register space. -/
def LV.onPg (f : Pages → Pages) (v : LV) : LV := { v with pg := f v.pg }

/-- Apply an update of the link. -/
def LV.onLk (f : Link → Link) (v : LV) : LV := { v with lk := f v.lk }

/-- LINK_STAT.STATE (R358). -/
def LV.st (p : Nat) (v : LV) : Nat := v.pg.get (Reg.LINK_STAT p) 31 28

/-- Set LINK_STAT.STATE; a change is a LINK_STATE telemetry event (R540). -/
def LV.setSt (p n : Nat) (v : LV) : LV :=
  if v.st p = n then v
  else v.onPg fun g =>
    let g1 := g.put (Reg.LINK_STAT p) 31 28 n
    g1.tele 7 p (n * 256 + g1.get (Reg.LINK_STAT p) 25 24) 0

/-- Lanes in service. -/
def LV.lanes (p : Nat) (v : LV) : List Nat := maskBits (BitVec.ofNat 16 (v.pg.get (Reg.LINK_STAT p) 15 0))

/-- Lanes of a MAX_WIDTH code (R346, R359). -/
def widthOf (code : Nat) : Nat := if code = 0 then 16 else if code = 1 then 8 else 4

/-- Credits of a VC at reset (R352). -/
def creditInit (vc : Nat) : Nat := if vc < 6 then 256 else if vc = 6 then 128 else 64

/-- LASER_EN follows ENABLE, HOLD_OFF and the reset pin (R343). -/
def Pages.laserEn (p : Nat) (inReset : Bool) (g : Pages) : Pages :=
  g.setb (Reg.OPE_STAT p) 30 (g.enabled (Pg.ope p) && !g.bit (Reg.LINK_CTRL p) 30 && !inReset)

/-! ## Lane sets (R347) -/

/-- The lane set of a good mask under a width limit: the first of R347's sets that lies within both. -/
def laneSet (g : BitVec 16) (limit : Nat) : Option (BitVec 16) :=
  let low : BitVec 16 := BitVec.ofNat 16 (2 ^ limit - 1)
  [0xFFFF#16, 0x00FF#16, 0xFF00#16, 0x000F#16, 0x00F0#16, 0x0F00#16, 0xF000#16].find? fun s => s &&& (g &&& low) = s

/-- Put a lane set in service, or none; CAP_PORTS [25:16] follows (R23, R364). -/
def Pages.setLanes (p : Nat) (s : Option (BitVec 16)) (g : Pages) : Pages :=
  let m := s.getD 0
  let code := if s.isNone then 3 else let n := (maskBits m).length; if n = 16 then 0 else if n = 8 then 1 else 2
  let g1 := (g.put (Reg.LINK_STAT p) 15 0 m.toNat).put (Reg.LINK_STAT p) 25 24 code
  g1.capSet (Pages.setb Reg.CAP_PORTS (16 + p) (code = 0)) [Reg.CAP_PORTS]

/-- The width limit of a port: its MAX_WIDTH and the partner's (R347). -/
def LV.limit (p : Nat) (v : LV) : Nat :=
  min (widthOf (v.pg.get (Reg.OPE_CTRL p) 17 16)) (match v.lk.peer with | some i => widthOf i.maxw | none => 16)

/-- The lane a sequence number travels on, from its Q0 (R351). -/
def LV.laneOf (p q0 q : Nat) (v : LV) : Nat :=
  let ls := v.lanes p
  ls.getD ((q + 4096 - q0) % 4096 % max 1 ls.length) 0

/-! ## Flits as they are sent (R349, R350, R355, R359) -/

/-- The 256 B of a flit: 12 B of overhead, the CRC-32 over all the rest, and 240 B of payload. -/
def flitBytes (type vc : Nat) (sop eop : Bool) (seq : Nat) (h : TxHead) (payload : List Byte) : List Byte :=
  let head := bytesLE 1 (type * 16 + vc) ++ bytesLE 1 (sop.toNat * 128 + eop.toNat * 64) ++ bytesLE 2 seq ++
    bytesLE 2 (0x8000 + h.nak.toNat * 0x4000 + h.num.toNat) ++
    bytesLE 2 (match h.credit with | some c => c.1.val * 0x2000 + 0x1000 + c.2.toNat | none => 0) ++
    bytesLE 1 (if eop then payload.length else 240) ++ bytesLE 3 0
  let body := payload ++ List.replicate (240 - payload.length) 0
  head ++ bytesLE 4 (crc32 (head ++ body)).toNat ++ body

/-- The payload of a link-control flit: its subtype in byte 0. DESIGN CHOICE (log entry 91): the good mask of a request lies where an ID flit has it. -/
def ctlPayload (sub : Nat) (mask : List Byte) : List Byte := bytesLE 8 sub ++ mask

/-- The payload of an ID flit (R359). -/
def IdFlit.payload (f : IdFlit) : List Byte :=
  bytesLE 1 1 ++ bytesLE 1 (f.nodeValid.toNat + f.role.toNat * 2 + f.reply.toNat * 4) ++ bytesLE 2 f.node.toNat ++ bytesLE 1 f.port.val ++
    [f.fenceEp, f.cfgEp] ++ bytesLE 1 f.maxw.val ++ bytesLE 2 f.good.toNat ++ bytesLE 6 0 ++ bytesLE 8 f.serial.toNat ++
    bytesLE 8 f.t1.toNat ++ bytesLE 8 f.t2.toNat ++ bytesLE 8 f.t3.toNat ++ bytesLE 2 f.rxNext.toNat

/-- The bytes of a sequenced flit: DATA, or link control. -/
def Flit.wire (h : TxHead) (f : Flit) : List Byte :=
  match f.ctl with
  | some sub => flitBytes 3 0 false false f.seq h (ctlPayload sub f.bytes)
  | none => flitBytes 1 f.vc f.sop f.eop f.seq h f.bytes

/-- The bytes of a flit that this end sends. -/
def TxFlit.wire : TxFlit → List Byte
  | .seqd h f | .resent h f => f.wire h
  | .idle h => flitBytes 0 0 false false 0 h []
  | .sync h fbc => flitBytes 2 0 false false 0 h (bytesLE 8 fbc.toNat)
  | .id h f => flitBytes 3 0 false false 0 h f.payload

/-! ## Sending -/

/-- Sequenced flits outstanding. -/
def Link.outstanding (l : Link) : Nat := (l.txSeq + 4096 - l.txAck) % 4096

/-- The ACK field that a flit carries now (R353). -/
def Link.ackHead (l : Link) : TxHead := ⟨false, BitVec.ofNat 12 (l.rxSeq + 4095), none⟩

/-- The oldest VC, lowest number first, whose credits this end owes. -/
def Link.owes (l : Link) : Option (Fin 8) := (List.finRange 8).find? fun vc => decide (0 < tget (fun _ => 0) l.owed vc.val)

/-- The overhead of the next flit sent, which is the sequenced flit of a number, or none: a NAK that is due, else the ACK, and the credits owed of one
VC, at most 4,095. Those in a sequenced flit stay uncommitted until an ACK covers it (R352, R353). -/
def LV.head (p : Nat) (q : Option Nat) (v : LV) : TxHead × LV :=
  let l := v.lk
  let n := match l.owes with | some vc => min 4095 (tget (fun _ => 0) l.owed vc.val) | none => 0
  ({ nak := !l.nak.isEmpty
     num := match l.nak.head? with | some m => BitVec.ofNat 12 m | none => l.ackHead.num
     credit := l.owes.map fun vc => (vc, BitVec.ofNat 12 n) },
   { pg := if l.nak.isEmpty then v.pg else v.pg.sat (Reg.LINK_NAK_CNT p) 1
     lk := { l with
       naked := l.naked ++ l.nak.take 1
       nak := l.nak.drop 1
       told := if l.nak.isEmpty then l.rxSeq else l.told
       owed := match l.owes with | some vc => tmod (fun _ => 0) l.owed vc.val (· - n) | none => l.owed
       uncom := match q, l.owes with | some q, some vc => l.uncom ++ [(q, vc, n)] | _, _ => l.uncom } })

/-- Hand a sequenced flit to the serialiser and keep it for replay (R353). -/
def LV.sendSeqd (p : Nat) (f : Flit) (v : LV) : LV :=
  let f1 := { f with seq := v.lk.txSeq }
  let r := v.head p (some f1.seq)
  (r.2.onPg (Pages.count (Reg.LINK_TXF_LO p) 1)).onLk fun l =>
    { l with txSeq := (l.txSeq + 1) % 4096, replay := l.replay ++ [(f1, 0)], sent := .seqd r.1 f1 :: l.sent }

/-- No lane's replay buffer of 64 is full before each of n more flits is sent (R353). -/
def LV.replayRoom (p n : Nat) (v : LV) : Bool :=
  (v.lanes p).all fun ln =>
    decide ((v.lk.replay.filter fun e => v.laneOf p v.lk.q0 e.1.seq = ln).length +
      ((List.range (n - 1)).filter fun i => v.laneOf p v.lk.q0 ((v.lk.txSeq + i) % 4096) = ln).length < 64)

/-- Send the link-control flits that wait, while the replay buffers have room (R353). -/
def LV.ctlPump (p : Nat) : Nat → LV → LV
  | 0, v => v
  | k + 1, v =>
    match v.lk.ctl with
    | [] => v
    | f :: fs => if v.replayRoom p 1 then LV.ctlPump p k ((v.onLk fun l => { l with ctl := fs }).sendSeqd p f) else v

/-- Send a link-control flit of a subtype, carrying a good mask, or hold it until the replay buffers have room (R350, R353, R364). -/
def LV.sendCtl (p sub : Nat) (m : BitVec 16) (v : LV) : LV :=
  (v.onLk fun l => { l with ctl := l.ctl ++ [⟨0, some sub, 0, false, false, bytesLE 2 m.toNat⟩] }).ctlPump p (v.lk.ctl.length + 1)

/-- Send IDLE flits while an ACK, a NAK or credits wait for a flit (R350). DESIGN CHOICE (log entry 91): of the IDLE flits that fill a free link, those that
tell nothing new are not recorded. -/
def LV.idle (p : Nat) : Nat → LV → LV
  | 0, v => v
  | k + 1, v =>
    if (v.st p = 6 ∨ v.st p = 7) ∧ (v.lk.nak ≠ [] ∨ v.lk.told ≠ v.lk.rxSeq ∨ v.lk.owes.isSome) then
      let r := v.head p none
      LV.idle p k (r.2.onLk fun l => { l with sent := .idle r.1 :: l.sent })
    else v

/-- Start a retrain with a cause: at LASER_CHECK for LASER, else at LOCK; buffers, credits and sequence state stay
(R358, R361, R371). -/
def LV.retrain (p cause : Nat) (v : LV) : LV :=
  let g := (((v.setSt p (if cause = 7 then 1 else 2)).pg).put (Reg.LINK_STAT p) 23 20 cause).sat (Reg.LINK_RETRAIN_CNT p) 1
  let g1 := if cause = 4 ∨ cause = 5 then g.raise (Pg.link p) 2 0 none else if cause = 10 then g.raise (Pg.link p) 5 0 none else g
  { pg := g1
    lk := { v.lk with req := none, retrainAfter := false, again := false, newSet := none, nak := [], naked := [], timeouts := 0, waiting := false,
                      ctl := [], swIn := false, cold := cause = 7, peer := none, replied := false } }

/-- Resend the replay entries that satisfy a test: the eighth resend of one flit retrains, and so does a parity error of
the buffer (R353, R354). -/
def LV.resend (p : Nat) (t : Flit → Bool) (v : LV) : LV :=
  let hit := v.lk.replay.filter fun e => t e.1
  let n := hit.length
  if n = 0 then v
  else
    let par := v.pg.detect (Pg.link p) 6 (v.laneOf p v.lk.q0 ((hit.head?.map (·.1.seq)).getD 0)) none false
    let v1 : LV := { v with pg := par.2 }
    if par.1 then v1.retrain p 8
    else
      let v2 := hit.foldl (fun v e => let r := v.head p (some e.1.seq); r.2.onLk fun l => { l with sent := .resent r.1 e.1 :: l.sent })
        ((v1.onPg fun g => (g.count (Reg.LINK_REPLAY_LO p) n).count (Reg.LINK_TXF_LO p) n).onLk fun l =>
          { l with replay := l.replay.map fun e => if t e.1 then (e.1, e.2 + 1) else e })
      if v2.lk.replay.any fun e => decide (8 ≤ e.2) then v2.retrain p 4 else v2

/-- Credits held for a VC. -/
def Link.credit (l : Link) (vc : Nat) : Nat := tget creditInit l.credits vc

/-- The link takes a packet of a VC now: ACTIVE, not looped back, with no request outstanding, credits for all its flits beyond the 8 that
VCs 4 and 5 reserve for VOTE and RESULT, and replay room (R353, R364, R368, R385, R386). -/
def LV.canSend (p vc n : Nat) (conf : Bool) (v : LV) : Bool :=
  decide (v.st p = 6) && decide (v.pg.get (Reg.OPE_CTRL p) 25 24 ≠ 1) && v.lk.req ≠ some true &&
    decide (n + (if (vc = 4 ∨ vc = 5) ∧ !conf then 8 else 0) ≤ v.lk.credit vc) && v.replayRoom p n

/-- Send a packet as consecutive DATA flits (R349). -/
def LV.sendPacket (p : Nat) (k : Packet) (v : LV) : LV :=
  let bs := k.bytes
  let n := ceilDiv bs.length 240
  let fs := (chunks 240 n bs).zipIdx.map fun c => (⟨0, none, k.vc, c.2 = 0, c.2 + 1 = n, c.1⟩ : Flit)
  (fs.foldl (fun v f => v.sendSeqd p f) v).onLk fun l =>
    { l with credits := tset creditInit l.credits k.vc (l.credit k.vc - n) }

/-! ## Acknowledgement and credit fields (R349, R352 to R354) -/

/-- The credits that the flit of a number carried are owed again: the partner says that it did not arrive (R352). -/
def Link.unreturn (q : Nat) (l : Link) : Link :=
  { l with owed := (l.uncom.filter fun e => e.1 = q).foldl (fun o e => tmod (fun _ => 0) o e.2.1.val (· + e.2.2)) l.owed
           uncom := l.uncom.filter fun e => e.1 ≠ q }

/-- Process an ACK or NAK field. A NAK owes the credits of the flit that it names again; an ACK commits those of the flits that it covers. -/
def LV.rxAck (p : Nat) (nak : Bool) (q : Nat) (v : LV) : LV :=
  let out := v.lk.outstanding
  let d := (q + (if nak then 0 else 1) + 4096 - v.lk.txAck) % 4096
  if nak then
    (if out ≤ d then v.retrain p 10
     else
       let ln := v.laneOf p v.lk.q0 q
       (v.onLk (Link.unreturn q)).resend p fun f => v.laneOf p v.lk.q0 f.seq = ln && decide ((q + 4096 - v.lk.txAck) % 4096 ≤ (f.seq + 4096 - v.lk.txAck) % 4096))
  else if out < d then v.retrain p 10
  else v.onLk fun l =>
    { l with replay := l.replay.filter fun e => decide (d ≤ (e.1.seq + 4096 - l.txAck) % 4096),
             uncom := l.uncom.filter fun e => decide (d ≤ (e.1 + 4096 - l.txAck) % 4096),
             txAck := (l.txAck + d) % 4096, timeouts := if d = 0 then l.timeouts else 0 }

/-- Add credits that the partner returns. -/
def Link.addCredit (vc n : Nat) (l : Link) : Link := { l with credits := tset creditInit l.credits vc (l.credit vc + n) }

/-- Process the overhead of a good flit. -/
def LV.rxHead (p : Nat) (rx : FlitRx) (v : LV) : LV :=
  let v1 := match rx.credit with | some (vc, n) => v.onLk (Link.addCredit vc.val n.toNat) | none => v
  match rx.ack with
  | some (nak, q) => v1.rxAck p nak q.toNat
  | none => v1

/-- The lowest sequence number that is missing on a lane (R353). -/
def LV.missing (p ln : Nat) (v : LV) : Option Nat :=
  ((List.range 1025).map fun i => (v.lk.rxSeq + i) % 4096).find? fun q =>
    v.laneOf p v.lk.rxQ0 q = ln && v.lk.reorder.all fun f => f.seq ≠ q

/-- A flit that arrives bad is discarded and counted (R348, R350). -/
def LV.rxLost (p : Nat) (rx : FlitRx) (v : LV) : LV :=
  let v1 := v.onPg (Pages.sat (Reg.LINK_CRC_CNT p) 1)
  let v2 := if rx.ucw then v1.onPg fun g => (g.count (Reg.LINK_UCW_LO p) 1).raise (Pg.link p) 1 rx.lane.val none else v1
  v2.onPg (Pages.raise (Pg.link p) 0 rx.lane.val none)

/-- A NAK for a missing flit is due, unless one is due or sent already. -/
def Link.setNak (q : Nat) (l : Link) : Link := if q ∈ l.nak ∨ q ∈ l.naked then l else { l with nak := l.nak ++ [q] }

/-- A sequenced flit arrives bad: a NAK is set for the lowest number that its lane misses, again where a new codeword spoilt the resent flit (R353).
DESIGN CHOICE (log entry 91): the flits that one codeword spoils set one NAK, as in the worked example of the chapter. -/
def LV.rxBad (p : Nat) (rx : FlitRx) (v : LV) : LV :=
  let v3 := v.rxLost p rx
  match v3.missing p rx.lane.val with
  | some q => v3.onLk fun l => Link.setNak q (if rx.ucw then { l with naked := l.naked.filter (· ≠ q) } else l)
  | none => v3

/-! ## Width changes and requests (R364, R366) -/

/-- This end leads in a collision (R366). -/
def LV.leads (p : Nat) (v : LV) : Bool :=
  let me := v.pg.get Reg.CAP_NODE 15 0
  if v.pg.bit Reg.CAP_NODE 31 && v.pg.bit (Reg.LINK_PEER_ID p) 31 then decide (me < v.pg.get (Reg.LINK_PEER_ID p) 15 0)
  else decide ((v.pg.rd64 Reg.DEV_SERIAL_LO).toNat < (v.pg.rd64 (Reg.LINK_PEER_SER_LO p)).toNat)

/-- Request a width change. -/
def LV.reqWidth (p : Nat) (v : LV) : LV :=
  if v.st p = 6 ∧ v.lk.req = none then (v.sendCtl p 2 v.lk.good).onLk fun l => { l with req := some true } else v

/-- Compute the new set from both masks and enter WIDTH_CHANGE. -/
def LV.beginWidth (p : Nat) (peerGood : BitVec 16) (v : LV) : LV :=
  match laneSet (v.lk.good &&& peerGood) (v.limit p) with
  | none => v.retrain p 11
  | some s => (v.setSt p 7).onLk fun l => { l with newSet := some s, req := none }

/-- The partner's WIDTH_REQ: an own request for a retrain that gives way is made again when the width change has ended. -/
def LV.ctlWidthReq (p : Nat) (g : BitVec 16) (v : LV) : LV :=
  if v.st p ≠ 6 then v
  else
    let v1 := if v.lk.req.isSome then v.onPg (Pages.sat (Reg.LINK_COLLIDE p) 1) else v
    if v.lk.req.isSome && v.leads p then v1
    else
      let v2 := (v1.onLk fun l => { l with again := l.again || l.req = some false }).beginWidth p g
      if v2.st p = 7 then (v2.sendCtl p 4 v2.lk.good).sendCtl p 5 0 else v2

/-- The partner's RETRAIN_REQ. -/
def LV.ctlRetrainReq (p : Nat) (v : LV) : LV :=
  if v.st p = 7 then v.onLk fun l => { l with retrainAfter := true }
  else if v.st p ≠ 6 then v
  else
    let v1 := if v.lk.req.isSome then v.onPg (Pages.sat (Reg.LINK_COLLIDE p) 1) else v
    if v.lk.req.isSome && v.leads p then v1
    else (v1.sendCtl p 4 v1.lk.good).retrain p (if v.lk.req = some false then 1 else 2)

/-- The partner's ACCEPT. -/
def LV.ctlAccept (p : Nat) (g : BitVec 16) (v : LV) : LV :=
  match v.lk.req with
  | some true =>
    let v1 := v.beginWidth p g
    if v1.st p = 7 then v1.sendCtl p 5 0 else v1
  | some false => v.retrain p 1
  | none => v

/-- A width change has ended: a request whose condition still holds is made, for a retrain or for a lane in service that is not good (R363, R366). -/
def LV.recheck (p : Nat) (v : LV) : LV :=
  if v.st p ≠ 6 then v
  else if (v.lanes p).all fun l => !wbit v.lk.good l then v.retrain p 6
  else if v.lk.again then (v.sendCtl p 3 v.lk.good).onLk fun l => { l with req := some false, again := false }
  else if (v.lanes p).any fun l => !wbit v.lk.good l then v.reqWidth p
  else v

/-- Both SWITCH flits have passed: the new set enters service, Q0 follows the SWITCH flits, and unacknowledged flits are resent; a retrain that the
partner asked for meanwhile follows. -/
def LV.doSwitch (p : Nat) (v : LV) : LV :=
  match v.lk.newSet with
  | none => v
  | some s =>
    let v1 := (((v.onPg fun g => (g.setLanes p (some s)).sat (Reg.LINK_WIDTH_CNT p) 1).setSt p 6).onLk fun l =>
      { l with newSet := none, swIn := false, q0 := l.txSeq, rxQ0 := l.rxSeq }).resend p fun _ => true
    if v1.lk.retrainAfter then (v1.sendCtl p 4 v1.lk.good).retrain p 2 else v1.recheck p

/-- The partner's SWITCH: it waits for the own SWITCH, which the replay buffers may hold back. -/
def LV.ctlSwitch (p : Nat) (v : LV) : LV :=
  if v.lk.newSet.isNone then v else if v.lk.ctl = [] then v.doSwitch p else v.onLk fun l => { l with swIn := true }

/-- What an event of the link leaves to be sent: link-control flits that waited for room, the lanes of a SWITCH that waited for one of them, and IDLE. -/
def LV.settle (p : Nat) (v : LV) : LV :=
  let v1 := v.ctlPump p v.lk.ctl.length
  (if v1.lk.swIn ∧ v1.lk.ctl = [] then v1.doSwitch p else v1).idle p (v1.lk.nak.length + 9)

/-! ## Receiving sequenced flits (R350, R351, R360) -/

/-- The receiver frees flits of a VC: it owes the partner their credits (R352). -/
def Link.owe (vc n : Nat) (l : Link) : Link := { l with owed := tmod (fun _ => 0) l.owed vc (· + n) }

/-- Deliver one flit in order: DATA bytes join the packet, whose last flit yields it; link control acts. In QUARANTINE a
packet of a VC other than 7 is dropped whole. -/
def LV.deliver (p : Nat) (f : Flit) (v : LV) : List Packet × LV :=
  let v1 := v.onLk fun l => { l with rxSeq := (l.rxSeq + 1) % 4096 }
  let m : BitVec 16 := BitVec.ofNat 16 (ofBytesLE f.bytes)
  match f.ctl with
  | some 2 => ([], v1.ctlWidthReq p m)
  | some 3 => ([], v1.ctlRetrainReq p)
  | some 4 => ([], v1.ctlAccept p m)
  | some 5 => ([], v1.ctlSwitch p)
  | some _ => ([], v1)
  | none =>
    let bs := if f.sop then f.bytes else v1.lk.part ++ f.bytes
    let drop := (decide (v1.pg.get (Reg.LINK_STAT p) 27 26 ≠ 0) && decide (f.vc ≠ 7)) || (!f.sop && v1.lk.dropping)
    let v2 := (if drop then v1 else v1.onPg (Pages.count (Reg.LINK_RXF_LO p) 1)).onLk fun l =>
      { l with part := if f.eop then [] else bs, dropping := drop && !f.eop }
    if !f.eop then ([], v2)
    else if drop then
      ([], (v2.onPg (Pages.sat (Reg.LINK_QUAR_DROP p) 1)).onLk (Link.owe f.vc (ceilDiv bs.length 240)))
    else ([Packet.parse bs], v2)

/-- Deliver from the reorder buffer while the next flit is there. An entry that fails its parity check is lost, and the link retrains (R372). -/
def LV.drain (p : Nat) : Nat → LV → List Packet × LV
  | 0, v => ([], v)
  | k + 1, v =>
    match v.lk.reorder.find? fun f => f.seq = v.lk.rxSeq with
    | none => ([], v)
    | some f =>
      let par := v.pg.detect (Pg.link p) 6 (v.laneOf p v.lk.rxQ0 f.seq) none false
      let v1 := ({ v with pg := par.2 } : LV).onLk fun l => { l with reorder := l.reorder.filter fun x => x.seq ≠ f.seq }
      if par.1 then ([], v1.retrain p 8) else
      let r := v1.deliver p f
      let r2 := LV.drain p k r.2
      (r.1 ++ r2.1, r2.2)

/-- Receive a sequenced flit: only ACTIVE and WIDTH_CHANGE links carry them. -/
def LV.rxSeqd (p : Nat) (rx : FlitRx) (f : Flit) (v : LV) : List Packet × LV :=
  if v.st p ≠ 6 ∧ v.st p ≠ 7 then ([], v)
  else
    let inj := v.pg.fire (Pg.link p) 0 p
    let v0 : LV := { v with pg := inj.2 }
    if rx.bad || inj.1 then ([], v0.rxBad p rx)
    else if rx.rsvdType then ([], v0.retrain p 10)
    else
      let v1 := v0.rxHead p rx
      if v1.st p ≠ 6 ∧ v1.st p ≠ 7 then ([], v1)
      else
        let d := (f.seq + 4096 - v1.lk.rxSeq) % 4096
        if 2048 ≤ d ∨ (v1.lk.reorder.any fun x => x.seq = f.seq) then ([], v1)
        else if d = 0 then
          let r := v1.deliver p f
          let r2 := r.2.drain p (r.2.lk.reorder.length + 1)
          (r.1 ++ r2.1, r2.2.onLk fun l => { l with naked := l.naked.filter fun q => decide ((q + 4096 - l.rxSeq) % 4096 < 2048) })
        else
          let v2 := if v1.lk.reorder.length < 64 * (v1.lanes p).length then
              v1.onLk fun l => { l with reorder := l.reorder ++ [f] } else v1
          match v2.missing p (v2.laneOf p v2.lk.rxQ0 f.seq) with
          | some q =>
            ([], if (q + 4096 - v2.lk.rxSeq) % 4096 < d then v2.onLk (Link.setNak q) else v2)
          | none => ([], v2)

/-- An IDLE flit delivers its ACK, NAK and CREDIT fields (R350). -/
def LV.rxIdle (p : Nat) (rx : FlitRx) (v : LV) : LV :=
  if v.st p ≠ 6 ∧ v.st p ≠ 7 then v
  else if rx.bad then v.rxLost p rx
  else if rx.rsvdType then v.retrain p 10
  else v.rxHead p rx

/-- No ACK advanced for 2 µs (R354). -/
def LV.ackTimeout (p : Nat) (v : LV) : LV :=
  if (v.st p = 6 ∨ v.st p = 7) ∧ v.lk.outstanding ≠ 0 then
    (if 3 ≤ v.lk.timeouts then v.retrain p 5
     else (v.onLk fun l => { l with timeouts := l.timeouts + 1 }).resend p fun _ => true)
  else v

/-! ## Training (R343, R344, R358 to R362) -/

/-- The link goes OFF, or to FAILED, and drops its lanes. -/
def LV.dark (p st : Nat) (v : LV) : LV :=
  ((v.setSt p st).onPg fun g => ((g.setLanes p none).put (Reg.LINK_STAT p) 27 26 0).put (Reg.OPE_STAT p) 15 0 0).onLk fun l =>
    { l with discard := true, cold := true, waiting := false, peer := none, replied := false, req := none,
             newSet := none, retrainAfter := false, again := false, nak := [], naked := [], ctl := [], swIn := false }

/-- Training starts from OFF. -/
def LV.trainStart (p : Nat) (v : LV) : LV :=
  if v.st p = 0 && v.pg.enabled (Pg.ope p) && v.pg.enabled (Pg.link p) && !v.pg.bit (Reg.LINK_CTRL p) 30 then
    (((v.onPg (Pages.laserEn p false)).setSt p 1).onPg (Pages.put (Reg.LINK_STAT p) 23 20 9)).onLk fun l => { l with cold := true, waiting := false }
  else v

/-- A TX_MON code reads inside the power window, +9.0 to +16.0 dBm in 0.1 dBm (R344, R589). -/
def monOk (b : Byte) : Bool := decide (90 ≤ b.toInt) && decide (b.toInt ≤ 160)

/-- LASER_CHECK passes: a lane below MAX_WIDTH whose monitor reads outside the window is marked not good; lanes above it are not checked (R344, R346). -/
def LV.laserPass (p : Nat) (mon : List Byte) (v : LV) : LV :=
  if v.st p = 1 ∧ !v.lk.waiting then
    let w := widthOf (v.pg.get (Reg.OPE_CTRL p) 17 16)
    let v1 := v.onPg fun g => mon.zipIdx.foldl (fun g m => g.put (Reg.OPE_LANE p m.2) 31 24 m.1.toNat) (g.setb (Reg.OPE_STAT p) 31 true)
    let ok := (mon.zipIdx.filter fun m => decide (m.2 < w) && !monOk m.1).foldl (fun b m => b &&& ~~~(bitMask 16 m.2)) 0xFFFF#16
    (v1.setSt p 2).onLk fun l => { l with laser := ok }
  else v

/-- LOCK is done for a set of lanes: of the lanes that LASER_CHECK did not mark, those stay good. -/
def LV.lockDone (p : Nat) (locked : BitVec 16) (v : LV) : LV :=
  if v.st p = 2 ∧ !v.lk.waiting then
    ((v.setSt p 3).onPg (Pages.put (Reg.OPE_STAT p) 15 0 locked.toNat)).onLk fun l => { l with good := l.laser &&& locked }
  else v

/-- EQ is done; the lanes that passed it stay good and leave OPE_LANE_FAIL (R358, R363). -/
def LV.eqDone (p : Nat) (passed : BitVec 16) (v : LV) : LV :=
  if v.st p = 3 ∧ !v.lk.waiting then
    ((v.setSt p 4).onLk fun l => { l with good := l.good &&& passed, cold := false, failWin := [] }).onPg
      (Pages.upd (Reg.OPE_LANE_FAIL p) fun w => w &&& ~~~((v.lk.good &&& passed).setWidth 32))
  else v

/-- The ID flit of this end (R359), with its configuration epoch, and the times of R356. -/
def LV.ownId (p ep : Nat) (reply : Bool) (t1 t2 t3 : W64) (v : LV) : IdFlit where
  nodeValid := v.pg.bit Reg.CAP_NODE 31
  role := v.pg.isDareder
  reply := reply
  node := if v.pg.bit Reg.CAP_NODE 31 then BitVec.ofNat 16 (v.pg.get Reg.CAP_NODE 15 0) else 0
  port := Fin.ofNat 16 p
  fenceEp := BitVec.ofNat 8 (v.pg.get Reg.RTR_FEP 7 0)
  cfgEp := BitVec.ofNat 8 ep
  maxw := Fin.ofNat 4 (v.pg.get (Reg.OPE_CTRL p) 17 16)
  good := v.lk.good
  serial := v.pg.rd64 Reg.DEV_SERIAL_LO
  t1 := t1
  t2 := t2
  t3 := t3
  rxNext := BitVec.ofNat 12 v.lk.rxSeq

/-- Send an ID flit: it carries an ACK as every flit does, and no credits (log entry 91). -/
def LV.sendId (p ep : Nat) (reply : Bool) (t1 t2 t3 : W64) (v : LV) : LV :=
  v.onLk fun l => { l with sent := .id l.ackHead (v.ownId p ep reply t1 t2 t3) :: l.sent }

/-- Lanes are aligned; the ID exchange starts with the own ID flit, whose good mask leaves out the lanes of LANE_DIS and those above MAX_WIDTH (R346,
R347). -/
def LV.alignDone (p ep : Nat) (v : LV) : LV :=
  if v.st p = 4 ∧ !v.lk.waiting then
    ((v.setSt p 5).onLk fun l =>
      { l with peer := none, replied := false
               good := l.good &&& ~~~(BitVec.ofNat 16 (v.pg.get (Reg.OPE_CTRL p) 15 0)) &&&
                 BitVec.ofNat 16 (2 ^ widthOf (v.pg.get (Reg.OPE_CTRL p) 17 16) - 1) }).sendId p ep false v.pg.fbc 0 0
  else v

/-- An ID flit arrives at own time now: a bad one is discarded and counted; the partner is recorded, a reply completes the delay measurement, and a
first ID flit is answered as it arrives (R350, R356, R359). -/
def LV.rxId (p ep : Nat) (rx : FlitRx) (i : IdFlit) (now : W64) (v : LV) : LV :=
  if v.st p ≠ 5 then v
  else if rx.bad then v.rxLost p rx
  else if rx.rsvdType then v.retrain p 10
  else
    let g := ((v.pg.wr64 (Reg.LINK_PEER_SER_LO p) i.serial).wr (Reg.LINK_PEER_ID p)
      (BitVec.ofNat 32 (i.nodeValid.toNat * 2 ^ 31 + i.role.toNat * 2 ^ 30 + (v.pg.get (Reg.LINK_PEER_ID p) 29 29) * 2 ^ 29 +
        i.port.val * 2 ^ 24 + i.node.toNat))).wr (Reg.LINK_PEER_EPOCH p) (BitVec.ofNat 32 (i.cfgEp.toNat * 256 + i.fenceEp.toNat))
    let d : Int := (((now - i.t1).toInt) - ((i.t3 - i.t2).toInt)) / 2
    let v1 : LV := { v with pg := if i.reply then g.put (Reg.LINK_DELAY p) 15 0 (ofSigned 16 d) else g }
    let v2 := v1.onLk fun l => { l with peer := some i, replied := l.replied || i.reply }
    if i.reply then v2 else v2.sendId p ep true i.t1 now now

/-- The ID flit is resent until the reply arrives. -/
def LV.idResend (p ep : Nat) (v : LV) : LV :=
  if v.st p = 5 ∧ !v.lk.replied then v.sendId p ep false v.pg.fbc 0 0 else v

/-- An attempt fails: TRIES rises, and after MAX_TRIES the link enters FAILED (R358). -/
def LV.tryFail (p : Nat) (v : LV) : LV :=
  let t := min 15 (v.pg.get (Reg.LINK_STAT p) 19 16 + 1)
  let v1 := v.onPg (Pages.put (Reg.LINK_STAT p) 19 16 t)
  let o := v1.pg.holds (Pg.link p) 3 0 (decide (max 1 (v.pg.get (Reg.LINK_CTRL p) 11 8) ≤ t))
  let v1 : LV := { v1 with pg := o.2 }
  if o.1 then (v1.dark p 8).onPg (Pages.raise (Pg.link p) 3 0 none)
  else v1.onLk fun l => { l with waiting := true }

/-- QUARANTINE's cause: 2 MISWIRE, 1 EPOCH, 0 none (R360). -/
def LV.quarCause (p : Nat) (i : IdFlit) (v : LV) : Nat :=
  if p < 8 ∧ i.port.val < 8 ∧ i.port.val ≠ (if p % 2 = 0 then p + 1 else p - 1) then 2
  else if v.pg.bit (Reg.LINK_CTRL p) 16 ∧ i.fenceEp.toNat ≠ v.pg.get (Reg.LINK_EXP_EPOCH p) 7 0 then 1 else 0

/-- Discard buffers and sequence state (R362). -/
def LV.discardAll (p : Nat) (v : LV) : LV :=
  let n := (v.lk.replay.filter fun e => e.1.ctl = none).length + (v.lk.reorder.filter fun f => f.ctl = none).length
  (v.onPg (Pages.sat (Reg.LINK_DISCARD p) n)).onLk fun l =>
    { l with replay := [], reorder := [], part := [], dropping := false, txSeq := 0, txAck := 0, rxSeq := 0, q0 := 0, rxQ0 := 0,
             told := 0, nak := [], naked := [], ctl := [], swIn := false, credits := [], owed := [], uncom := [] }

/-- ID_EXCHANGE ends: the lane set is chosen and the link enters ACTIVE, resuming its buffers with the same partner or
discarding them (R347, R360 to R362). -/
def LV.idDone (p us : Nat) (v : LV) : LV :=
  match v.st p, v.lk.peer, v.lk.replied with
  | 5, some i, true =>
    match laneSet (v.lk.good &&& i.good) (v.limit p) with
    | none => (v.onPg (Pages.put (Reg.LINK_STAT p) 23 20 11)).tryFail p
    | some s =>
      let o := v.pg.holds (Pg.link p) 4 0 false
      let v : LV := { v with pg := o.2 }
      let q := if o.1 ∧ v.quarCause p i = 0 then 1 else v.quarCause p i
      let same := !v.lk.discard && v.lk.lastSer = some i.serial
      let v1 := if same then v else v.discardAll p
      let v2 := (((v1.onPg (Pages.setLanes p (some s))).setSt p 6).onPg fun g =>
        (((g.put (Reg.LINK_STAT p) 27 26 q).put (Reg.LINK_STAT p) 19 16 0).setb
          (Reg.LINK_PEER_ID p) 29 true).put (Reg.LINK_TRAIN_LAST p) 15 0 (min us 65535)).onLk fun l =>
        { l with lastSer := some i.serial, discard := false, timeouts := 0 }
      let v3 := if q = 0 then v2 else v2.onPg (Pages.raise (Pg.link p) 4 0 none)
      if same then
        let d := (i.rxNext.toNat + 4096 - v3.lk.txAck) % 4096
        let v4 := if d ≤ v3.lk.outstanding then v3.onLk fun l =>
            { l with replay := (l.replay.filter fun e => decide (d ≤ (e.1.seq + 4096 - l.txAck) % 4096)).map fun e => (e.1, 0),
                     txAck := i.rxNext.toNat, q0 := i.rxNext.toNat, rxQ0 := l.rxSeq } else v3
        v4.resend p fun _ => true
      else v3
  | _, _, _ => v

/-- A training state passes its limit. -/
def LV.trainTimeout (p : Nat) (v : LV) : LV :=
  if 1 ≤ v.st p ∧ v.st p ≤ 5 ∧ !v.lk.waiting then v.tryFail p else v

/-- A failed attempt restarts at LASER_CHECK after 1 ms. -/
def LV.trainRetry (p : Nat) (v : LV) : LV :=
  if v.lk.waiting then (v.setSt p 1).onLk fun l => { l with waiting := false, peer := none, replied := false } else v

/-- LASER_OK falls while LASER_EN is high (R343). -/
def LV.laserLost (p : Nat) (v : LV) : LV :=
  let v0 := v.onPg (Pages.setb (Reg.OPE_STAT p) 31 false)
  if v.pg.bit (Reg.OPE_STAT p) 30 then
    let v1 := v0.onPg (Pages.raise (Pg.ope p) 0 0 none)
    if v.st p = 0 ∨ v.st p = 8 then v1 else v1.retrain p 7
  else v0

/-- A lane becomes FAILED: it leaves the good mask; an ACTIVE link changes width, or retrains when no lane is left
(R363). -/
def LV.laneFail (p ln : Nat) (v : LV) : LV :=
  if v.pg.bit (Reg.OPE_LANE_FAIL p) ln then v
  else
    let v1 := (v.onPg fun g => (g.setb (Reg.OPE_LANE_FAIL p) ln true).raise (Pg.ope p) 1 ln none).onLk fun l =>
      { l with good := l.good &&& ~~~(bitMask 16 ln) }
    if v.st p = 6 then
      (if (v.lanes p).all fun l => !wbit v1.lk.good l then v1.retrain p 6
       else if ln ∈ v.lanes p then v1.reqWidth p else v1)
    else v1

/-- A lane loses clock lock. -/
def LV.lockLost (p ln : Nat) (v : LV) : LV := (v.onPg (Pages.setb (Reg.OPE_STAT p) ln false)).laneFail p ln

/-- A lane's ring tuning loses its wavelength (R369). -/
def LV.tuneLost (p ln : Nat) (v : LV) : LV := (v.onPg (Pages.raise (Pg.ope p) 2 ln none)).laneFail p ln

/-- The end of a lane's 1 ms window: receiver power, corrected bits, codewords received, symbols corrected, uncorrectable codewords
(R363, R367). -/
def LV.berWindow (p ln : Nat) (rxPwr : Byte) (bits cws syms ucws : Nat) (v : LV) : LV :=
  let est := min (bits / 4) 65535
  let v1 := v.onPg fun g => (((g.put (Reg.OPE_LANE p ln) 23 16 rxPwr.toNat).put (Reg.OPE_LANE p ln) 15 0 est).count (Reg.LINK_CW_LO p) cws).count (Reg.LINK_CORR_LO p) syms
  let v2 := if v.pg.get (Reg.OPE_THRESH p) 15 0 < est then
      v1.onPg fun g => (g.setb (Reg.OPE_LANE_DEG p) ln true).sat (Reg.OPE_DEG_CNT p) 1 else v1
  let n := if v.pg.get (Reg.OPE_THRESH p) 31 16 < est then tget (fun _ => 0) v.lk.failWin ln + 1 else 0
  let v3 := v2.onLk fun l => { l with failWin := tset (fun _ => 0) l.failWin ln n }
  if 3 ≤ n ∨ 16 ≤ ucws then v3.laneFail p ln else v3

/-- Uncorrectable codewords of a lane in that many consecutive 1 µs intervals (R365). -/
def LV.ucwPersist (p intervals : Nat) (v : LV) : LV :=
  let t := v.pg.get (Reg.LINK_CTRL p) 7 0
  if (v.st p = 6 ∨ v.st p = 7) ∧ t ≠ 0 ∧ t ≤ intervals then v.retrain p 3 else v

/-- LINK_CTRL.RETRAIN (R358, R366): from FAILED the retrain starts at LOCK too, and its EQ cold. -/
def LV.softRetrain (p : Nat) (v : LV) : LV :=
  if v.st p = 8 then (v.retrain p 1).onLk fun l => { l with cold := true }
  else if v.st p = 6 ∧ v.lk.req = none then (v.sendCtl p 3 v.lk.good).onLk fun l => { l with req := some false }
  else if v.st p = 7 ∨ (v.st p = 6 ∧ v.lk.req = some true) then v.onLk fun l => { l with again := true }
  else v

/-- LINK_CTRL.HOLD_OFF (R358). -/
def LV.holdOff (p : Nat) (b : Bool) (v : LV) : LV :=
  let v1 := (v.onPg (Pages.setb (Reg.LINK_CTRL p) 30 b)).onPg (Pages.laserEn p false)
  if b then v1.dark p 0 else v1

/-- A narrower MAX_WIDTH is written: the lanes above it leave the good mask, and an ACTIVE port changes width (R346). -/
def LV.narrow (p width : Nat) (v : LV) : LV :=
  if v.st p = 6 ∨ v.st p = 7 then (v.onLk fun l => { l with good := l.good &&& BitVec.ofNat 16 (2 ^ width - 1) }).reqWidth p else v

/-- A width change did not end within 2 µs (R364). -/
def LV.widthTimeout (p : Nat) (v : LV) : LV :=
  if v.st p = 7 ∨ (v.st p = 6 ∧ v.lk.req = some true) then v.retrain p 10 else v

/-- A SYNC flit leaves an ACTIVE link (R355). -/
def LV.syncEmit (p : Nat) (v : LV) : LV :=
  if v.st p = 6 then
    let r := v.head p none
    r.2.onLk fun l => { l with sent := .sync r.1 v.pg.fbc :: l.sent }
  else v

/-- LINK_EXP_EPOCH is written: a QUARANTINE with cause EPOCH ends on a match (R360). -/
def LV.expEpoch (p ep : Nat) (v : LV) : LV :=
  let v1 := v.onPg (Pages.put (Reg.LINK_EXP_EPOCH p) 7 0 ep)
  if v.pg.get (Reg.LINK_STAT p) 27 26 = 1 ∧ v.pg.get (Reg.LINK_PEER_EPOCH p) 7 0 = ep % 256 then
    v1.onPg (Pages.put (Reg.LINK_STAT p) 27 26 0) else v1

/-! ## Near-end loopback (R368) -/

/-- The port's TX lanes feed its own RX: nothing that the partner sends arrives. -/
def Pages.looped (p : Nat) (g : Pages) : Bool := decide (g.get (Reg.OPE_CTRL p) 25 24 = 1)

/-- How a flit with that overhead arrives on a lane of the same port. -/
def TxHead.rx (ln : Nat) (h : TxHead) : FlitRx := ⟨false, false, Fin.ofNat 16 ln, false, some (h.nak, h.num), h.credit⟩

/-- The port receives a flit that it sent. The link carries no router traffic: a packet that it completes goes nowhere. -/
def LV.rxOwn (p ep : Nat) (v : LV) (t : TxFlit) : LV :=
  match t with
  | .seqd h f | .resent h f => (v.rxSeqd p (h.rx (v.laneOf p v.lk.q0 f.seq)) f).2
  | .idle h => v.rxIdle p (h.rx 0)
  | .sync h _ => if v.st p = 6 ∨ v.st p = 7 then v.rxHead p (h.rx 0) else v
  | .id h f => v.rxId p ep (h.rx 0) f v.pg.fbc

/-- Under loopback, the flits sent beyond the first n arrive in the order of sending, and so do those that they cause. -/
def LV.loop (p ep : Nat) : Nat → Nat → LV → LV
  | 0, _, v => v
  | k + 1, n, v =>
    if !v.pg.looped p || decide (v.lk.sent.length ≤ n) then v
    else LV.loop p ep k v.lk.sent.length ((((v.lk.sent.take (v.lk.sent.length - n)).reverse.foldl (LV.rxOwn p ep) v).settle p))

/-- A BLOCK_RESET of the LINK page, or a PORT reset: OFF, and a cold training follows (R362, R370). -/
def LV.blockReset (p : Nat) (v : LV) : LV := (v.discardAll p).dark p 0

end Sys2Proof.Machine
end

