-- ==== Sys2Proof/Machine/Functions.lean ====
section
/-! DEFINITION. The functions of R182 on exact values: EXP2, LOG2, EXP, LOG, TANH and ERF by their power series in fixed point with
640 fraction bits. No result of a working format's operand lies nearer than that to a code without being it: the exact results are
those of the cases noted below, every other one is irrational (DEDUCED, log entry 5). -/

namespace Sys2Proof.Machine

/-- Fraction bits of the fixed-point numbers. -/
def fxBits : Nat := 640

/-- One. -/
def fxOne : Int := 2 ^ fxBits

/-- Product. -/
def fxMul (a b : Int) : Int := a * b / fxOne

/-- Quotient; b is not zero. -/
def fxDiv (a b : Int) : Int := a * fxOne / b

/-- An exact value whose lowest bit is not below the fraction. -/
def Dy.toFx (x : Dy) : Int := x.intAt (-fxBits)

/-- A fixed-point number times 2^k, as a value that is not exact. -/
def ofFx (i k : Int) : Val := .num ⟨decide (i < 0), i.natAbs, k - fxBits, true⟩

/-- The sum of p, p sq / 3, p sq^2 / 5 and so on: the series of artanh, and of arctan where sq is negative, from term n on. -/
def oddSeries (sq : Int) : Nat → Nat → Int → Int
  | 0, _, _ => 0
  | fuel + 1, n, p => p / (2 * n + 1 : Nat) + oddSeries sq fuel (n + 1) (fxMul p sq)

/-- The sum of p, p y / (n + 1), p y^2 / ((n + 1) (n + 2)) and so on: the exponential series. -/
def expSeries (y : Int) : Nat → Nat → Int → Int
  | 0, _, _ => 0
  | fuel + 1, n, p => p + expSeries y fuel (n + 1) (fxMul p y / (n + 1 : Nat))

/-- The series of the error function, less its factor 2 / sqrt pi: terms p / (2 n + 1), p running through x (-x^2)^n / n!. -/
def erfSeries (sq : Int) : Nat → Nat → Int → Int
  | 0, _, _ => 0
  | fuel + 1, n, p => p / (2 * n + 1 : Nat) + erfSeries sq fuel (n + 1) (-(fxMul p sq) / (n + 1 : Nat))

/-- artanh of a number of magnitude at most 1/3. -/
def fxArtanh (t : Int) : Int := oddSeries (fxMul t t) 210 0 t

/-- The natural logarithm of 2. -/
def fxLn2 : Int := 2 * fxArtanh (fxOne / 3)

/-- pi, by Machin's formula. -/
def fxPi : Int :=
  let atanInv (n : Nat) : Int := oddSeries (-(fxOne / (n * n : Nat))) 150 0 (fxOne / n)
  16 * atanInv 5 - 4 * atanInv 239

/-- e^y of a number, as a number and a power of two. -/
def fxExp (y : Int) : Int × Int := (expSeries (y % fxLn2) 140 0 fxOne, y / fxLn2)

/-- A value cut to a magnitude of 2^k, above which the function has left every format, or differs from its limit by less than any. -/
def Dy.cutAt (x : Dy) (k : Nat) : Dy := if (Dy.pow2 k).lt x.abs then ⟨x.neg, 1, k, false⟩ else x

/-- 2^x. Exact for an integer. -/
def realExp2 (x : Dy) : Val :=
  let y := (x.cutAt 9).toFx
  if y % fxOne = 0 then .num (.pow2 (y / fxOne))
  else ofFx (expSeries (fxMul (y % fxOne) fxLn2) 140 0 fxOne) (y / fxOne)

/-- e^x. Exact for 0. -/
def realExp (x : Dy) : Val :=
  if x.isZero then .num (.ofInt 1) else (let r := fxExp (x.cutAt 8).toFx; ofFx r.1 r.2)

/-- The mantissa of a positive value, in [1, 2), as the artanh of (m - 1) / (m + 1): half its logarithm. -/
def Dy.halfLogMant (x : Dy) : Int :=
  let one : Int := 2 ^ Nat.log2 x.m
  fxArtanh (fxDiv (x.m - one) (x.m + one))

/-- ln x of a positive value. Exact for 1. -/
def realLog (x : Dy) : Val :=
  if x.eq (.ofInt 1) then .num .zero else ofFx (x.log2 * fxLn2 + 2 * x.halfLogMant) 0

/-- log2 x of a positive value. Exact for a power of two. -/
def realLog2 (x : Dy) : Val :=
  if x.eq (.pow2 x.log2) then .num (.ofInt x.log2) else ofFx (x.log2 * fxOne + fxDiv (2 * x.halfLogMant) fxLn2) 0

/-- tanh x. Exact for 0. -/
def realTanh (x : Dy) : Val :=
  if x.isZero then .num .zero
  else
    let r := fxExp (-(2 * (x.abs.cutAt 6).toFx))
    let u := r.1 / 2 ^ (-r.2).toNat
    let t := fxDiv (fxOne - u) (fxOne + u)
    ofFx (if x.neg then -t else t) 0

/-- erf x. Exact for 0. -/
def realErf (x : Dy) : Val :=
  if x.isZero then .num .zero
  else
    let y := (x.cutAt 3).toFx
    ofFx (fxDiv (2 * erfSeries (fxMul y y) 480 0 y) (Nat.sqrt (fxPi * fxOne).toNat)) 0

end Sys2Proof.Machine
end

