-- ==== Sys2Proof/Machine/Vector.lean ====
section
/-! DEFINITION. The tile vector unit: registers and masks, lane operations, reductions, tensors, random draws, and the
effects of its instructions as the TVU queue starts them (R170 to R205, R263, R264). -/

namespace Sys2Proof.Machine

/-! ## Formats and registers (R170 to R172) -/

/-- The format of a working format. -/
def Wf.fmt : Wf → Fmt
  | .f32w => .f32w | .f16w => .f16w | .f16x => .f16x | .i32 => .i32 | .i16 => .i16 | .u32 => .u32

/-- A 32-bit working format. -/
def Wf.wide (w : Wf) : Bool := w.fmt.width = 32

/-- A float working format. -/
def Wf.isFloat (w : Wf) : Bool := w.fmt.ef.isSome

/-- Columns of a view. -/
def Wf.cols (w : Wf) : Nat := if w.wide then 32 else 64

/-- A working format's code (R263). -/
def Wf.code : Wf → Nat
  | .f32w => 0 | .f16w => 1 | .f16x => 2 | .i32 => 3 | .i16 => 4 | .u32 => 5

/-- A tile register's row. -/
def Core.row (c : Core) (t r : Nat) : BitVec 1024 := tget (fun _ => 0) c.treg (t * 32 + r)

/-- Element (r, c) of a tile register in a view of elements w bits wide. -/
def Core.elem (c : Core) (w t r col : Nat) : Nat := (c.row t r).toNat / 2 ^ (w * col) % 2 ^ w

/-- A row of elements w bits wide. -/
def packBits (w : Nat) (es : List Nat) : BitVec 1024 :=
  BitVec.ofNat 1024 (es.zipIdx.foldl (fun a e => a + e.1 % 2 ^ w * 2 ^ (w * e.2)) 0)

/-- Set one row of a tile register. -/
def Core.setRow (t r : Nat) (es : BitVec 1024) (c : Core) : Core :=
  { c with treg := tset (fun _ => 0) c.treg (t * 32 + r) es }

/-- Write a tile register in a view: f gives each element. -/
def Core.setTile (w t : Nat) (f : Nat → Nat → Nat) (c : Core) : Core :=
  (List.range 32).foldl (fun c r => c.setRow t r (packBits w ((List.range (1024 / w)).map (f r)))) c

/-- A row of a mask register; MK0 reads all ones (R171). -/
def Core.mrow (c : Core) (m r : Nat) : W64 :=
  if m = 0 then BitVec.allOnes 64 else tget (fun _ => 0) c.masks (m * 32 + r)

/-- A mask bit. -/
def Core.mbit (c : Core) (m r col : Nat) : Bool := wbit (c.mrow m r) col

/-- Write a mask register's row; MK0 ignores writes (R171). -/
def Core.setMrow (m r : Nat) (w : W64) (c : Core) : Core :=
  if m = 0 then c else { c with masks := tset (fun _ => 0) c.masks (m * 32 + r) w }

/-- Write a mask register, bit by bit. -/
def Core.setMask (m : Nat) (f : Nat → Nat → Bool) (c : Core) : Core :=
  (List.range 32).foldl (fun c r => c.setMrow m r
    (BitVec.ofNat 64 ((List.range 64).foldl (fun a i => a + (f r i).toNat * 2 ^ i) 0))) c

/-! ## Lane operations (R179 to R182) -/

/-- Number of sources of a lane operation. -/
def LaneOp.arity : LaneOp → Nat
  | .fma | .fms => 3
  | .add | .sub | .mul | .max | .min | .and | .or | .xor | .shl | .shr | .sel | .div => 2
  | .none => 0
  | _ => 1

/-- An operation's code (R263). -/
def LaneOp.code : LaneOp → Nat
  | .add => 0 | .sub => 1 | .mul => 2 | .fma => 3 | .fms => 4 | .max => 5 | .min => 6 | .abs => 7 | .neg => 8 | .and => 9
  | .or => 10 | .xor => 11 | .shl => 12 | .shr => 13 | .sel => 14 | .copy => 15 | .transp => 16 | .rcp => 17 | .rsqrt => 18
  | .sqrt => 19 | .exp2 => 20 | .log2 => 21 | .div => 22 | .exp => 23 | .log => 24 | .tanh => 25 | .erf => 26 | .none => 31

/-- Lane slots per element (R181). -/
def LaneOp.slots : LaneOp → Nat
  | .rcp | .rsqrt | .sqrt | .exp2 | .log2 => 4
  | .div | .exp | .log | .tanh | .erf => 8
  | .none => 0
  | _ => 1

/-- Round a result once into the working format under RNE, with the flags of its operation; a NaN becomes zero with NAN_LOST in a
format without NaN (R124, R180). -/
def wfRound (t : Fmt) (r : Val × FFlags) : Nat × FFlags :=
  match r.1 with
  | .nan => if t.hasNan then (2 ^ (t.width - 1), r.2) else (0, r.2 ||| flNanLost)
  | .num _ => let e := t.encode .default 0 r.1; (e.1, e.2 ||| r.2)

/-- The bound of a function of R182 in units of the last place. -/
def LaneOp.ulps : LaneOp → Nat
  | .rcp | .rsqrt => 1
  | .exp2 | .log2 => 2
  | _ => 3

/-- The code n codes away from zero from a code of magnitude mag, or past zero: codes of a float format in the order of their values,
held within its largest magnitude. -/
def codeStep (t : Fmt) (neg : Bool) (mag : Nat) (n : Int) : Nat :=
  let top : Nat := 2 ^ (t.width - 1)
  let i : Int := min ((top : Int) - 1) ((mag : Int) + n)
  let m := if i < 0 then (-i).toNat else i.toNat
  if m = 0 then 0 else if neg != decide (i < 0) then top + m else m

/-- A function of R182: the exact result cut to a code, and from it one fixed code of those within the bound, on either side of the
result; where the result is beyond the largest magnitude, that magnitude with SAT (R124). -/
def nearFn (op : LaneOp) (t : Fmt) (x : Nat) (r : Val × FFlags) : Nat × FFlags :=
  match r.1 with
  | .nan => wfRound t r
  | .num y =>
    let c := t.encode ⟨false, .rtz⟩ 0 (.num y)
    if r.2 ≠ 0 || c.2 ≠ 0 then (c.1, c.2 ||| r.2)
    else
      let exact : Bool := !y.sticky && (match t.decode c.1 with | .num z => z.eq y | .nan => false)
      let below := if exact then op.ulps else op.ulps - 1
      (codeStep t y.neg (c.1 % 2 ^ (t.width - 1)) ((Config.fnStep op.code t.code x % (below + op.ulps + 1) : Nat) - (below : Int)), 0)

/-- The real functions of R182 of one operand; of zero the logarithms give the largest negative magnitude with SAT, of a negative value
NaN with INVALID (R124). -/
def realFn (op : LaneOp) : Val → Val × FFlags :=
  Val.op1 fun x =>
    match op with
    | .exp2 => (realExp2 x, 0)
    | .exp => (realExp x, 0)
    | .tanh => (realTanh x, 0)
    | .erf => (realErf x, 0)
    | _ =>
      if x.isZero then (.num (f32Max true), flSat)
      else if x.neg then (.nan, flInvalid)
      else (if op = .log2 then realLog2 x else realLog x, 0)

/-- A float lane operation on codes (R124, R180, R182). -/
def floatOp (op : LaneOp) (t : Fmt) (a b c : Nat) : Nat × FFlags :=
  let x := t.decode a
  let y := t.decode b
  let z := t.decode c
  match op with
  | .add => wfRound t (x.add y)
  | .sub => wfRound t (x.sub y)
  | .mul => wfRound t (x.mul y)
  | .fma => wfRound t (let m := x.mul y; let r := Val.add m.1 z; (r.1, m.2 ||| r.2))
  | .fms => wfRound t (let m := x.mul y; let r := Val.sub m.1 z; (r.1, m.2 ||| r.2))
  | .max => wfRound t (x.max y)
  | .min => wfRound t (x.min y)
  | .abs => wfRound t (x.op1 fun v => (.num v.abs, 0))
  | .neg => wfRound t (x.op1 fun v => (.num v.negate, 0))
  | .div => wfRound t (x.div y)
  | .sqrt => wfRound t x.sqrt
  | .rcp => nearFn op t a (Val.div (.num (.ofInt 1)) x)
  | .rsqrt => nearFn op t a (match x.sqrt with | (.num s, f) => (let r := Val.div (.num (.ofInt 1)) (.num s); (r.1, r.2 ||| f)) | r => r)
  | .log2 | .log | .exp2 | .exp | .tanh | .erf => nearFn op t a (realFn op x)
  | _ => wfRound t (x.op1 fun v => (.num v, 0))

/-- The integer a code stands for in an integer working format. -/
def intOf (t : Fmt) (c : Nat) : Int := if t = .u32 then ((c % 2 ^ 32 : Nat) : Int) else signedOf t.width c

/-- Saturate an exact integer result into the working format (R180). -/
def intSat (t : Fmt) (i : Int) : Nat × FFlags := t.encode .default 0 (.num (.ofInt i))

/-- A logical shift; a shift by the width or more is a free value (log entry 6). -/
def shiftOp (left : Bool) (t : Fmt) (a b : Nat) : Nat :=
  if b % 2 ^ t.width < t.width then
    (if left then a * 2 ^ (b % 2 ^ t.width) % 2 ^ t.width else a % 2 ^ t.width / 2 ^ (b % 2 ^ t.width))
  else Config.wideShift left.toNat t.code a b % 2 ^ t.width

/-- An integer lane operation on codes (R180). -/
def intOp (op : LaneOp) (t : Fmt) (a b c : Nat) : Nat × FFlags :=
  let x := intOf t a
  let y := intOf t b
  let z := intOf t c
  match op with
  | .add => intSat t (x + y)
  | .sub => intSat t (x - y)
  | .mul => intSat t (x * y)
  | .fma => intSat t (x * y + z)
  | .fms => intSat t (x * y - z)
  | .max => (if x < y then b else a, 0)
  | .min => (if y < x then b else a, 0)
  | .abs => intSat t x.natAbs
  | .neg => intSat t (-x)
  | .and => (Nat.land a b, 0)
  | .or => (Nat.lor a b, 0)
  | .xor => (Nat.xor a b, 0)
  | .shl => (shiftOp true t a b, 0)
  | .shr => (shiftOp false t a b, 0)
  | _ => (a, 0)

/-- A lane operation in a working format; sel is the bit of SEL's mask. SEL, COPY and TRANSP write the value of the one operand they
move, in its format's own code (R107); a NaN moved is a NaN consumed (log entry 28). -/
def laneOp (op : LaneOp) (w : Wf) (sel : Bool) (a b c : Nat) : Nat × FFlags :=
  let x := if op = .sel && !sel then b else a
  if w.isFloat then floatOp op w.fmt x b c else intOp op w.fmt x b c

/-! ## Reductions (R186 to R190) -/

/-- A running value of a reduction: its value, the index of ARGMAX, and n and m2 of MEANVAR, whose mean is the value. -/
structure RAcc where
  v : Val
  idx : Nat
  n : Nat
  m2 : Val
  deriving DecidableEq, Repr

/-- Round into the format reductions hold: F32W for float sources, the integer format otherwise (R186). -/
def redRound (t : Fmt) (r : Val × FFlags) : Val × FFlags :=
  let e := t.encode .default 0 r.1
  (t.decode e.1, e.2 ||| r.2)

/-- The format sums are held in: I32 for every integer source, U32 included (R186). -/
def Wf.sumFmt (w : Wf) : Fmt := if w.isFloat then .f32w else .i32

/-- Merge two triples of MEANVAR (R190). -/
def meanMerge (a b : RAcc) : RAcc × FFlags :=
  if a.n = 0 then (b, 0)
  else if b.n = 0 then (a, 0)
  else
    let n := a.n + b.n
    let d := toF32 (b.v.sub a.v)
    let w := toF32 (Val.div (.num (.ofInt b.n)) (.num (.ofInt n)))
    let dw := d.1.mul w.1
    let mean := toF32 (let r := a.v.add dw.1; (r.1, r.2 ||| dw.2))
    let q := toF32 (Val.div (.num (.ofInt (a.n * b.n : Nat))) (.num (.ofInt n)))
    let t := toF32 (d.1.mul d.1)
    let s := toF32 (a.m2.add b.m2)
    let tq := t.1.mul q.1
    let m2 := toF32 (let r := s.1.add tq.1; (r.1, r.2 ||| tq.2))
    (⟨mean.1, 0, n, m2.1⟩, d.2 ||| mean.2 ||| t.2 ||| s.2 ||| m2.2)

/-- b replaces a under ARGMAX (R189). -/
def argTakes (a b : Val) : Bool :=
  match a, b with
  | .nan, _ => false
  | .num _, .nan => true
  | .num x, .num y => x.lt y

/-- One combining step (R189). -/
def redCombine (k : RedKind) (t : Fmt) (a b : RAcc) : RAcc × FFlags :=
  match k with
  | .sum | .sumsq => let r := redRound t (a.v.add b.v); ({ a with v := r.1 }, r.2)
  | .max => let r := a.v.max b.v; ({ a with v := r.1 }, r.2)
  | .min => let r := a.v.min b.v; ({ a with v := r.1 }, r.2)
  | .argmax => (if argTakes a.v b.v then b else a, 0)
  | .meanvar => meanMerge a b
  | .none => (a, 0)

/-- Combine where an absent element is skipped: it adds 0 to a sum, n = 0 for MEANVAR (R189). -/
def redOpt (k : RedKind) (t : Fmt) (a b : Option RAcc) : Option RAcc × FFlags :=
  match a, b with
  | none, b => (b, 0)
  | a, none => (a, 0)
  | some x, some y => let r := redCombine k t x y; (some r.1, r.2)

/-- One level of the pairwise tree (R186). -/
def redLevel (k : RedKind) (t : Fmt) : List (Option RAcc) → List (Option RAcc) × FFlags
  | a :: b :: rest =>
    let c := redOpt k t a b
    let r := redLevel k t rest
    (c.1 :: r.1, c.2 ||| r.2)
  | l => (l, 0)

/-- The pairwise tree over a tile row or column (R186). -/
def redTree (k : RedKind) (t : Fmt) : Nat → List (Option RAcc) → Option RAcc × FFlags
  | 0, l => (l.headD none, 0)
  | fuel + 1, l =>
    if l.length ≤ 1 then (l.headD none, 0)
    else
      let s := redLevel k t l
      let r := redTree k t fuel s.1
      (r.1, s.2 ||| r.2)

/-- An element as it enters a reduction: SUMSQ squares it with one rounding, and an integer sum holds it in I32; a NaN among the
present elements is consumed, whatever the kind (R124, R186, R189, R190). -/
def redIn (k : RedKind) (t : Fmt) (i : Nat) (x : Val) : RAcc × FFlags :=
  let nan := flIf (x = .nan) flNanIn
  match k with
  | .sum => let r := if t = .i32 then redRound t (x, 0) else (x, 0); (⟨r.1, i, 1, .num .zero⟩, r.2 ||| nan)
  | .sumsq => let r := redRound t (x.mul x); (⟨r.1, i, 1, .num .zero⟩, r.2 ||| nan)
  | _ => (⟨x, i, 1, .num .zero⟩, nan)

/-- What an all-absent MAX or MIN gives: the end of the range of F32W, or of I32 for integers (R189). -/
def redEnd (t : Fmt) (low : Bool) : Nat :=
  if t.ef.isSome then (if low then 0xFFFFFFFF else 0x7FFFFFFF) else if low then 0x80000000 else 0x7FFFFFFF

/-- The results of a reduction, as codes of its result format: one, or mean and variance (R189, R190). -/
def redOut (k : RedKind) (t : Fmt) (unbiased : Bool) (r : Option RAcc) : List Nat × FFlags :=
  match k, r with
  | .argmax, none => ([0xFFFFFFFF], 0)
  | .argmax, some a => ([a.idx], 0)
  | .meanvar, none => ([0, 0], 0)
  | .meanvar, some a =>
    let den := if unbiased then a.n - 1 else a.n
    let var : Val × FFlags := if a.n ≤ 1 then (.num .zero, 0) else toF32 (Val.div a.m2 (.num (.ofInt den)))
    ([(Fmt.f32w.encode .default 0 a.v).1, (Fmt.f32w.encode .default 0 var.1).1], var.2)
  | .max, none => ([redEnd t true], 0)
  | .min, none => ([redEnd t false], 0)
  | _, none => ([0], 0)
  | _, some a => ([(t.encode .default 0 a.v).1], 0)

/-- The format of a reduction's results (R180, R186, R189, R190): U32 for ARGMAX and for a U32 maximum, F32W for MEANVAR, else
the format of sums. -/
def redFmt (k : RedKind) (w : Wf) : Fmt :=
  match k with
  | .argmax => .u32
  | .meanvar => .f32w
  | .max | .min => if w = .u32 then .u32 else w.sumFmt
  | _ => w.sumFmt

/-- Lane slots per element of a reduction (R189). -/
def RedKind.slots : RedKind → Nat
  | .none => 0 | .meanvar => 2 | _ => 1

/-! ## Tensors in scratch (R174 to R178) -/

/-- What a tensor descriptor breaks (R175, R200), given the format it must have; scaled tells SCL. -/
def tensorBad (ci : CInfo) (d : TDesc) : Option Nat :=
  match d.fmt with
  | none => some 5
  | some t =>
    if d.resv || d.e0 = 0 || d.e1 = 0 || d.e2 = 0 || d.e3 = 0 then some 1
    else if d.scl && !t.isBlock then some 1
    else if d.scl && decide (1 < d.rank) && decide (d.s1 < d.rowBytes t true) then some 1
    else if 8 ≤ t.width ∧ d.base % (t.width / 8) ≠ 0 then some 4
    else if ci.outside d.base (d.dataEnd t d.scl) || (d.scl && ci.outside d.sbase d.scaleEnd) then some 3
    else none

/-- A tensor's format. -/
def TDesc.t (d : TDesc) : Fmt := d.fmt.getD .f32w

/-- The byte ranges a tensor and its scales occupy. -/
def TDesc.ranges (d : TDesc) : List (Nat × Nat) :=
  d.rowRanges d.t d.scl ++ (if d.scl then d.scaleRanges else [])

/-- An index of a tensor: axes 0 to 3. -/
structure TIdx where
  i0 : Nat
  i1 : Nat
  i2 : Nat
  i3 : Nat
  deriving DecidableEq, Repr

/-- An index with axes of extent 1 broadcast (R177). -/
def TDesc.bc (d : TDesc) (i : TIdx) : TIdx :=
  ⟨if d.e0 = 1 then 0 else i.i0, if d.e1 = 1 then 0 else i.i1, if d.e2 = 1 then 0 else i.i2, if d.e3 = 1 then 0 else i.i3⟩

/-- Row number r of an index (R176). -/
def TDesc.rowNo (d : TDesc) (i : TIdx) : Nat := i.i1 + d.e1 * (i.i2 + d.e2 * i.i3)

/-- Sequence number of an element over the destination's indices (R194). -/
def TDesc.seq (d : TDesc) (i : TIdx) : Nat := i.i0 + d.e0 * d.rowNo i

/-- Byte offset of a row. -/
def TDesc.rowAt (d : TDesc) (i : TIdx) : Nat := d.base + i.i1 * d.s1 + i.i2 * d.s2 + i.i3 * d.s3

/-- The code of an element in scratch. -/
def CV.tcode (v : CV) (d : TDesc) (i : TIdx) : Nat :=
  let w := d.t.width
  let lo := w * i.i0 / 8
  ofBytesLE ((rangeFrom (d.rowAt i + lo) ((w * i.i0 + w - 1) / 8 - lo + 1)).map v.core.byte) / 2 ^ (w * i.i0 % 8) % 2 ^ w

/-- The value of an element, at its scaled value for a scaled tensor (R111, R176). -/
def CV.tval (v : CV) (d : TDesc) (i : TIdx) : Val :=
  let x := d.t.decode (v.tcode d i)
  if d.scl then x.scaled (v.core.byte (d.sbase + d.rowNo i * d.sstr + i.i0 / 32)).toNat else x

/-- An element as a working-format code: the conversion is exact (R179), or saturates in F32W (R122). -/
def CV.tsrc (v : CV) (d : TDesc) (w : Wf) (i : TIdx) : Nat × FFlags := w.fmt.encode .default 0 (v.tval d (d.bc i))

/-- Bits of a row that its elements may occupy: whole blocks in a scaled tensor (R105, R110). -/
def TDesc.rowBits (d : TDesc) : Nat := if d.scl then 8 * d.rowBytes d.t true else d.t.width * d.e0

/-- Store an element's code, leaving the other elements' bits of its bytes (R184); the bits after the row's last element are zero
(R105). -/
def CV.tput (ci : CInfo) (d : TDesc) (i : TIdx) (code : Nat) (v : CV) : CV :=
  let w := d.t.width
  let lo := w * i.i0 / 8
  let n := (w * i.i0 + w - 1) / 8 - lo + 1
  let sh := w * i.i0 % 8
  let old := ofBytesLE ((rangeFrom (d.rowAt i + lo) n).map v.core.byte)
  let new := old - old / 2 ^ sh % 2 ^ w * 2 ^ sh + code % 2 ^ w * 2 ^ sh
  v.scrWrite ci (d.rowAt i + lo) (bytesLE n (new % 2 ^ (d.rowBits - 8 * lo)))

/-- A working format holds every value of a source format exactly (R122, R179). -/
def Wf.holds (w : Wf) (d : TDesc) : Bool :=
  let t := d.t
  if d.scl || t.isBlock then w = .f32w
  else match w with
    | .f32w => t ≠ .i32 && t ≠ .u32
    | .f16w => t = .f16w || t = .i4 || t = .i8 || t = .u8 || t = .m1
    | .f16x => t = .f16x || t = .e8s || t = .i4 || t = .i8 || t = .u8 || t = .m1
    | .i32 => t = .i32 || t = .i16 || t = .i8 || t = .u8 || t = .i4 || t = .m1
    | .i16 => t = .i16 || t = .i8 || t = .u8 || t = .i4 || t = .m1
    | .u32 => t = .u32 || t = .u8 || t = .m1

/-- A destination format that a working format converts to (R121): E8S only from floats. -/
def Wf.toDest (w : Wf) (d : TDesc) : Bool := d.t ≠ .e8s || w.isFloat

/-- The ranges read are checked, and note a use of the shadow pool (R51, R537). -/
def CV.touch (ci : CInfo) (rs : List (Nat × Nat)) (v : CV) : CV :=
  rs.foldl (fun v r => v.scrCheck ci r.1 r.2)
    (if ci.touchesPool rs then v.onCore fun c => { c with spec := c.spec.map fun s => { s with tainted := true } } else v)

/-- Write elements of a tensor: each is its index and exact working-format value. Plain formats convert one by one; a
block-scaled destination chooses each block's scale over the elements present in it, under R112, and has its padding written as zero
(R110). -/
def CV.tstore (ci : CInfo) (idx : Nat) (d : TDesc) (rc : Rc) (ln : TIdx → Nat) (els : List (TIdx × Val)) (v : CV) : CV :=
  if d.scl then
    let keys := (els.map fun e => (d.rowNo e.1, e.1.i0 / 32)).dedup
    keys.foldl
      (fun w key =>
        let blk := els.filter fun e => d.rowNo e.1 = key.1 && e.1.i0 / 32 = key.2
        let b := blockEncode d.t rc (fun j => match blk[j]? with | some e => v.draw ci (ln e.1) idx (d.seq e.1) | none => 0) (blk.map (·.2))
        let w1 := (blk.zip b.1).foldl (fun w x => w.tput ci d x.1.1 x.2) w
        -- the padding of the row's last block is written as zero (R110)
        let w1 := match blk.head? with
          | some e => if key.2 = (d.e0 - 1) / 32 then (rangeFrom d.e0 (32 * (key.2 + 1) - d.e0)).foldl (fun (w : CV) i0 => w.tput ci d { e.1 with i0 := i0 } 0) w1 else w1
          | none => w1
        (w1.scrWrite ci (d.sbase + key.1 * d.sstr + key.2) [BitVec.ofNat 8 b.2.1]).flagT ci b.2.2)
      v
  else
    els.foldl
      (fun w e =>
        let c := d.t.encode rc (v.draw ci (ln e.1) idx (d.seq e.1)) e.2
        (w.tput ci d e.1 c.1).flagT ci c.2)
      v

/-! ## Starting TVU instructions -/

/-- What starting a TVU instruction answers. -/
inductive TStarted where
  | ran (v : CV)
  | waits
  deriving DecidableEq, Repr

/-- A TVU instruction reads these tile registers and masks, and uses a lane, load or store path: injection opportunities
of R205; a firing stops the TVU. -/
def CV.tvuTouch (ci : CInfo) (regs masks : List Nat) (off : Nat) (v : CV) : CV :=
  let v1 := v.parity (Pg.tvu ci.n) 0 (fun t => if t = 0xFFFF then regs.headD 0 * 256 else t)
    (fun t => decide (t / 256 ∈ regs) && decide (t % 256 < 32)) ci.cx
  let v2 := if regs.isEmpty then v else v1
  let v3 := v2.parity (Pg.tvu ci.n) 1 (fun t => if t = 0xFFFF then masks.headD 0 * 256 else t)
    (fun t => decide (t / 256 ∈ masks) && decide (t % 256 < 32)) ci.cx
  let v4 := if masks.isEmpty then v2 else v3
  v4.parity (Pg.tvu ci.n) 2 (fun _ => scrBase + ci.l * 0x1000000 + off / 64 * 64) (fun _ => true) ci.cx

/-- The common start of a TVU instruction: OFF (R200), then its injection opportunities. -/
def CV.tvuGo (ci : CInfo) (idx : Nat) (regs masks : List Nat) (off : Nat) (f : CV → TStarted) (v : CV) : TStarted :=
  if !v.pg.enabled (Pg.tvu ci.n) then .ran (v.except ci .tvu 8 idx)
  else
    let v1 := v.tvuTouch ci regs masks off
    if v1.core.failed then .ran v1 else f v1

/-- A source element of VOP under its broadcast code (R183). -/
def Core.bcElem (c : Core) (w t : Nat) (b : Bcast) (r col : Nat) : Nat :=
  match b with
  | .full => c.elem w t r col
  | .rowb => c.elem w t r 0
  | .colb => c.elem w t 0 col

/-- VOP (R181, R183, R184). -/
def vopRun (ci : CInfo) (idx : Nat) (o : VopOp) (v : CV) : TStarted :=
  v.tvuGo ci idx (([o.ta.val, o.tb.val, o.tc.val]).take o.op.arity) (o.mask.val :: (if o.op = .sel then [o.ms.val] else [])) 0 fun v =>
    let w := o.wf.fmt.width
    let c := v.core
    let one (r col : Nat) : Nat × FFlags :=
      if o.op = .transp then laneOp .transp o.wf false (c.bcElem w o.ta o.ba col r) 0 0
      else laneOp o.op o.wf (c.mbit o.ms r col) (c.bcElem w o.ta o.ba r col) (c.bcElem w o.tb o.bb r col) (c.bcElem w o.tc o.bc r col)
    let f (r col : Nat) : Nat :=
      if c.mbit o.mask r col then (one r col).1 else if o.zero then 0 else c.elem w o.td r col
    let present := (List.range 32).flatMap fun r => ((List.range o.wf.cols).filter fun col => c.mbit o.mask r col).map fun col => (r, col)
    let fl := present.foldl (fun a p => a ||| (one p.1 p.2).2) 0
    .ran (((v.onCore (Core.setTile w o.td f)).flagT ci fl).perf (Reg.TVU_LANEOP_LO ci.n)
      (32 * 32 * o.op.slots))

/-- The value of a scalar source in the working format: an F32W parameter for a float working format, an integer one
otherwise, converted under R121. -/
def scalarSrc (ci : CInfo) (w : Wf) (p : Nat) : Nat × FFlags :=
  if w.isFloat then w.fmt.encode .default 0 (Fmt.f32w.decode (lo32 (ci.p p)).toNat)
  else w.fmt.encode .default 0 (.num (.ofInt (signedOf 64 (ci.p p).toNat)))

/-- The row and column of an index within its tile (R178). -/
def tileRc (w : Wf) (i : TIdx) : Nat × Nat := (i.i1 % 32, i.i0 % w.cols)

/-- Every index of a shape in VTENS's walking order: tiles along axis 0 fastest, then axis 1, 2, 3; within a tile by row
(R178). -/
def walkIdx (w : Wf) (e0 e1 e2 e3 : Nat) : List TIdx :=
  (List.range e3).flatMap fun i3 => (List.range e2).flatMap fun i2 =>
    (List.range (ceilDiv e1 32)).flatMap fun t1 => (List.range (ceilDiv e0 w.cols)).flatMap fun t0 =>
      (rangeFrom (32 * t1) (min 32 (e1 - 32 * t1))).flatMap fun i1 =>
        (rangeFrom (w.cols * t0) (min w.cols (e0 - w.cols * t0))).map fun i0 => ⟨i0, i1, i2, i3⟩

/-- Lane of an element (R172, R194). -/
def elemLane (w : Wf) (i : TIdx) : Nat := lane w.wide (tileRc w i).1 (tileRc w i).2

/-- A source extent matches the destination's, or is 1 (R177). -/
def extOk (s d : TDesc) : Bool :=
  (s.e0 = d.e0 || s.e0 = 1) && (s.e1 = d.e1 || s.e1 = 1) && (s.e2 = d.e2 || s.e2 = 1) && (s.e3 = d.e3 || s.e3 = 1)

/-- The shape of an operation with no elementwise destination: the largest extent of any source on each axis. -/
def maxShape (ss : List TDesc) : TDesc :=
  let m (f : TDesc → Nat) : Nat := ss.foldl (fun a s => max a (f s)) 1
  { rank := 4, scl := false, fmt := some .f32w, base := 0, e0 := m (·.e0), e1 := m (·.e1), e2 := m (·.e2), e3 := m (·.e3),
    s1 := 0, s2 := 0, s3 := 0, sbase := 0, sstr := 0, resv := false }

/-- A destination has two elements at one address, or a stride of 0 on an axis below its RANK (R177). -/
def selfOverlap (d : TDesc) : Bool :=
  (1 < d.rank && d.s1 = 0) || (2 < d.rank && d.s2 = 0) || (3 < d.rank && d.s3 = 0) ||
    (let rs := d.rowRanges d.t d.scl
     rs.zipIdx.any fun a => rs.zipIdx.any fun b => decide (a.2 < b.2) && overlap a.1 b.1)

/-- A destination meets its own scale range (R177). -/
def ownScales (d : TDesc) : Bool := d.scl && overlaps (d.rowRanges d.t true) d.scaleRanges

/-- The index an element of TRANSP takes its value from: (c, r) of its tile (R181). -/
def TIdx.flip (i : TIdx) : TIdx := ⟨32 * (i.i0 / 32) + i.i1 % 32, 32 * (i.i1 / 32) + i.i0 % 32, i.i2, i.i3⟩

/-- The tree and chain of a VTENS reduction for one result: the elements of the reduced axis in order, W at a time
(R186, R188). -/
def redAxis (k : RedKind) (t : Fmt) (w : Nat) (els : List (Option RAcc)) : Option RAcc × FFlags :=
  (List.range (ceilDiv els.length w)).foldl
    (fun acc j =>
      let tile := slice (w * j) w els
      let r := redTree k t 8 (tile ++ List.replicate (w - tile.length) none)
      let c := redOpt k t acc.1 r.1
      (c.1, acc.2 ||| r.2 ||| c.2))
    (none, 0)

/-- First failing check of a list. -/
def firstBad (l : List (Option Nat)) : Option Nat := (l.find? (·.isSome)).join

/-- The results of a VTENS reduction: for each reduced row or column its index and codes (R183, R188). -/
def vtensRed (o : VtensOp) (sh : TDesc) (val : TIdx → Option Val) : List (TIdx × Nat) × FFlags :=
  let t := redFmt o.red o.wf
  let keys : List TIdx := if o.rax then
      (List.range sh.e3).flatMap fun i3 => (List.range sh.e2).flatMap fun i2 => (List.range sh.e0).map fun i0 => ⟨i0, 0, i2, i3⟩
    else (List.range sh.e3).flatMap fun i3 => (List.range sh.e2).flatMap fun i2 => (List.range sh.e1).map fun i1 => ⟨0, i1, i2, i3⟩
  keys.foldl
    (fun acc key =>
      let els := (List.range (if o.rax then sh.e1 else sh.e0)).map fun j =>
        (val (if o.rax then { key with i1 := j } else { key with i0 := j })).map fun x => redIn o.red t j x
      let fl := els.foldl (fun f e => match e with | some x => f ||| x.2 | none => f) 0
      let r := redAxis o.red t (if o.rax then 32 else o.wf.cols) (els.map fun e => e.map (·.1))
      let out := redOut o.red t o.unbiased r.1
      (acc.1 ++ out.1.zipIdx.map fun c => (if o.rax then { key with i1 := c.2 } else { key with i0 := c.2 }, c.1),
       acc.2 ||| fl ||| r.2 ||| out.2))
    ([], 0)

/-- VTENS, form OP (R177 to R184, R188). The encoding names one mask, which SEL selects by and which also gates the writes, so that SEL
moves its first source (DESIGN CHOICE, log entry 28). -/
def vtensRun (ci : CInfo) (idx : Nat) (o : VtensOp) (v : CV) : TStarted :=
  let sofs : List Sofs := [o.s0, o.s1, o.s2]
  let used : List Nat := (List.range o.op1.arity).filter fun i => decide (i + 1 ≠ o.spos.val)
  let descs : List Sofs := (if o.nod then [] else [o.ddesc]) ++ (if o.red = .none then [] else [o.rdesc]) ++
    used.map fun i => sofs.getD i o.s0
  v.tvuGo ci idx (if o.rax then [28, 29, 30, 31] else []) [o.mask] ((descs.headD o.s0).val ci) fun v =>
    if descs.any fun s => decide (s.val ci % 64 ≠ 0) then .ran (v.except ci .tvu 4 idx)
    else if descs.any fun s => ci.outside (s.val ci) (s.val ci + 64) then .ran (v.except ci .tvu 3 idx)
    else
      let v := v.touch ci (descs.map fun s => (s.val ci, 64))
      let get (s : Sofs) : TDesc := TDesc.ofBytes ((rangeFrom (s.val ci) 64).map v.core.byte)
      let srcs := used.map fun i => get (sofs.getD i o.s0)
      let sh := if o.nod then maxShape srcs else get o.ddesc
      let rd := get o.rdesc
      let dests := (if o.nod then [] else [sh]) ++ (if o.red = .none then [] else [rd])
      let redLen := if o.red = .meanvar then 2 else 1
      let redShape : Bool := o.red = .none ||
        (if o.rax then rd.e0 = sh.e0 && rd.e1 = redLen && rd.e2 = sh.e2 && rd.e3 = sh.e3
         else rd.e0 = redLen && rd.e1 = sh.e1 && rd.e2 = sh.e2 && rd.e3 = sh.e3)
      let bad := firstBad [
        firstBad ((dests ++ srcs).map (tensorBad ci)),
        if srcs.any fun s => !o.wf.holds s then some 5 else none,
        if !o.nod && !o.wf.toDest sh then some 5 else none,
        if o.red ≠ .none && !(redFmt o.red o.wf).ef.isSome && rd.t = .e8s then some 5 else none,
        if srcs.any fun s => !extOk s sh then some 2 else none,
        if !redShape then some 2 else none,
        if dests.any selfOverlap then some 6 else none,
        if dests.any fun d => !srcs.contains d && ownScales d then some 6 else none,
        if dests.any fun d => srcs.any fun s => d ≠ s && overlaps d.ranges s.ranges then some 6 else none,
        if !o.nod && o.red ≠ .none && overlaps sh.ranges rd.ranges then some 6 else none]
      match bad with
      | some e => .ran (v.except ci .tvu e idx)
      | none =>
        if !v.core.framesFree ci (dests.flatMap TDesc.ranges) then .waits
        else
          let v := v.touch ci (srcs.flatMap TDesc.ranges)
          if v.core.failed then .ran v
          else
            let sc := scalarSrc ci o.wf o.sp.toNat
            let arg (j : Nat) (i : TIdx) : Nat × FFlags :=
              if j + 1 = o.spos.val then sc
              else match (used.zip srcs).find? fun u => u.1 = j with
                | some u => v.tsrc u.2 o.wf i
                | none => (0, 0)
            let here (i : TIdx) : Bool := v.core.mbit o.mask (tileRc o.wf i).1 (tileRc o.wf i).2
            -- TRANSP of a tile that the extents cut takes a free value where its source is a tail
            let tr : Bool := o.op1 = .transp && o.spos.val ≠ 1
            let comp (i : TIdx) : Nat × FFlags :=
              let a := if !tr then arg 0 i
                else if i.flip.i0 < sh.e0 ∧ i.flip.i1 < sh.e1 then arg 0 i.flip
                else (Config.freeWord (v.pg.fresh + sh.seq i) % 2 ^ 32, 0)
              let b := arg 1 i
              let c := arg 2 i
              let r1 := laneOp o.op1 o.wf (here i) a.1 b.1 c.1
              let r2 := if o.op2 = .none then (r1.1, 0) else laneOp o.op2 o.wf false r1.1 0 0
              (r2.1, a.2 ||| b.2 ||| c.2 ||| r1.2 ||| r2.2)
            let ix := (walkIdx o.wf sh.e0 sh.e1 sh.e2 sh.e3).filter here
            let res := ix.map fun i => (i, comp i)
            let v1 := v.flagT ci (res.foldl (fun f r => f ||| r.2.2) 0)
            let v2 := if o.nod then v1 else v1.tstore ci idx sh o.rc (elemLane o.wf) (res.map fun r => (r.1, o.wf.fmt.decode r.2.1))
            let v3 := if o.red = .none then v2 else
                let rr := vtensRed o sh fun i => if here i then some (o.wf.fmt.decode (comp i).1) else none
                let w := (v2.flagT ci rr.2).tstore ci idx rd o.rc (elemLane o.wf) (rr.1.map fun r => (r.1, (redFmt o.red o.wf).decode r.2))
                if o.rax then w.onCore fun c => [28, 29, 30, 31].foldl (fun c t => c.setTile 32 t fun _ _ => 0) c else w
            let tiles := ceilDiv sh.e0 o.wf.cols * ceilDiv sh.e1 32 * sh.e2 * sh.e3
            let v4 := if tr then v3.onPg fun p => { p with fresh := p.fresh + sh.e0 * sh.rows } else v3
            .ran (v4.perf (Reg.TVU_LANEOP_LO ci.n) (tiles * 1024 * (o.op1.slots + o.op2.slots + o.red.slots)))

/-- The elements of the tile of a tensor named by tile indices, with their place (register of the pair, row, column)
(R178, R183). -/
def tileElems (d : TDesc) (cols : Nat) (t0 t1 i2 i3 : Nat) : List (TIdx × Nat × Nat) :=
  (rangeFrom (32 * t1) (min 32 (d.e1 - 32 * t1))).flatMap fun i1 =>
    (rangeFrom (cols * t0) (min cols (d.e0 - cols * t0))).map fun i0 => (⟨i0, i1, i2, i3⟩, i1 - 32 * t1, i0 - cols * t0)

/-- The scratch ranges of the tile of a tensor: its part of each row, whole blocks in a scaled tensor, with their scales (R110, R178). -/
def tileRanges (d : TDesc) (cols : Nat) (t0 t1 i2 i3 : Nat) : List (Nat × Nat) :=
  (rangeFrom (32 * t1) (min 32 (d.e1 - 32 * t1))).flatMap fun i1 =>
    let i : TIdx := ⟨cols * t0, i1, i2, i3⟩
    let last := min (cols * (t0 + 1)) (if d.scl then 32 * ceilDiv d.e0 32 else d.e0)
    let lo := d.t.width * i.i0 / 8
    let hi := (d.t.width * last + 7) / 8
    (d.rowAt i + lo, hi - lo) :: (if d.scl then [(d.sbase + d.rowNo i * d.sstr + i.i0 / 32, ceilDiv last 32 - i.i0 / 32)] else [])

/-- The checks of VTENS LD and ST, with the descriptor, the tile's elements and its ranges (R175, R200). -/
def vtensLsDesc (ci : CInfo) (o : VtensLsOp) (load : Bool) (v : CV) :
    Except Nat (TDesc × List (TIdx × Nat × Nat) × List (Nat × Nat)) :=
  let off := o.tdesc.val ci
  let cols := (if o.pair then 2 else 1) * o.wf.cols
  if off % 64 ≠ 0 then .error 4
  else if ci.outside off (off + 64) then .error 3
  else
    let d := TDesc.ofBytes ((rangeFrom off 64).map v.core.byte)
    match tensorBad ci d with
    | some e => .error e
    | none =>
      let t0 := (v.core.c o.i0).toNat
      let t1 := (v.core.c o.i1).toNat
      let i2 := (v.core.c o.i2).toNat
      let i3 := (v.core.c o.i3).toNat
      if (o.mask && d.t ≠ .m1) || (!o.mask && load && !o.wf.holds d) || (!o.mask && !load && !o.wf.toDest d) then .error 5
      else if d.e0 ≤ cols * t0 ∨ d.e1 ≤ 32 * t1 ∨ d.e2 ≤ i2 ∨ d.e3 ≤ i3 then .error 2
      else if !load && (selfOverlap d || ownScales d) then .error 6
      else .ok (d, tileElems d cols t0 t1 i2 i3, tileRanges d cols t0 t1 i2 i3)

/-- VTENS LD: a tile, or a mask from an M1 tensor, into registers; tails keep their old value (R178, R183, R185). -/
def vtensLdRun (ci : CInfo) (idx : Nat) (o : VtensLsOp) (v : CV) : TStarted :=
  v.tvuGo ci idx [] [] (o.tdesc.val ci) fun v =>
    match vtensLsDesc ci o true v with
    | .error e => .ran (v.except ci .tvu e idx)
    | .ok (d, els, rs) =>
      let v := (v.touch ci [(o.tdesc.val ci, 64)]).touch ci rs
      if v.core.failed then .ran v
      else if o.mask then
        let m := o.tr.val % 8
        .ran (v.onCore fun c => c.setMask m fun r col =>
          match els.find? fun e => e.2.1 = r && e.2.2 = col with
          | some e => v.tcode d e.1 = 1
          | none => c.mbit m r col)
      else
        let w := o.wf.fmt.width
        let vals := els.map fun e => (e, v.tsrc d o.wf e.1)
        let put (half : Nat) (c : Core) : Core := c.setTile w (o.tr.val + half) fun r col =>
          match vals.find? fun x => x.1.2.1 = r && x.1.2.2 = half * o.wf.cols + col with
          | some x => x.2.1
          | none => c.elem w (o.tr.val + half) r col
        .ran ((v.onCore fun c => if o.pair then put 1 (put 0 c) else put 0 c).flagT ci (vals.foldl (fun f x => f ||| x.2.2) 0))

/-- VTENS ST (R178, R183, R185). -/
def vtensStRun (ci : CInfo) (idx : Nat) (o : VtensLsOp) (v : CV) : TStarted :=
  v.tvuGo ci idx (if o.mask then [] else o.tr.val :: (if o.pair then [o.tr.val + 1] else [])) (if o.mask then [o.tr.val % 8] else [])
    (o.tdesc.val ci) fun v =>
    match vtensLsDesc ci o false v with
    | .error e => .ran (v.except ci .tvu e idx)
    | .ok (d, els, rs) =>
      let v := v.touch ci [(o.tdesc.val ci, 64)]
      if !v.core.framesFree ci rs then .waits
      else if o.mask then
        .ran (els.foldl (fun w e => w.tput ci d e.1 (v.core.mbit (o.tr.val % 8) e.2.1 e.2.2).toNat) v)
      else
        let w := o.wf.fmt.width
        .ran (v.tstore ci idx d o.rc (elemLane o.wf)
          (els.map fun e => (e.1, o.wf.fmt.decode (v.core.elem w (o.tr.val + e.2.2 / o.wf.cols) e.2.1 (e.2.2 % o.wf.cols)))))

/-- VRED (R186, R187, R189, R190). In the 16-bit view an AXIS 1 reduction writes the results of columns 0 to 31: Td has
32 columns. -/
def vredRun (ci : CInfo) (idx : Nat) (o : VredOp) (v : CV) : TStarted :=
  v.tvuGo ci idx [o.ts] [o.mask] 0 fun v =>
    let w := o.wf.fmt.width
    let t := redFmt o.red o.wf
    let at_ (r col : Nat) : Option (RAcc × FFlags) :=
      if v.core.mbit o.mask r col then
        some (redIn o.red t (if o.axis then r else col) (o.wf.fmt.decode (v.core.elem w o.ts r col))) else none
    let line (j : Nat) : List Nat × FFlags :=
      let els := if o.axis then (List.range 32).map fun r => at_ r j else (List.range o.wf.cols).map fun col => at_ j col
      let tr := redTree o.red t 8 (els.map fun e => e.map (·.1))
      let out := redOut o.red t o.unbiased tr.1
      (out.1, els.foldl (fun f e => match e with | some x => f ||| x.2 | none => f) (tr.2 ||| out.2))
    let lines := (List.range 32).map line
    let f (r col : Nat) : Nat :=
      if o.axis then ((lines.getD col ([], 0)).1.getD r 0) else ((lines.getD r ([], 0)).1.getD col 0)
    .ran (((v.onCore (Core.setTile 32 o.td f)).flagT ci (lines.foldl (fun a l => a ||| l.2) 0)).perf
      (Reg.TVU_LANEOP_LO ci.n) (1024 * o.red.slots))

/-- VCVT: between the 16-bit and the 32-bit view, under RC (R183). The two views give an element two lanes and two numbers; its draw is
that of the 16-bit view in both directions, e = 64 r + c (DESIGN CHOICE, log entry 28). -/
def vcvtRun (ci : CInfo) (idx : Nat) (o : VcvtOp) (v : CV) : TStarted :=
  v.tvuGo ci idx (if o.dir then [o.ts, o.ts.val + 1] else [o.ts]) [o.mask] 0 fun v =>
    let c := v.core
    -- element (r, col) of the 64-column tile, before and after conversion
    let src (r col : Nat) : Nat := if o.dir then c.elem 32 (o.ts.val + col / 32) r (col % 32) else c.elem 16 o.ts r col
    let cv (r col : Nat) : Nat × FFlags :=
      o.wfD.fmt.encode o.rc (v.draw ci (lane false r col) idx (64 * r + col)) (o.wfS.fmt.decode (src r col))
    let fl := (List.range 32).foldl (fun a r => (List.range 64).foldl (fun a col => if c.mbit o.mask r col then a ||| (cv r col).2 else a) a) 0
    let put (t w ofs : Nat) (c0 : Core) : Core := c0.setTile w t fun r col =>
      if c.mbit o.mask r (ofs + col) then (cv r (ofs + col)).1 else c.elem w t r col
    .ran (((v.onCore fun k => if o.dir then put o.td 16 0 k else put (o.td.val + 1) 32 32 (put o.td 32 0 k)).flagT ci fl).perf
      (Reg.TVU_LANEOP_LO ci.n) 1024)

/-- VRNG SEED: the seed and NODE, in a speculative copy of a speculative block (R192). -/
def vseedRun (ci : CInfo) (idx : Nat) (o : VseedOp) (v : CV) : TStarted :=
  v.tvuGo ci idx [] [] 0 fun v =>
    let s := ci.p o.p.toNat
    match v.core.spec with
    | some sp => .ran (v.onCore fun c => { c with spec := some { sp with seed := some (s, o.node) } })
    | none => .ran (v.onCore fun c => { c with seed := (s, o.node), seeded := true })

/-- The threshold test of BERN: draw < p * 2^32 rounded toward zero; p outside 0 to 1 leaves the bit open (R195). -/
def bern (p draw : Nat) : Bool :=
  match Fmt.f32w.decode p with
  | .nan => Config.bernOpen p draw
  | .num x =>
    if (x.neg && !x.isZero) || (Dy.ofInt 1).lt x then Config.bernOpen p draw
    else decide (draw < (x.scale 32).roundAt 0 .rtz 0)

/-- VRNG BITS, UNIFORM, BERN (R191, R194, R195). -/
def vdrawRun (ci : CInfo) (idx : Nat) (o : VdrawOp) (v : CV) : TStarted :=
  v.tvuGo ci idx [] [o.mask] (if o.ten then o.ddesc.val ci else 0) fun v =>
    if o.frg && ci.mode ≠ 0 then .ran (v.except ci .tvu 7 idx)
    else
      let base := v.pg.fresh
      let drw (ln e : Nat) : Nat := if o.frg then Config.freeWord (base + e) % 2 ^ 32 else v.draw ci ln idx e
      let wide := o.form ≠ .bern
      let cols := if wide then 32 else 64
      let code (d : Nat) : Nat :=
        match o.form with
        | .bits => d
        | .uniform => (Fmt.f32w.encode .default 0 (.num ⟨false, d / 256, -24, false⟩)).1
        | .bern => (bern (lo32 (ci.p o.p.toNat)).toNat d).toNat
      let fin (n count : Nat) (w : CV) : CV :=
        let w1 := if o.frg then ({ w with pg := { w.pg with fresh := w.pg.fresh + n } }).perf (Reg.TVU_FRG_LO ci.n) count else w
        w1.perf (Reg.TVU_LANEOP_LO ci.n) 1024
      if o.ten then
        let off := o.ddesc.val ci
        if off % 64 ≠ 0 then .ran (v.except ci .tvu 4 idx)
        else if ci.outside off (off + 64) then .ran (v.except ci .tvu 3 idx)
        else
          let v := v.touch ci [(off, 64)]
          let d := TDesc.ofBytes ((rangeFrom off 64).map v.core.byte)
          let want : Fmt := match o.form with | .bits => .u32 | .uniform => .f32w | .bern => .m1
          match firstBad [tensorBad ci d, if d.t ≠ want then some 5 else none, if selfOverlap d then some 6 else none] with
          | some e => .ran (v.except ci .tvu e idx)
          | none =>
            if !v.core.framesFree ci d.ranges then .waits
            else
              let wf : Wf := if wide then .u32 else .i16
              let ix := (walkIdx wf d.e0 d.e1 d.e2 d.e3).filter fun i => v.core.mbit o.mask (tileRc wf i).1 (tileRc wf i).2
              .ran (fin (d.e0 * d.rows) ix.length (ix.foldl (fun w i => w.tput ci d i (code (drw (elemLane wf i) (d.seq i)))) v))
      else
        let present := fun r col => v.core.mbit o.mask r col
        let n := ((List.range 32).map fun r => ((List.range cols).filter (present r)).length).sum
        let at_ (r col : Nat) : Nat := code (drw (lane wide r col) (r * cols + col))
        .ran (fin 2048 n (v.onCore fun c =>
          if wide then c.setTile 32 o.td fun r col => if present r col then at_ r col else c.elem 32 o.td r col
          else c.setMask (o.td.val % 8) fun r col => if present r col then at_ r col = 1 else c.mbit (o.td.val % 8) r col))

/-- A comparison of VMASK: every one but UNORD is false where either operand is NaN (R185). -/
def maskCmp (op : MaskOp) (a b : Val) : Bool :=
  match a, b with
  | .num x, .num y =>
    match op with
    | .cmpEq => x.eq y | .cmpNe => !x.eq y | .cmpLt => x.lt y | .cmpLe => !y.lt x | .cmpGt => y.lt x | .cmpGe => !x.lt y
    | _ => false
  | _, _ => op = .unord

/-- The operation compares tiles. -/
def MaskOp.isCmp : MaskOp → Bool
  | .cmpEq | .cmpNe | .cmpLt | .cmpLe | .cmpGt | .cmpGe | .unord => true
  | _ => false

/-- VMASK (R185). A comparison in the 32-bit view leaves bits [63:32] of each row as free values (log entry 7). -/
def vmaskRun (ci : CInfo) (idx : Nat) (o : VmaskOp) (v : CV) : TStarted :=
  v.tvuGo ci idx (if o.op.isCmp then [o.a, o.b] else []) (if o.op.isCmp then [] else [o.a.val % 8, o.b.val % 8]) 0 fun v =>
    let c := v.core
    let w := o.wf.fmt.width
    let t := o.wf.fmt
    let a (r col : Nat) : Bool := c.mbit (o.a.val % 8) r col
    let b (r col : Nat) : Bool := c.mbit (o.b.val % 8) r col
    let n := (c.c o.n).toNat
    let base := v.pg.fresh
    let f (r col : Nat) : Bool :=
      match o.op with
      | .and => a r col && b r col
      | .or => a r col || b r col
      | .xor => a r col != b r col
      | .andn => a r col && !b r col
      | .not => !a r col
      | .set => true
      | .clr => false
      | .firstn => decide (col < n)
      | _ => if col < o.wf.cols then maskCmp o.op (t.decode (c.elem w o.a r col)) (t.decode (c.elem w o.b r col))
             else Config.freeWord (base + 64 * r + col) % 2 = 1
    let nan := o.op.isCmp && (List.range 32).any fun r => (List.range o.wf.cols).any fun col =>
      t.decode (c.elem w o.a r col) = .nan || t.decode (c.elem w o.b r col) = .nan
    .ran ((((v.onCore (Core.setMask o.mkd f)).flagT ci (flIf nan flNanIn)).onPg fun p =>
      if o.op.isCmp && o.wf.wide then { p with fresh := p.fresh + 2048 } else p).perf (Reg.TVU_LANEOP_LO ci.n)
        (if o.op.isCmp then 1024 else 0))

/-- Start one queued TVU instruction. -/
def tvuStart (ci : CInfo) (idx : Nat) (i : CoreInsn) (v : CV) : TStarted :=
  match i with
  | .vop o => vopRun ci idx o v
  | .vtens o => vtensRun ci idx o v
  | .vtensLd o => vtensLdRun ci idx o v
  | .vtensSt o => vtensStRun ci idx o v
  | .vred o => vredRun ci idx o v
  | .vcvt o => vcvtRun ci idx o v
  | .vseed o => vseedRun ci idx o v
  | .vdraw o => vdrawRun ci idx o v
  | .vmask o => vmaskRun ci idx o v
  | _ => .ran v

/-- Start queued TVU instructions in order while they can start (R50, R199, R201, R260). -/
def tvuPump (ci : CInfo) : Nat → CV → CV
  | 0, v => v
  | fuel + 1, v =>
    if v.core.failed || v.core.tStop || v.core.tWait || v.pg.bit (Reg.TVU_DBG_CTRL ci.n) 30 || !v.core.mayStart 1 then v
    else match v.core.tvq with
      | [] => v
      | (idx, i) :: rest =>
        match tvuStart ci idx i v with
        | .waits => { pg := v.pg.sat Reg.BEAT_SHFULL_CNT 1, core := { v.core with tWait := true } }
        | .ran w => tvuPump ci fuel (w.onCore fun c => if c.tStop then c else { c with tvq := rest, ord := eraseKind 1 c.ord })

end Sys2Proof.Machine
end

