-- ==== Sys2Proof/Machine/Hwops.lean ====
section
/-! DEFINITION. The named operations over the whole hardware: its parts, the context that holds a beat slot, the firewall
and fencing, queue rings and events (R15, R16, R39, R446, R451 to R455, R542 to R548). -/

namespace Sys2Proof.Machine

/-! ## Parts -/

/-- Register space. -/
abbrev Hw.pg (h : Hw) : Pages := h.dev.pg

/-- Apply an update of register space. -/
def Hw.onPg (f : Pages → Pages) (h : Hw) : Hw := { h with dev := h.dev.onPg f }

/-- Apply an update of register space and memory. -/
def Hw.onDev (f : Dev → Dev) (h : Hw) : Hw := { h with dev := f h.dev }

/-- Apply an update of memory. -/
def Hw.onMem (f : Mem → Mem) (h : Hw) : Hw := { h with dev := h.dev.onMem f }

/-- Physical core n. -/
def Hw.core (h : Hw) (n : Nat) : Core := tget (fun _ => Core.reset) h.cores n

/-- Set a physical core. -/
def Hw.setCore (n : Nat) (c : Core) (h : Hw) : Hw := { h with cores := tset (fun _ => Core.reset) h.cores n c }

/-- Update a physical core. -/
def Hw.modCore (n : Nat) (f : Core → Core) (h : Hw) : Hw := h.setCore n (f (h.core n))

/-- What the device holds for a context. -/
def Hw.ctx (h : Hw) (c : Nat) : Ctx := tget (fun _ => Ctx.reset) h.ctxs c

/-- Update what the device holds for a context. -/
def Hw.modCtx (c : Nat) (f : Ctx → Ctx) (h : Hw) : Hw := { h with ctxs := tmod (fun _ => Ctx.reset) h.ctxs c f }

/-- Update a context's launch. -/
def Hw.modLaunch (c : Nat) (f : Launch → Launch) (h : Hw) : Hw := h.modCtx c fun x => { x with launch := x.launch.map f }

/-- The cache entry behind a handle (R245). -/
def Ctx.modOf (x : Ctx) (hd : Nat) : Option Module :=
  (x.handles.find? fun e => e.1 = hd).bind fun e => (x.cache.find? fun m => m.1 = e.2).map (·.2)

/-- The module of a context's launch. -/
def Hw.launchMod (c : Nat) (h : Hw) : Option Module := (h.ctx c).launch.bind fun l => (h.ctx c).modOf l.handle

/-- A link. -/
def Hw.link (h : Hw) (p : Nat) : Link := tget (fun _ => Link.reset) h.links p

/-- The block state of context c on physical core n: the core itself when the context holds it, else what is parked
(R446). -/
def Hw.ctxCore (n c : Nat) (h : Hw) : Core :=
  if (h.core n).owner = some c then h.core n else tget (fun _ => Core.reset) h.parks (256 * n + c)

/-- Update the block state of context c on physical core n, wherever it is. -/
def Hw.modOwned (n c : Nat) (f : Core → Core) (h : Hw) : Hw :=
  if (h.core n).owner = some c then h.modCore n f
  else { h with parks := tmod (fun _ => Core.reset) h.parks (256 * n + c) f }

/-- A queue. -/
def Hw.queue (h : Hw) (q : Nat) : Queue := tget (fun _ => Queue.reset) h.hif.queues q

/-- Update a queue. -/
def Hw.modQueue (q : Nat) (f : Queue → Queue) (h : Hw) : Hw :=
  { h with hif := { h.hif with queues := tmod (fun _ => Queue.reset) h.hif.queues q f } }

/-- A Bay's own state. -/
def Hw.bay (h : Hw) (b : Nat) : BayX := tget (fun _ => BayX.reset) h.bays b

/-- Update a Bay's own state. -/
def Hw.modBay (b : Nat) (f : BayX → BayX) (h : Hw) : Hw := { h with bays := tmod (fun _ => BayX.reset) h.bays b f }

/-- Own node ID. -/
def Pages.node (p : Pages) : Nat := p.get Reg.CAP_NODE 15 0

/-! ## Contexts, partitions, beat slots (R443 to R446) -/

/-- The context that holds a partition in the beat: entry N mod L of its table, when it names a context bound to the
partition (R446). -/
def Pages.slotCtx (p : Pages) (part : Nat) : Option Nat :=
  let l := p.get (Reg.HIF_PART_SLOTLEN part) 6 0
  let i := p.beatNum.toNat % (max 1 l)
  let e := p.get (Reg.HIF_SLOT (16 * part + i / 4)) (8 * (i % 4) + 7) (8 * (i % 4))
  if p.ctxSt e ≠ 0 ∧ p.ctxPart e = part then some e else none

/-- A context has a launch accepted or running. -/
def Hw.launched (h : Hw) (c : Nat) : Bool := (h.ctx c).launch.isSome

/-- Contexts that the device holds something for, in order. -/
def Hw.ctxList (h : Hw) : List Nat := h.ctxs.map (·.1)

/-- Any context has a launch accepted or running. -/
def Hw.anyLaunch (h : Hw) : Bool := h.ctxList.any h.launched

/-- Any context of a partition has a launch accepted or running. -/
def Hw.partLaunch (h : Hw) (part : Nat) : Bool := h.ctxList.any fun c => h.launched c && h.pg.ctxPart c = part

/-- The effective mode of a context's launch: 0 when it has none. -/
def Hw.mode (h : Hw) (c : Nat) : Nat := ((h.ctx c).launch.map (·.mode)).getD 0

/-- The context whose slot beat a logical core runs; a core of an idle partition has none. -/
def Hw.coreCtx (h : Hw) (l : Nat) : Option Nat := h.pg.slotCtx (h.pg.bayPart (l / 8))

/-- The surroundings of logical core l under context c. -/
def Hw.ciOf (h : Hw) (l c : Nat) : CInfo :=
  let hi := h.pg.get (Reg.CTX_SCR c) 15 8 * 65536
  let pool := min (((h.ctx c).launch.map (·.pool)).getD 0) ((hi - h.pg.get (Reg.CTX_SCR c) 7 0 * 65536) / 4096)
  { n := h.pg.physOf l
    l := l
    ctx := c
    gen := h.pg.ctxGen c
    mode := h.mode c
    winLo := h.pg.get (Reg.CTX_SCR c) 7 0 * 65536
    winHi := hi
    poolLo := hi / 4096 - pool
    poolN := pool
    preg := (h.ctx c).preg }

/-! ## Rings and events (R451 to R455) -/

/-- Entries of a ring: 2^LOG2N. -/
def Pages.ringLen (p : Pages) (q : Nat) : Nat := 2 ^ p.get (Reg.Q_CTRL q) 20 16

/-- Free entries of a ring. -/
def Pages.ringFree (p : Pages) (q : Nat) : Nat :=
  let n := p.ringLen q
  n - 1 - (p.get (Reg.Q_TAIL q) 15 0 + n - p.get (Reg.Q_HEAD q) 15 0) % n

/-- A queue is enabled with a kind: 0 SQ, 1 CQ, 2 MRQ, 3 EQ. -/
def Pages.qIs (p : Pages) (q kind : Nat) : Bool := p.bit (Reg.Q_CTRL q) 31 && decide (p.get (Reg.Q_CTRL q) 29 28 = kind)

/-- The context whose range holds a queue (R449). -/
def Pages.qOwner (p : Pages) (q : Nat) : Option Nat :=
  (List.range 256).find? fun c =>
    let f := p.get (Reg.CTX_QRANGE c) 29 16
    decide (f ≤ q) && decide (q < f + p.get (Reg.CTX_QRANGE c) 9 0)

/-- A ring access fails: the queue is disabled, RING_FAULT set and the detector raised (R467, R469). -/
def Hw.ringFault (q bus : Nat) (h : Hw) : Hw :=
  h.onPg fun p => ((p.setb (Reg.Q_CTRL q) 31 false).setb (Reg.Q_STAT q) 30 true).raise Pg.hif 2 bus ((p.qOwner q).bind p.ctxId)

/-- The function whose bus addresses a queue's ring lies at: its owner's (R449). -/
def Pages.qFn (p : Pages) (q : Nat) : Nat := match p.qOwner q with | some c => p.ctxFunc c | none => 0

/-- Signal a queue's MSI-X vector if ARM is set, and clear ARM (R451). -/
def Pages.qSignal (q : Nat) (p : Pages) : Pages :=
  if p.bit (Reg.Q_STAT q) 27 then
    (p.setb (Reg.Q_STAT q) 27 false).msix (p.qFn q) (p.get (Reg.Q_CTRL q) 7 0)
  else p

/-- Bytes sent to the host. -/
def Pages.hostTx (n : Nat) (p : Pages) : Pages := p.count Reg.HIF_TXB_LO n

/-- Bytes received from the host. -/
def Pages.hostRx (n : Nat) (p : Pages) : Pages := p.count Reg.HIF_RXB_LO n

/-- Write host memory for a queue. -/
def Hw.busWrite (q bus : Nat) (bs : List Byte) (h : Hw) : Hw :=
  (h.onMem (Mem.hostWrite (h.pg.qFn q) bus bs)).onPg (Pages.hostTx bs.length)

/-- The opportunities that a ring access of a queue takes (R529). -/
def Hw.ringTried (q : Nat) (h : Hw) : Hw := { h with dev := { h.dev with pg := (h.pg.draw.2.fire Pg.hif 2 q).2 } }

/-- A ring access of a queue reaches the host, or fails: the host's answer is a free value (log entry 23), and an injected RING_FAULT fails
it too (R467, R529). -/
def Hw.ringReach (q bus : Nat) (h : Hw) : Bool × Hw :=
  let a := Config.ringAns (h.pg.qFn q) bus h.pg.fresh % 3
  let t := h.ringTried q
  if a = 0 ∧ !(h.pg.draw.2.fire Pg.hif 2 q).1 then (true, t)
  else (false, (if a = 1 then t.onPg (Pages.sat Reg.HIF_ATS_FAIL_CNT 1) else t).ringFault q bus)

/-- The bus address of slot i of a ring. -/
def Pages.slotBus (p : Pages) (q size i : Nat) : Nat := (p.rd64 (Reg.Q_BASE_LO q)).toNat + size * i

/-- Write one entry of size bytes at a ring's tail: the entry's PHASE goes into bit 0 of byte at_, the tail moves, and an
armed queue signals its vector; a ring access that fails disables the queue (R451, R453, R467). -/
def Hw.ringPut (q size at_ : Nat) (e : List Byte) (h : Hw) : Hw :=
  let t := h.pg.get (Reg.Q_TAIL q) 15 0
  let bus := h.pg.slotBus q size t
  let r := h.ringReach q bus
  if !r.1 then r.2
  else
    let ph : Nat := if (h.queue q).wraps then 0 else 1
    let bs := (e.take at_ ++ bytesLE 1 (((e.getD at_ 0).toNat / 2) * 2 + ph) ++ e.drop (at_ + 1)).take size
    let t1 := (t + 1) % h.pg.ringLen q
    let h1 := (r.2.busWrite q bus bs).onPg fun p => p.put (Reg.Q_TAIL q) 15 0 t1
    (if t1 = 0 then h1.modQueue q fun x => { x with wraps := !x.wraps } else h1).onPg (Pages.qSignal q)

/-- Post a 32 B event entry to an event queue, or drop it with OVF and Q_DROP (R451, R455). -/
def Hw.eqPost (q : Nat) (e : List Byte) (h : Hw) : Hw :=
  if !h.pg.qIs q 3 then h
  else if h.pg.ringFree q = 0 then h.onPg fun p => (p.setb (Reg.Q_STAT q) 29 true).sat (Reg.Q_DROP q) 1
  else h.ringPut q 32 31 e

/-- An event of a context: kind and 16 B of data; context 0 and the device use HIF_EQ; a context in TEARING posts nothing
(R455, R460). -/
def Hw.event (kind c : Nat) (data : List Byte) (h : Hw) : Hw :=
  let reg := if c = 0 then Reg.HIF_EQ else Reg.CTX_EQ c
  let e := bytesLE 2 kind ++ bytesLE 1 c ++ bytesLE 1 (h.pg.ctxGen c) ++ bytesLE 6 h.pg.beatNum.toNat ++ bytesLE 2 0 ++
    (data ++ List.replicate 20 0).take 16 ++ bytesLE 4 0
  if h.pg.ctxSt c = 2 ∧ kind ≠ 4 then h
  else if h.pg.bit reg 31 then h.eqPost (h.pg.get reg 13 0) e else h

/-- A device event to HIF_EQ. -/
def Hw.devEvent (kind c : Nat) (data : List Byte) (h : Hw) : Hw :=
  let e := bytesLE 2 kind ++ bytesLE 1 c ++ bytesLE 1 (h.pg.ctxGen c) ++ bytesLE 6 h.pg.beatNum.toNat ++ bytesLE 2 0 ++
    (data ++ List.replicate 20 0).take 16 ++ bytesLE 4 0
  if h.pg.bit Reg.HIF_EQ 31 then h.eqPost (h.pg.get Reg.HIF_EQ 13 0) e else h

/-- The EXACT promise of a context is lost: its bit in BEAT_EXACT_LOST, with an event when it was clear (R59, R455). -/
def Hw.exactLost (c : Nat) (h : Hw) : Hw :=
  if h.mode c = 2 ∧ !h.pg.bit (Reg.BEAT_EXACT_LOST (c / 32)) (c % 32) then
    (h.onPg (Pages.setb (Reg.BEAT_EXACT_LOST (c / 32)) (c % 32) true)).event 7 c []
  else h

/-- A throttle event loses EXACT of every running context (R59). -/
def Hw.exactLostAll (h : Hw) : Hw := h.ctxList.foldl (fun h c => h.exactLost c) h

/-! ## Firewall and fencing (R16, R542 to R548) -/

/-- State of a physical core: 0 ACTIVE, 1 SPARE, 2 FENCED, 3 OFFLINE (R546). -/
def Pages.coreSt (p : Pages) (n : Nat) : Nat := p.get (Reg.BAY_CORE_STAT (n / 9)) (2 * (n % 9) + 1) (2 * (n % 9))

/-- Set a physical core's state, with BAY_STAT's count and spare slot. -/
def Pages.setCoreSt (n st : Nat) (p : Pages) : Pages :=
  let b := n / 9
  let p1 := p.put (Reg.BAY_CORE_STAT b) (2 * (n % 9) + 1) (2 * (n % 9)) st
  let lost := ((List.range 9).filter fun k => decide (2 ≤ p1.coreSt (9 * b + k))).length
  let sp := ((List.range 9).find? fun k => p1.coreSt (9 * b + k) = 1).getD 15
  (p1.put (Reg.BAY_STAT b) 11 8 lost).put (Reg.BAY_STAT b) 3 0 sp

/-- The four pages of a physical core. -/
def corePages (n : Nat) : List Nat := [Pg.mxa n, Pg.tvu n, Pg.gig n, Pg.scr n]

/-- Evaluate a condition whose event raises its detector itself, real or injected (R529). -/
def Hw.holds (pg det addr : Nat) (real : Bool) (h : Hw) : Bool × Hw :=
  let o := h.pg.holds pg det addr real
  (o.1, { h with dev := { h.dev with pg := o.2 } })

/-- An injected condition makes its event happen at this evaluation (R529). -/
def Hw.injected (pg det addr : Nat) (f : Hw → Hw) (h : Hw) : Hw :=
  let o := h.holds pg det addr false
  if o.1 then f o.2 else o.2

/-- The context of a Bay's current beat slot, as its detectors capture it (R558). -/
def Pages.bayCx (p : Pages) (b : Nat) : CtxId := (p.slotCtx (p.bayPart b)).bind p.ctxId

/-- The firewall of a Bay drops an access at a device address (R16, R543). -/
def Pages.fwDrop (b addr : Nat) (p : Pages) : Pages := (p.sat (Reg.BAY_FW_DROP b) 1).raise (Pg.bay b) 0 addr (p.bayCx b)

/-- A logical core's scratch window may be reached: the physical core it maps to is not fenced or offline, its spare is
zeroed, and its Bay is in service (R543, R544). -/
def Hw.reach (h : Hw) (l : Nat) : Bool :=
  decide (h.pg.coreSt (h.pg.physOf l) = 0) && !h.pg.bit (Reg.BAY_STAT (l / 8)) 31

/-- A core stops for good: nothing of it is written further, queues and shadow are lost (R543). -/
def Core.halted (c : Core) : Core :=
  { c with failed := true, mxq := [], tvq := [], gq := [], grun := none, held := [], ord := [], outs := [], wait := none, spec := none,
           blk := none, loading := none, mWait := false, tWait := false }

/-- Mark every running context of a partition for the cause FENCED (R41, R543). -/
def Hw.markFenced (part : Nat) (h : Hw) : Hw :=
  h.ctxList.foldl (fun h c => if h.pg.ctxPart c = part then h.modLaunch c fun l => { l with fenced := true } else h) h

/-- The fencing cycle of one core, without the Bay's loss: pages, state, record (R543). -/
def Hw.fenceOnly (n cause det page : Nat) (h : Hw) : Hw :=
  let b := n / 9
  let h1 := (h.modCore n Core.halted).onPg fun p =>
    let p1 := (corePages n).foldl (fun p pg => (p.setb (Reg.PG_CTRL pg) 1 true).setb (Reg.PG_STAT pg) 30 true) p
    let p2 := p1.setCoreSt n 2
    (p2.wr (Reg.BAY_FENCE_LAST b) (BitVec.ofNat 32 (2 ^ 31 + cause * 2 ^ 28 + n % 9 * 2 ^ 24 + det % 32 * 2 ^ 16 + page % 4096))).wr64
      (Reg.BAY_FENCE_BEAT_LO b) (p.beatNum.setWidth 64)
  h1.markFenced (h.pg.bayPart b)

/-- Working spares and Bays in service as CAP_BAYS shows them, lowered (R23, R545). -/
def Pages.capBays (bays spares : Nat) (p : Pages) : Pages :=
  p.capSet (fun p => (p.put Reg.CAP_BAYS 3 0 (p.get Reg.CAP_BAYS 3 0 - bays)).put Reg.CAP_BAYS 23 16 (p.get Reg.CAP_BAYS 23 16 - spares))
    [Reg.CAP_BAYS]

/-- A Bay goes out of service: OOS, every core fenced, CAP_BAYS falls (R545). -/
def Hw.bayOut (b : Nat) (h : Hw) : Hw :=
  if h.pg.bit (Reg.BAY_STAT b) 31 then h
  else
    let sp := ((List.range 9).filter fun k => h.pg.coreSt (9 * b + k) = 1).length
    let h1 := h.onPg (Pages.setb (Reg.BAY_STAT b) 31 true)
    let h2 := (List.range 9).foldl (fun h k => if h.pg.coreSt (9 * b + k) < 2 then h.fenceOnly (9 * b + k) 5 0 0 else h) h1
    h2.onPg (Pages.capBays 1 sp)

/-- Fence a physical core: an idle spare only lowers the count of spares; an active core without a spare in its Bay takes
the Bay out of service (R542 to R547). -/
def Hw.fence (n cause det page : Nat) (h : Hw) : Hw :=
  let b := n / 9
  let st := h.pg.coreSt n
  if 2 ≤ st then h
  else
    let h1 := h.fenceOnly n cause det page
    if st = 1 then (if h.pg.bit (Reg.BAY_STAT b) 31 then h1 else h1.onPg (Pages.capBays 0 1))
    else
      -- a second logical slot that already waits for the one spare leaves none for this core (R547)
      let waitingSlots := ((rangeFrom (8 * b) 8).filter fun l => decide (h1.pg.coreSt (h1.pg.physOf l) ≠ 0)).length
      let spares := ((List.range 9).filter fun k => h1.pg.coreSt (9 * b + k) = 1).length
      if spares < waitingSlots then h1.bayOut b else h1

/-- A detector of class UNIT of a core's pages, or SHADOW_PAR, that is set in one register space and not in another: detector, page. -/
def newUnit (n : Nat) (old new : Pages) : Nat × Nat :=
  let all : List (Nat × Nat) := ((corePages n).flatMap fun pg => (List.range 8).map fun d => (d, pg)) ++ [(6, Pg.beat)]
  (all.find? fun x =>
    new.bit (Reg.PG_ERR_STAT x.2) x.1 && !old.bit (Reg.PG_ERR_STAT x.2) x.1 && decide (detClass x.2 x.1 = 5)).getD (0, Pg.mxa n)

/-- A committed programme exception halts its context, with an EXC event (R41, R280, R455). -/
def Hw.excHalt (ci : CInfo) (h : Hw) : Hw :=
  if (h.ctx ci.ctx).launch.any fun l => !l.exc then
    let u := (h.ctxCore ci.n ci.ctx).excRec
    (h.modLaunch ci.ctx fun l => { l with exc := true, excVote := true, halted := true }).event 3 ci.ctx
      (bytesLE 1 u.1 ++ bytesLE 1 (u.2.1 % 16) ++ bytesLE 1 ci.l ++ bytesLE 1 0 ++ bytesLE 4 (u.2.2 % 2 ^ 24))
  else h

/-- Settle what a core's own step left behind: a failed core is fenced; a committed exception halts its context with an
EXC event (R41, R280, R455, R542). -/
def Hw.settle (ci : CInfo) (old : Pages) (h : Hw) : Hw :=
  let c := h.core ci.n
  let h1 := if c.failed ∧ h.pg.coreSt ci.n < 2 then
      let d := newUnit ci.n old h.pg
      h.fence ci.n 1 d.1 d.2
    else h
  if c.exc then h1.excHalt ci else h1

/-- Run a core-level function on logical core ci.l and settle it. -/
def Hw.onCv (ci : CInfo) (f : CV → CV) (h : Hw) : Hw :=
  let r := f { pg := h.pg, core := h.core ci.n }
  ({ h with dev := { h.dev with pg := r.pg } }.setCore ci.n r.core).settle ci h.pg

/-- Raise a run-time fault of the XFER queue or control on a core (R280). -/
def Hw.xfault (ci : CInfo) (code index : Nat) (h : Hw) : Hw := h.onCv ci (CV.except ci .xfer code index)

/-- The firewall check of an access to a logical core's scratch window: it drops one behind a fenced core, and one that an injected
FW_DENY names (R16, R529, R543). -/
def Hw.fwCheck (l o : Nat) (h : Hw) : Bool × Hw :=
  let a := scrBase + l * 0x1000000 + o
  if !h.reach l then (true, h.onPg (Pages.fwDrop (l / 8) a))
  else
    let f := h.pg.fire (Pg.bay (l / 8)) 0 a
    (f.1, { h with dev := { h.dev with pg := if f.1 then f.2.fwDrop (l / 8) a else f.2 } })

/-- An inbound write to a logical core's scratch: the committed frame, and the shadow frame of a page that has one, unless the
firewall drops it (R52, R543). -/
def Hw.scrInbound (l o : Nat) (bs : List Byte) (h0 : Hw) : Hw :=
  let f := h0.fwCheck l o
  let h := f.2
  if f.1 then h
  else h.modCore (h.pg.physOf l) fun c =>
    let c1 := c.setC o bs
    { c1 with spec := c1.spec.map fun s => { s with
        bytes := bs.zipIdx.foldl (fun t b => if scrPage (o + b.2) ∈ s.pages then tinsert (terase t (o + b.2)) (o + b.2) b.1 else t) s.bytes } }

/-- A read of a logical core's committed scratch from outside the core; one that the firewall drops reads zeros (R52, R272, R543).
The lines are checked as they are read (R537). -/
def Hw.scrOutside (l o n : Nat) (h0 : Hw) : List Byte × Hw :=
  let f := h0.fwCheck l o
  let h := f.2
  if f.1 then (List.replicate n 0, h)
  else
    let ph := h.pg.physOf l
    let ci := h.ciOf l ((h.coreCtx l).getD 0)
    let h1 := h.onCv ci (CV.scrCheck ci o n)
    ((rangeFrom o n).map (h.core ph).byteC, h1)

end Sys2Proof.Machine
end

