-- ==== Sys2Proof/Machine/Fabric.lean ====
section
/-! DEFINITION. The router: creating packets, the checks of a packet that enters, dateline VCs, grants; and what arriving
packets do at their target: memory, declarations, atomics, messages (R373 to R397, R52, R62, R214 to R216, R230, R273,
R306). -/

namespace Sys2Proof.Machine

/-! ## Creating packets (R373, R376, R377, R391, R394) -/

/-- A packet created by this device: source, injection bank, fence epoch, beat stamp, sealed. -/
def Pages.mkPacket (p : Pages) (dst opc vc ctx gen addr pseq tag : Nat) (sot eot : Bool) (ext : W64) (payload : List Byte) (score : Nat) : Packet :=
  ({ dst := dst, src := p.node, ctx := ctx, gen := gen, bank := p.get Reg.RTR_BANK 0 0, vc := vc, opc := opc,
     fep := p.get Reg.RTR_FEP 7 0, addr := addr, eot := eot, sot := sot, len := payload.length, beat := p.beatNum.toNat % 8,
     pseq := pseq % 64, tag := tag % 2 ^ 23, ext := ext, hcrc := 0, payload := payload, score := score } : Packet).seal

/-- In-flight counter of a bank (R392). -/
def inflightReg (bank : Nat) : Nat := if bank = 0 then Reg.RTR_INFLIGHT_A else Reg.RTR_INFLIGHT_B

/-- A packet enters the router: its bank's counter rises and DRAINED of the bank clears (R392). -/
def Pages.flyIn (bank : Nat) (p : Pages) : Pages :=
  (p.put (inflightReg bank) 15 0 (p.get (inflightReg bank) 15 0 + 1)).setb Reg.RTR_BANK (8 + bank % 2) false

/-- A packet leaves the router's count (R392). -/
def Pages.flyOut (bank : Nat) (p : Pages) : Pages := p.put (inflightReg bank) 15 0 (p.get (inflightReg bank) 15 0 - 1)

/-- The opcode's VC pair (R375): none for an opcode that is not listed. -/
def opcVcs (opc : Nat) : List Nat :=
  if opc = 0x01 ∨ opc = 0x02 ∨ opc = 0x03 ∨ opc = 0x06 then [0, 1]
  else if opc = 0x04 ∨ opc = 0x05 ∨ opc = 0x07 then [2, 3]
  else if opc = 0x08 then [6]
  else if opc = 0x10 ∨ opc = 0x11 ∨ opc = 0x18 ∨ opc = 0x19 then [4, 5]
  else if 0x20 ≤ opc ∧ opc ≤ 0x23 then [7] else []

/-- A packet breaks R375 (BADPKT of R378). -/
def Packet.malformed (k : Packet) : Bool :=
  k.vc ∉ opcVcs k.opc || decide (4096 < k.len) ||
    ((k.opc = 0x20 || k.opc = 0x21) &&
      (decide (k.addr < regBase) || decide (regBase + 0x4000000 ≤ k.addr) ||
        (let w := if k.opc = 0x20 then k.len else k.ext.toNat % 16
         w ≠ 4 && w ≠ 8)))

/-- The context a router detector captures: none for management packets (R397). -/
def Packet.cx (k : Packet) : CtxId := if k.vc = 7 then none else some (k.ctx, k.gen)

/-- Extent of an axis (CAP_AXIS). -/
def Pages.extent (p : Pages) (a : Nat) : Nat := p.get Reg.CAP_AXIS (8 * a + 7) (8 * a)

/-- The VC of a packet that leaves by a port: the upper VC of a pair across the axis's dateline, kept along the axis, the
lower after a turn (R382). -/
def Pages.vcOut (p : Pages) (inp : Option Nat) (out vc : Nat) : Nat :=
  if 6 ≤ vc ∨ 8 ≤ out then vc
  else
    let a := out / 2
    let c := coordOf p.node a
    let base := vc / 2 * 2
    let now := if inp.any fun i => i < 8 && i / 2 = a then vc else base
    if (out % 2 = 0 ∧ c + 1 = p.extent a) ∨ (out % 2 = 1 ∧ c = 0) then base + 1 else now

/-- An entry of a bank at an offset fails its parity check as the lookup reads it (R398). -/
def Pages.tabPar (bank : Nat) : TabCheck := fun off p => p.detect (Pg.rtab bank) 0 off none false

/-- The outcome of the router's checks. -/
inductive Verdict where
  | drop (counter : Nat)
  | lost
  | out (port : Nat) (detour : Bool)
  | here
  deriving DecidableEq, Repr

/-- The router's checks of a packet, in the order of R378, with the detectors of R397; role is the address a Dareder answers to (R388). DESIGN CHOICE
(log entry 94): a packet of this device passes no input buffer, and XBAR_PAR captures port 15 for it. -/
def Pages.checkPacket (inp : Option Nat) (k : Packet) (role : Nat) (p : Pages) : Verdict × Pages :=
  let hc := p.detect Pg.rtr 0 (k.src * 65536 + k.dst) k.cx (inp.isSome && decide (k.hcrc ≠ k.crc))
  if hc.1 then (.lost, hc.2)
  else if inp.isSome ∧ k.vc ≠ 7 ∧ k.fep ≠ hc.2.get Reg.RTR_FEP 7 0 then (.drop Reg.RTR_DROP_EPOCH, hc.2)
  else if k.malformed then (.drop Reg.RTR_DROP_BADPKT, hc.2)
  else
    let bp := if inp.isSome then hc.2.detect Pg.rtr 1 (inp.getD 0 * 256 + k.vc) k.cx false else (false, hc.2)
    let xp := bp.2.detect Pg.rtr 2 (inp.getD 15 * 256 + k.vc) k.cx false
    if bp.1 || xp.1 then (.lost, xp.2)
    else
      let r := xp.2.routeOf (Pages.tabPar k.bank) k.bank k.vc k.dst role
      match r.1.1 with
      | .noRoute => (.drop Reg.RTR_DROP_NOROUTE, r.2)
      | .here => (.here, r.2)
      | .toPort q => if r.2.portUp q then (.out q r.1.2, r.2) else (.drop Reg.RTR_DROP_LINKDOWN, r.2)

/-- This device's Dareder address (R388): 0xFFFF active, 0xFFFE standby. -/
def Hw.role (h : Hw) : Nat := if h.pod.active then 0xFFFF else 0xFFFE

/-- Return the credits of a packet that leaves an input buffer (R352). -/
def Hw.giveCredit (inp : Option Nat) (k : Packet) (h : Hw) : Hw :=
  match inp with
  | none => h
  | some p =>
    let v : LV := { pg := h.pg, lk := Link.owe k.vc (flitsOf k.payload.length) (h.link p) }
    let w := if h.pg.looped p then v else v.idle p 9
    { h with dev := { h.dev with pg := w.pg }, links := tset (fun _ => Link.reset) h.links p w.lk }

/-- A packet enters the router, from a port or by injection: it is dropped and counted, held for its output port, or held
for this node (R378, R389). A router whose page is off, fenced or in reset drops what reaches it (R81). -/
def Hw.routeIn (inp : Option Nat) (k : Packet) (h : Hw) : Hw :=
  if !h.pg.works Pg.rtr then h.giveCredit inp k
  else
  let h0 := h.onPg (Pages.flyIn k.bank)
  let r := h0.pg.checkPacket inp k h.role
  let h1 : Hw := { h0 with dev := { h0.dev with pg := r.2 } }
  match r.1 with
  | .drop c => (h1.onPg fun p => (p.sat c 1).flyOut k.bank).giveCredit inp k
  | .lost => (h1.onPg (Pages.flyOut k.bank)).giveCredit inp k
  | .here => { h1 with rtr := { h1.rtr with local_ := h1.rtr.local_ ++ [(k, inp)] } }
  | .out q detour =>
    let vc := if detour then k.vc else h1.pg.vcOut inp q k.vc
    let h2 := if inp.isSome then h1.onPg (Pages.count Reg.RTR_FWD_LO 1) else h1
    { h2 with rtr := { h2.rtr with held := h2.rtr.held ++ [⟨{ k with vc := vc }, q, inp, k.vc⟩] } }

/-! ## Injection, and the digest of shadow mode (R553, R554) -/

/-- SHDW_CTRL names this context in a role: 1 PRIMARY, 2 SHADOW. -/
def Pages.shadowRole (p : Pages) (c : Nat) : Nat :=
  if p.get Reg.SHDW_CTRL 7 0 = c then p.get Reg.SHDW_CTRL 31 30 else 0

/-- Add a transfer's digest to its beat (R554). -/
def Hw.digest (c beat : Nat) (d : W64) (h : Hw) : Hw :=
  if h.pg.shadowRole c = 0 then h
  else { h with shdw := { h.shdw with dig := tmod (fun _ => 0) h.shdw.dig (beat % 8) (· ^^^ d) } }

/-- The bytes that begin a transfer's digest (R554). -/
def digHead (dst tag tlen : Nat) : List Byte := bytesLE 2 dst ++ bytesLE 3 tag ++ bytesLE 4 tlen

/-- Inject a packet: a SHADOW injects nothing of its context on VCs 0 to 6 (R553). -/
def Hw.inject (k : Packet) (h : Hw) : Hw :=
  if k.vc ≠ 7 ∧ h.pg.shadowRole k.ctx = 2 then h
  else (h.onPg (Pages.count Reg.RTR_INJ_LO 1)).routeIn none k

/-- Split a transfer of n bytes at every 4,096-byte-aligned boundary of its destination address (R376): address and
length of each piece. -/
def splitAt4k (a : Nat) : Nat → Nat → List (Nat × Nat)
  | 0, _ => []
  | _, 0 => []
  | fuel + 1, n =>
    let k := min n (4096 - a % 4096)
    (a, k) :: splitAt4k (a + k) fuel (n - k)

/-- The pieces of a transfer; one of no bytes is one packet (R376). -/
def pieces (addr n : Nat) : List (Nat × Nat) := if n = 0 then [(addr, 0)] else splitAt4k addr (n / 4096 + 2) n

/-- Packet i of a transfer of bs to addr: the first carries the length, the last the CRC-64 (R373, R376, R377). -/
def Pages.piece (p : Pages) (dst opc vc ctx gen addr tag score : Nat) (bs : List Byte) (x : (Nat × Nat) × Nat) : Packet :=
  let n := (pieces addr bs.length).length
  let i := x.2
  let ext : W64 := if i + 1 = n then crc64 bs else if i = 0 then BitVec.ofNat 64 bs.length else 0
  p.mkPacket dst opc vc ctx gen x.1.1 i tag (i = 0) (i + 1 = n) ext (slice (x.1.1 - addr) x.1.2 bs) score

/-- Send a transfer as packets with one tag and one CRC-64 (R272, R373, R376, R377). -/
def Hw.sendTransfer (dst opc vc ctx gen addr tag score : Nat) (bs : List Byte) (h : Hw) : Hw :=
  (pieces addr bs.length).zipIdx.foldl (fun h x => h.inject (h.pg.piece dst opc vc ctx gen addr tag score bs x))
    (h.digest ctx h.pg.beatNum.toNat (crc64 (digHead dst tag bs.length ++ bs)))

/-! ## Grants (R385 to R387) -/

/-- A packet is VOTE or RESULT. -/
def Packet.conf (k : Packet) : Bool := k.opc = 0x18 || k.opc = 0x19

/-- The packets a port may grant, in R387's order: VC 7, VOTE and RESULT, then VCs 0 to 6 from the port's round-robin
place. -/
def Router.grantOrder (r : Router) (p : Nat) : List Held :=
  let mine := r.held.filter fun x => x.out = p
  let first (t : Held → Bool) : List Held := (mine.find? t).toList
  let rr := tget (fun _ => 0) r.rr p
  first (fun x => x.pkt.vc = 7) ++ first (fun x => x.pkt.conf) ++
    ((List.range 7).flatMap fun i => first fun x => x.pkt.vc = (rr + i) % 7 && !x.pkt.conf)

/-- Take the first occurrence of a value out of a list. -/
def dropFirst {α : Type} [DecidableEq α] (a : α) : List α → List α
  | [] => []
  | x :: xs => if x = a then xs else x :: dropFirst a xs

/-- An output port grants one packet onto its link once the link takes all its flits (R385 to R387). -/
def Hw.grant (p : Nat) (h : Hw) : Hw :=
  let v : LV := { pg := h.pg, lk := h.link p }
  match (h.rtr.grantOrder p).find? fun x => v.canSend p x.pkt.vc (flitsOf x.pkt.payload.length) x.pkt.conf with
  | none => h
  | some x =>
    let v1 := v.sendPacket p x.pkt
    let h1 : Hw := { h with
      dev := { h.dev with pg := v1.pg }
      links := tset (fun _ => Link.reset) h.links p v1.lk
      rtr := { h.rtr with
        held := dropFirst x h.rtr.held
        flying := h.rtr.flying ++ [(p, x.pkt.bank, (v1.lk.txSeq + 4095) % 4096)]
        rr := if x.pkt.vc < 7 ∧ !x.pkt.conf then tset (fun _ => 0) h.rtr.rr p ((x.pkt.vc + 1) % 7) else h.rtr.rr } }
    h1.giveCredit x.inp { x.pkt with vc := x.vin }

/-- Packets whose last flit has been acknowledged leave the in-flight count (R392). -/
def Hw.landed (p : Nat) (h : Hw) : Hw :=
  let live (q : Nat) : Bool := (h.link p).replay.any fun e => e.1.seq = q
  let gone := h.rtr.flying.filter fun f => f.1 = p && !live f.2.2
  gone.foldl (fun h f => h.onPg (Pages.flyOut f.2.1))
    { h with rtr := { h.rtr with flying := h.rtr.flying.filter fun f => !(f.1 = p && !live f.2.2) } }

/-- The logical core of a partition index of a context (R374). -/
def Pages.coreAt (p : Pages) (c i : Nat) : Option Nat := (p.partCores (p.ctxPart c))[i]?

/-- The core to whose Gig FIFO a message of this device is addressed (R215, R374). -/
def Hw.msgCore (k : Packet) (h : Hw) : Option Nat :=
  if k.opc = 0x08 && k.addr / 512 % 2 = 0 && decide (k.dst = h.pg.node) && decide (h.pg.ctxSt k.ctx ≠ 0) && decide (k.ctx < 256) &&
      decide (h.pg.ctxGen k.ctx = k.gen) then (h.pg.coreAt k.ctx (k.addr % 128)).filter h.reach else none

/-- The name under which a message's reservation is kept: its header's check. -/
def Packet.resvKey (k : Packet) : Nat := k.hcrc.toNat

/-- Change what a core's FIFO reserves, and the registers that show it. -/
def Hw.onFifo (ci : CInfo) (f : CV → CV) (h : Hw) : Hw :=
  let r := f { pg := h.pg, core := h.core ci.n }
  ({ h with dev := { h.dev with pg := r.pg } } : Hw).setCore ci.n r.core

/-- The first flit of a message of several flits brings its header: the FIFO reserves its entries (R215). -/
def Hw.msgHeader (p : Nat) (k : Packet) (h : Hw) : Hw :=
  if h.pg.get (Reg.LINK_STAT p) 27 26 ≠ 0 || !h.pg.works Pg.rtr then h
  else match h.msgCore k with
    | none => h
    | some l => h.onFifo (h.ciOf l k.ctx) (CV.fifoReserve (h.ciOf l k.ctx) k.resvKey (h.coreCtx l = some k.ctx) k.len)

/-- A message whose header came is lost on the way: its reservation ends. -/
def Hw.msgLost (k : Packet) (h : Hw) : Hw :=
  match h.msgCore k with
  | none => h
  | some l => h.onFifo (h.ciOf l k.ctx) (CV.fifoRelease (h.ciOf l k.ctx) k.resvKey)

/-- The bank of the packet whose first flits have entered the router from a port, while the link does not drop it. -/
def Link.partBank (l : Link) : Option Nat := if l.part.isEmpty || l.dropping then none else some (Packet.parse l.part).bank

/-- A packet counts in flight from its first flit (R392): the partial packet of a port counted before leaves the count when it is completed, after which it
enters anew as a whole, or is lost; a new one enters it. -/
def Hw.partCount (before now : Link) (ended : Bool) (h : Hw) : Hw :=
  if !h.pg.works Pg.rtr || (!ended && decide (before.part.take 32 = now.part.take 32)) then h
  else
    let h1 := match before.partBank with | some b => h.onPg (Pages.flyOut b) | none => h
    match now.partBank with | some b => h1.onPg (Pages.flyIn b) | none => h1

/-- Run a link function on port p, hand the packets it yields to the router, and follow acknowledgements; a message in arrival holds its
reservation while its packet is on the link (R215). -/
def Hw.onLink (p : Nat) (f : LV → List Packet × LV) (h : Hw) : Hw :=
  let old := (h.link p).part
  let r0 := f { pg := h.pg, lk := h.link p }
  let r := (r0.1, (r0.2.settle p).loop p h.pod.cfgEp 32 (h.link p).sent.length)
  let h1 : Hw := { h with dev := { h.dev with pg := r.2.pg }, links := tset (fun _ => Link.reset) h.links p r.2.lk }
  let h2 := r.1.foldl (fun h k =>
    let g := h.routeIn (some p) k
    if g.rtr.local_.length ≤ h.rtr.local_.length then g.msgLost k else g) ((h1.landed p).partCount (h.link p) r.2.lk !r.1.isEmpty)
  let new := r.2.lk.part
  let h3 := if r.1.isEmpty && decide (new.take 32 ≠ old.take 32) && !old.isEmpty then h2.msgLost (Packet.parse old) else h2
  if new.isEmpty || new.take 32 = old.take 32 then h3 else h3.msgHeader p (Packet.parse new)

/-- Run a link function that yields no packet. -/
def Hw.onLink0 (p : Nat) (f : LV → LV) (h : Hw) : Hw := h.onLink p fun v => ([], f v)

/-! ## Taking a packet at its target (R378) -/

/-- Take a packet out of those held for this node: ejected, counted, its credits returned. -/
def Hw.eject (x : Packet × Option Nat) (h : Hw) : Hw :=
  (({ h with rtr := { h.rtr with local_ := dropFirst x h.rtr.local_ } }.onPg fun p =>
    (p.count Reg.RTR_EJ_LO 1).flyOut x.1.bank)).giveCredit x.2 x.1

/-- The packet of a packet command, with its port of entry: one that enters from a port and reaches this node, or the
oldest held for this node with the command's opcode. -/
def Hw.arrive (t : Packet → Bool) (src : PktSrc) (h : Hw) : Option (Packet × Option Nat) × Hw :=
  if !h.pg.works Pg.rtr then (none, h)
  else match src with
  | .here =>
    match h.rtr.local_.find? fun x => t x.1 with
    | some x => (some x, h.eject x)
    | none => (none, h)
  | .port p k =>
    if !t k then (none, h)
    else
      let h1 := h.routeIn (some p.val) k
      if h.rtr.local_.length < h1.rtr.local_.length then (some (k, some p.val), h1.eject (k, some p.val)) else (none, h1)

/-- The lowest Bay of a context's partition. -/
def Pages.lowBay (p : Pages) (c : Nat) : Nat := ((p.partBays (p.ctxPart c)).head?).getD 0

/-- The Bay that serves an inbound packet with a partition index (R306). -/
def Pages.inBay (p : Pages) (c i : Nat) : Nat :=
  match p.coreAt c i with
  | some l => l / 8
  | none => p.lowBay c

/-- The logical core that a scratch packet may reach: inside the partition, and inside the context's window (R378,
R445). -/
def Pages.scrTarget (p : Pages) (c i o n : Nat) : Option Nat :=
  match p.coreAt c i with
  | some l => if p.get (Reg.CTX_SCR c) 7 0 * 65536 ≤ o ∧ o + n ≤ p.get (Reg.CTX_SCR c) 15 8 * 65536 then some l else none
  | none => none

/-- The SCRATCH check fails: counted in the lowest Bay of the partition, with the packet's ADDR (R378). -/
def Hw.scrDrop (k : Packet) (h : Hw) : Hw := h.onPg (Pages.fwDrop (h.pg.lowBay k.ctx) k.addr)

/-- Inbound translation failed: the packet is dropped and counted (R306), while MEMXL does its work. -/
def Hw.inbFault (h : Hw) : Hw := if h.pg.works Pg.memxl then h.onPg (Pages.sat Reg.XL_INB_FAULT 1) else h

/-- Operand size of an atomic: only ADD.I64 has 8 bytes. -/
def aopSize (aop : Nat) : Nat := if aop = 1 then 8 else 4

/-- Copy an accepted packet out of the mirror port of a PRIMARY, or drop the copy (R553). -/
def Hw.mirror (k : Packet) (h : Hw) : Hw :=
  if h.pg.shadowRole k.ctx ≠ 1 then h
  else
    let q := h.pg.get Reg.SHDW_CTRL 19 16
    let v : LV := { pg := h.pg, lk := h.link q }
    if v.canSend q k.vc (flitsOf k.payload.length) k.conf then
      let v1 := v.sendPacket q k
      { h with dev := { h.dev with pg := v1.pg }, links := tset (fun _ => Link.reset) h.links q v1.lk }
    else { (h.onPg (Pages.sat Reg.SHDW_MIR_DROP 1)) with
      shdw := { h.shdw with mdrop := tset (fun _ => false) h.shdw.mdrop (k.beat % 8) true } }

/-- The SCRATCH and TRANSLATE checks of a packet pass (R378). -/
def Hw.checksPass (k : Packet) (h : Hw) : Bool :=
  let okT (r : Reader) (bay n : Nat) (w : Bool) : Bool := match (h.dev.translate r bay k.ctx k.addr n w).1 with | .ok _ => true | .error _ => false
  if k.opc = 0x01 ∨ k.opc = 0x04 then okT .dma (h.pg.inBay k.ctx (k.tag / 65536)) k.payload.length true
  else if k.opc = 0x02 ∨ k.opc = 0x05 then (h.pg.scrTarget k.ctx (k.tag / 65536) k.addr k.payload.length).isSome
  else if k.opc = 0x03 then
    (if ofBytesLE (slice 7 1 k.payload) / 2 % 2 = 1 then (h.pg.scrTarget k.ctx (ofBytesLE (slice 6 1 k.payload) % 128) k.addr (ofBytesLE (slice 8 4 k.payload))).isSome
     else okT .remote (h.pg.lowBay k.ctx) (ofBytesLE (slice 8 4 k.payload)) false)
  else if k.opc = 0x06 then okT .dma (h.pg.lowBay k.ctx) (aopSize (k.tag % 16)) true
  else if k.opc = 0x08 ∧ k.addr / 512 % 2 = 0 then (h.pg.coreAt k.ctx (k.addr % 128)).isSome
  else true

/-- The CONTEXT check: the context is bound (or tearing) and of the packet's generation; a packet that passes the checks of R378 is then copied by R553. -/
def Hw.ctxCheck (k : Packet) (h : Hw) : Bool × Hw :=
  if h.pg.ctxSt k.ctx ≠ 0 ∧ k.ctx < 256 ∧ h.pg.ctxGen k.ctx = k.gen then (true, if h.checksPass k then h.mirror k else h)
  else (false, h.onPg (Pages.sat Reg.RTR_DROP_GEN 1))

/-- What a packet of a context does at this node once it is taken and passes the CONTEXT check (R378). -/
def Hw.onPacket (test : Packet → Bool) (src : PktSrc) (f : Packet → Hw → Hw) (h : Hw) : Hw :=
  let a := h.arrive test src
  match a.1 with
  | none => a.2
  | some (k, _) => let c := a.2.ctxCheck k; if c.1 then f k c.2 else c.2

/-! ## Declarations (R230, R379, R380) -/

/-- One packet counted against its declaration. -/
def Decl.take (d : Decl) (k : Packet) : Decl :=
  let len := if k.sot && d.len = none then some (if k.eot then k.len else k.ext.toNat % 2 ^ 32) else d.len
  let got := d.got + k.len
  let crc := crc64Run d.crc k.payload
  let wrong := (k.sot && d.sot) || (!k.sot && !d.sot) || decide (k.pseq ≠ d.next % 64) ||
    (match len with | some n => decide (n < got) | none => false) ||
    (k.eot && decide (crc ^^^ BitVec.allOnes 64 ≠ k.ext))
  { d with len := len, got := got, crc := crc, next := d.next + 1, sot := d.sot || k.sot, bad := d.bad || wrong,
           done := d.done || (k.eot && !wrong && !d.bad && len = some got) }

/-- Count an arrived packet's payload against the declarations of the context's beat (R379). -/
def Hw.countDecl (k : Packet) (h : Hw) : Hw :=
  if k.beat % 8 ≠ h.pg.beatNum.toNat % 8 then h.onPg (Pages.sat Reg.RTR_LATE_CNT 1)
  else
    match (h.ctx k.ctx).decls.find? fun d => d.tag = k.tag && !d.void && !d.stage with
    | none => h.onPg (Pages.sat Reg.RTR_UNDECL_CNT 1)
    | some d =>
      let d1 := d.take k
      let h1 := if d1.bad && !d.bad then h.onPg (Pages.sat Reg.RTR_CRC_BAD_CNT 1) else h
      h1.modCtx k.ctx fun x => { x with decls := x.decls.map fun e => if e.tag = k.tag then d1 else e }

/-! ## Memory packets (R379, R272) -/

/-- Write a packet's payload at a CVA of its context. Answers whether it has landed. -/
def Hw.landCva (k : Packet) (h : Hw) : Bool × Hw :=
  let bay := h.pg.inBay k.ctx (k.tag / 65536)
  let t := h.dev.translate .dma bay k.ctx k.addr k.payload.length true
  let h1 : Hw := { h with dev := t.2 }
  match t.1 with
  | .error _ => (false, h1.inbFault)
  | .ok segs => (true, (h1.onDev (Dev.writeSegs .dma (some (k.ctx, k.gen)) segs k.payload)).countDecl k)

/-- Write a packet's payload to the scratch of the core its TAG names. Answers whether it has landed. -/
def Hw.landScr (k : Packet) (h : Hw) : Bool × Hw :=
  match h.pg.scrTarget k.ctx (k.tag / 65536) k.addr k.payload.length with
  | none => (false, h.scrDrop k)
  | some l =>
    let h1 := h.scrInbound l k.addr k.payload
    if h.reach l then (true, h1.countDecl k) else (false, h1)

/-- n bytes of the response of an XGET with a tag have landed: it ends with the last of them (R279). -/
def getLanded (tag n : Nat) : List OutRec → List OutRec
  | [] => []
  | o :: os =>
    match o.kind with
    | .xget t left => if t = tag then (if left ≤ n then os else { o with kind := .xget t (left - n) } :: os) else o :: getLanded tag n os
    | _ => o :: getLanded tag n os

/-- A packet of an XGET's response has landed, whether its declaration stands or is void (R230, R279). -/
def Hw.getDone (k : Packet) (h : Hw) : Hw :=
  match h.pg.coreAt k.ctx (k.tag / 65536) with
  | some l => h.modOwned (h.pg.physOf l) k.ctx fun c => { c with outs := getLanded (k.tag % 65536) k.payload.length c.outs }
  | none => h

/-- PUT, PUT_SCR, GET_RSP and GET_RSP_SCR: the payload lands, and a response counts for its XGET. -/
def Hw.landTake (opc : Nat) (k : Packet) (h : Hw) : Hw :=
  let r := if opc = 0x01 ∨ opc = 0x04 then h.landCva k else h.landScr k
  if r.1 && (opc = 0x04 || opc = 0x05) then r.2.getDone k else r.2

/-- The same as a packet command. -/
def Hw.landPacket (opc : Nat) (src : PktSrc) (h : Hw) : Hw := h.onPacket (fun k => k.opc = opc) src (Hw.landTake opc)

/-- A GET_REQ: the source is read by a Bay DMA, from a CVA or the committed frame of a core's scratch, and sent back as
GET_RSP packets; a poisoned source sends nothing (R272, R289, R306, R375). -/
def Hw.getServe (k : Packet) (h : Hw) : Hw :=
  let f (i n : Nat) : Nat := ofBytesLE (slice i n k.payload)
  let dst := f 0 6
  let rc := f 6 1 % 128
  let len := f 8 4
  let answer (bs : List Byte) (h : Hw) : Hw :=
    h.sendTransfer k.src (if f 7 1 % 2 = 1 then 0x05 else 0x04) 2 k.ctx k.gen dst k.tag 0 bs
  if f 7 1 / 2 % 2 = 1 then
    match h.pg.scrTarget k.ctx rc k.addr len with
    | none => h.scrDrop k
    | some l => let r := h.scrOutside l k.addr len; answer r.1 r.2
  else
    let t := h.dev.translate .remote (h.pg.lowBay k.ctx) k.ctx k.addr len false
    let h1 : Hw := { h with dev := t.2 }
    match t.1 with
    | .error _ => h1.inbFault
    | .ok segs =>
      let r := h1.dev.readSegs .remote (some (k.ctx, k.gen)) segs
      let h2 : Hw := { h1 with dev := r.2 }
      match r.1 with
      | none => h2
      | some bs => answer bs h2

/-- The same as a packet command. -/
def Hw.getReq (src : PktSrc) (h : Hw) : Hw := h.onPacket (fun k => k.opc = 0x03) src Hw.getServe

/-! ## Atomics (R273) -/

/-- The result of an atomic on an old value (R273, R124). -/
def aopEval (aop : Nat) (old val : Nat) : Nat :=
  let s := signedOf 32
  let fl (v : Val) : Nat := (Fmt.f32w.encode .default 0 v).1
  if aop = 0 then (old + val) % 2 ^ 32
  else if aop = 1 then (old + val) % 2 ^ 64
  else if aop = 2 then fl (Val.add (Fmt.f32w.decode old) (Fmt.f32w.decode val)).1
  else if aop = 3 then (if s old < s val then val else old)
  else if aop = 4 then (if s val < s old then val else old)
  else if aop = 5 then fl (Val.max (Fmt.f32w.decode old) (Fmt.f32w.decode val)).1
  else fl (Val.min (Fmt.f32w.decode old) (Fmt.f32w.decode val)).1

/-- Apply an atomic to a CVA of a context: translated with W; a poisoned line keeps its poison (R289, R306). Answers
whether it was applied. -/
def Hw.atomApply (c aop cva : Nat) (val : W64) (h : Hw) : Bool × Hw :=
  let n := aopSize aop
  let t := h.dev.translate .dma (h.pg.lowBay c) c cva n true
  let h1 : Hw := { h with dev := t.2 }
  match t.1 with
  | .error _ => (false, h1.inbFault)
  | .ok segs =>
    let cx : CtxId := h.pg.ctxId c
    let r := h1.dev.readSegs .dma cx segs
    match r.1 with
    | none => (false, { h1 with dev := r.2 })
    | some bs => (true, { h1 with dev := r.2.writeSegs .dma cx segs (bytesLE n (aopEval aop (ofBytesLE bs) (val.toNat % 2 ^ (8 * n)))) })

/-- Acknowledge an atomic. -/
def Hw.atomAck (k : Packet) (h : Hw) : Hw :=
  h.inject (h.pg.mkPacket k.src 0x07 2 k.ctx k.gen 0 0 k.tag true true (crc64 []) [] 0)

/-- An ATOM packet: applied in FAST, held to the boundary in RESULT and EXACT while the buffer of 4,096 has room. One that fails translation
is dropped as it arrives, neither held nor acknowledged (R306). DESIGN CHOICE (log entry 94): so is one of an AOP that R271 does not list. -/
def Hw.atomTake (k : Packet) (h : Hw) : Hw :=
  let val : W64 := BitVec.ofNat 64 (ofBytesLE k.payload)
  let aop := k.tag % 16
  if 6 < aop then h
  else if h.mode k.ctx = 0 then
    let r := h.atomApply k.ctx aop k.addr val
    if r.1 then r.2.atomAck k else r.2
  else
    let t := h.dev.translate .dma (h.pg.lowBay k.ctx) k.ctx k.addr (aopSize aop) true
    let h : Hw := { h with dev := t.2 }
    match t.1 with
    | .error _ => h.inbFault
    | .ok _ =>
      if 4096 ≤ (h.ctx k.ctx).held.length then h
      else (h.modCtx k.ctx fun x => { x with held := x.held ++ [⟨k.src, k.score, x.held.length, aop, k.addr, val⟩] }).atomAck k

/-- The same as a packet command. -/
def Hw.atom (src : PktSrc) (h : Hw) : Hw := h.onPacket (fun k => k.opc = 0x06) src Hw.atomTake

/-- An ATOM_ACK completes the oldest outstanding atomic sent to its source. -/
def Hw.ackTake (k : Packet) (h : Hw) : Hw :=
  match (h.ctx k.ctx).unacked.find? fun u => u.2 = k.src with
  | none => h
  | some u =>
    let h1 := h.modCtx k.ctx fun x => { x with unacked := x.unacked.filter (· ≠ u) }
    (h1.pg.partCores (h1.pg.ctxPart k.ctx)).foldl
      (fun h l => h.modOwned (h.pg.physOf l) k.ctx fun co => { co with outs := co.outs.filter fun o => o.kind ≠ .xatom u.1 }) h1

/-- The same as a packet command. -/
def Hw.atomAcked (src : PktSrc) (h : Hw) : Hw := h.onPacket (fun k => k.opc = 0x07) src Hw.ackTake

/-- Insert a held atomic in the order of R273: source node, source core, issue order. -/
def atomInsert (x : HeldAtom) : List HeldAtom → List HeldAtom
  | [] => [x]
  | y :: ys =>
    if y.node < x.node ∨ (y.node = x.node ∧ (y.core < x.core ∨ (y.core = x.core ∧ y.seq ≤ x.seq))) then y :: atomInsert x ys
    else x :: y :: ys

/-- At the boundary the held atomics are applied in order (R273). -/
def Hw.atomFlush (c : Nat) (h : Hw) : Hw :=
  let l := (h.ctx c).held.foldl (fun l x => atomInsert x l) []
  l.foldl (fun h a => (h.atomApply c a.aop a.cva a.val).2) (h.modCtx c fun x => { x with held := [] })

/-! ## The Input Journal (R62 to R64) -/

/-- Place bytes in the journal's ring, wrapping at its end. -/
def Hw.jWrite (off : Nat) (bs : List Byte) (h : Hw) : Hw :=
  let size := 2 ^ h.pg.get Reg.JRNL_SIZE 5 0
  let base := (h.pg.rd64 Reg.JRNL_BASE_LO).toNat
  let o := off % size
  let k := min bs.length (size - o)
  (h.onDev fun d => d.write .chaise none (base + o) (bs.take k)).onDev fun d =>
    if k < bs.length then d.write .chaise none base (bs.drop k) else d

/-- A line of the ring that n bytes at an offset write only in part is poisoned: the write of those bytes met poison (R71). -/
def Hw.jPoisoned (off n : Nat) (h : Hw) : Bool :=
  let size := 2 ^ h.pg.get Reg.JRNL_SIZE 5 0
  let base := (h.pg.rd64 Reg.JRNL_BASE_LO).toNat
  (List.range (n / 32)).any fun i =>
    let a := base + (off + 32 * i) % size
    tget (fun _ => false) h.dev.mem.poison (a / 64)

/-- Write one journal record, or drop it with RING_FULL and OVF (R63, R64). A ring outside the usable far tier is a WRITE_ERR, and so is a
write that meets poison: the journal stops with the record unwritten (R71); a record that would touch a hole raises DECODE too (R98). DESIGN CHOICE (log entry 85): a record that would exactly
fill the ring, so that HEAD meets TAIL, does not fit. -/
def Hw.jRecord (c kind target : Nat) (payload : List Byte) (h : Hw) : Hw :=
  let size := 2 ^ h.pg.get Reg.JRNL_SIZE 5 0
  let head := (h.pg.rd64 Reg.JRNL_HEAD_LO).toNat
  let tail := (h.pg.rd64 Reg.JRNL_TAIL_LO).toNat
  let n := 32 + ceilDiv payload.length 32 * 32
  let used := (head + size - tail) % size
  let beat := h.pg.beatNum.toNat
  let seq := if h.hif.jBeat = beat then h.hif.jSeq else 0
  let full := h.holds Pg.jrnl 0 0 (decide (size ≤ used + n))
  let base := (h.pg.rd64 Reg.JRNL_BASE_LO).toNat
  let lost := full.2.holds Pg.jrnl 3 0 (decide (h.pg.rangeRegion base size ≠ .far))
  if full.1 then
    full.2.onPg fun p => ((p.sat Reg.JRNL_DROP_CNT 1).setb Reg.JRNL_STAT 2 true).raise Pg.jrnl 0 0 (p.ctxId c)
  else if lost.1 then
    (lost.2.onDev fun d => (d.decode (base + head) (h.pg.ctxId c) (decide (h.pg.rangeRegion (base + head) n = .hole))).2).onPg fun p => ((p.setb Reg.JRNL_CTRL 0 false).setb Reg.JRNL_STAT 0 false).raise Pg.jrnl 3 0 (p.ctxId c)
  else
    let hd := bytesLE 6 beat ++ bytesLE 1 c ++ bytesLE 1 kind ++ bytesLE 8 target ++ bytesLE 4 payload.length ++ bytesLE 4 seq
    let crc := crc32 (hd ++ bytesLE 4 0 ++ bytesLE 4 0 ++ payload)
    let rec_ := hd ++ bytesLE 4 crc.toNat ++ bytesLE 4 0 ++ payload ++ List.replicate (n - 32 - payload.length) 0
    let w := lost.2.jWrite head rec_
    if w.jPoisoned head n then
      w.onPg fun p => ((p.setb Reg.JRNL_CTRL 0 false).setb Reg.JRNL_STAT 0 false).raise Pg.jrnl 3 0 (p.ctxId c)
    else
    let h1 := w.onPg fun p => (p.wr64 Reg.JRNL_HEAD_LO (BitVec.ofNat 64 ((head + n) % size))).count Reg.JRNL_REC_LO 1
    { h1 with hif := { h1.hif with jBeat := beat, jSeq := seq + 1 } }

/-- Journal an external input of a context that JRNL_CTX_EN enables, split at 4,096 B (R62). -/
def Hw.journal (c kind target : Nat) (payload : List Byte) (h : Hw) : Hw :=
  if h.pg.bit Reg.JRNL_CTRL 0 && h.pg.enabled Pg.jrnl && h.pg.bit (Reg.JRNL_CTX_EN (c / 32)) (c % 32) then
    ((List.range (ceilDiv payload.length 4096)).foldl (fun h i =>
      h.jRecord c kind (if kind = 3 then target else target + 4096 * i) (slice (4096 * i) 4096 payload)) h)
  else h

/-- Live inputs of a context are ignored while its inputs are replayed (R64). -/
def Pages.jIgnores (p : Pages) (c : Nat) : Bool :=
  p.bit Reg.JRNL_CTRL 1 && p.bit Reg.JRNL_STAT 1 && p.bit (Reg.JRNL_CTX_EN (c / 32)) (c % 32)

/-! ## Groups (R399 to R403) -/

/-- LO and HI of a slot on an axis. -/
def Pages.grpLo (p : Pages) (k a : Nat) : Nat := p.get (Reg.GRP_BND k) (8 * a + 3) (8 * a)
def Pages.grpHi (p : Pages) (k a : Nat) : Nat := p.get (Reg.GRP_BND k) (8 * a + 7) (8 * a + 4)
/-- Block size of a slot on an axis. -/
def Pages.grpBlk (p : Pages) (k a : Nat) : Nat := p.get (Reg.GRP_BLK k) (4 * a + 3) (4 * a) + 1
/-- Axis a is a ring axis of slot k. -/
def Pages.grpMask (p : Pages) (k a : Nat) : Bool := p.bit (Reg.GRP_CFG k) (24 + a)

/-- A slot's registers configure it, with this device a member (R403). -/
def Pages.grpMember (p : Pages) (k node : Nat) : Bool :=
  p.bit (Reg.GRP_CFG k) 31 && (List.range 4).all fun a => decide (p.grpLo k a ≤ coordOf node a) && decide (coordOf node a ≤ p.grpHi k a)

/-- The slot is configured, has not failed its parity check, and this device is a member (R403, R427). -/
def Hw.grpMember (k : Nat) (h : Hw) : Bool := decide (k ∉ h.grpLost) && h.pg.grpMember k h.pg.node

/-- Read a group slot: one that fails its parity check acts as not configured from then on (GRP_PAR, R427). -/
def Hw.grpRead (k : Nat) (h : Hw) : Hw :=
  let r := h.dev.detect (Pg.stg 0) 2 k none false
  { h with dev := r.2, grpLost := if r.1 then sadd h.grpLost k else h.grpLost }

/-- The first and last coordinate of this device's instance on an axis (R403). -/
def Pages.instLo (p : Pages) (k a : Nat) : Nat :=
  let c := coordOf p.node a
  if p.grpMask k a then c - (c - p.grpLo k a) % p.grpBlk k a else c
def Pages.instHi (p : Pages) (k a : Nat) : Nat :=
  if p.grpMask k a then p.instLo k a + p.grpBlk k a - 1 else coordOf p.node a

/-- A node ID with its coordinate on axis a replaced. -/
def withCoord (node a c : Nat) : Nat := node - coordOf node a * 16 ^ a + c * 16 ^ a

/-- A node lies in this device's instance of a slot; slot 0xFF is this device alone. -/
def Pages.inInstance (p : Pages) (k node : Nat) : Bool :=
  if k = 0xFF then node = p.node
  else (List.range 4).all fun a => decide (p.instLo k a ≤ coordOf node a) && decide (coordOf node a ≤ p.instHi k a)

/-! ## Messages (R215, R456) -/

/-- A MSG packet for a Gig FIFO: a declared one is counted when the FIFO takes it; one from outside the context's group is
journalled, and ignored while its context is replayed (R62, R64, R215, R272, R379). -/
def Hw.msgTake (k : Packet) (h : Hw) : Hw :=
  match h.pg.coreAt k.ctx (k.addr % 128) with
  | none => h.scrDrop k
  | some l =>
    if !h.reach l then h.onPg (Pages.fwDrop (l / 8) (scrBase + l * 0x1000000))
    else
      let inside := h.pg.inInstance (((h.ctx k.ctx).launch.map (·.group)).getD 0xFF) k.src
      if !inside && h.pg.jIgnores k.ctx then h.onPg (Pages.sat Reg.JRNL_LIVE_DROP 1)
      else
      let h1 := if inside then h else h.journal k.ctx 2 k.addr k.payload
      let ci := h1.ciOf l k.ctx
      let v : CV := { pg := h1.pg, core := h1.core ci.n }
      let r := v.fifoArrive ci k.resvKey (h1.coreCtx l = some k.ctx) (k.tag % 65536) k.score k.src k.payload
      let h2 := { h1 with dev := { h1.dev with pg := r.2.pg } }.setCore ci.n r.2.core
      if r.1 && (k.addr / 256 % 2 = 1) then h2.countDecl k else h2

/-- The same as a packet command. -/
def Hw.msg (src : PktSrc) (h : Hw) : Hw := h.onPacket (fun k => k.opc = 0x08 && k.addr / 512 % 2 = 0) src Hw.msgTake

/-! ## Banks, epochs and histograms (R391 to R395) -/

/-- A beat number lies at least 2 beats ahead. -/
def Pages.twoAhead (p : Pages) (at_ : Nat) : Bool := decide (p.beatNum.toNat + 2 ≤ at_)

/-- A write of 1s to RTR_DRAIN_ARM (R392). -/
def Pages.drainArm (w : W32) (p : Pages) : Pages :=
  [0, 1].foldl (fun p b => if wbit w b ∧ p.get (inflightReg b) 15 0 = 0 ∧ p.get Reg.RTR_BANK 0 0 ≠ b then p.setb Reg.RTR_BANK (8 + b) true else p) p

/-- The bin of an occupancy in a buffer of a size (R395). -/
def histBin (occ size : Nat) : Nat :=
  if occ = 0 then 0 else if 8 * occ ≤ size then 1 else if 4 * occ ≤ size then 2 else if 8 * occ ≤ 3 * size then 3
  else if 2 * occ ≤ size then 4 else if 4 * occ ≤ 3 * size then 5 else if occ < size then 6 else 7

/-- Flits held of a port and VC, those of a packet in arrival among them (R395). -/
def Hw.occ (p vc : Nat) (h : Hw) : Nat :=
  let r := h.rtr
  let l := h.link p
  (if l.part.isEmpty || l.dropping || (Packet.parse l.part).vc ≠ vc then 0 else ceilDiv l.part.length 240) + ((r.held.filter fun x => x.inp = some p && x.vin = vc).map fun x => flitsOf x.pkt.payload.length).sum +
    ((r.local_.filter fun x => x.2 = some p && x.1.vc = vc).map fun x => flitsOf x.1.payload.length).sum

/-- Sample every input buffer (R395). -/
def Hw.histSample (h : Hw) : Hw :=
  if !h.pg.bit Reg.RTR_HIST_CTRL 31 then h
  else { h with rtr := { h.rtr with bins := (List.range 80).foldl (fun b i =>
      let k := i * 8 + histBin (h.occ (i / 8) (i % 8)) (creditInit (i % 8))
      tset (fun _ => 0) b k (min 65535 (tget (fun _ => 0) b k + 1))) h.rtr.bins } }

/-- Each input buffer's bins are checked as they are latched: a parity error makes the bin read 0xFFFF (R397). DESIGN CHOICE (log entry 94): the bin of the
buffer that fails is its bin 0. -/
def Pages.histCheck (p : Pages) : List Nat × Pages :=
  (List.range 80).foldl (fun x i =>
    let f := x.2.detect Pg.rtr 3 (i / 8 * 256 + i % 8) none false
    (if f.1 then x.1 ++ [8 * i] else x.1, f.2)) ([], p)

/-- At a boundary the bins of the beat that ends are latched with its number, and a new set starts (R395). -/
def Hw.histLatch (beat : Nat) (h : Hw) : Hw :=
  if !h.pg.bit Reg.RTR_HIST_CTRL 31 then h
  else
    let f := h.pg.histCheck
    let bin (i : Nat) : Nat := if i ∈ f.1 then 0xFFFF else tget (fun _ => 0) h.rtr.bins i
    let p1 := (List.range 320).foldl (fun (p : Pages) j => p.wr (Reg.RTR_HIST j)
      (BitVec.ofNat 32 (bin (2 * j) + bin (2 * j + 1) * 65536))) f.2
    { h with dev := { h.dev with pg := p1.wr64 Reg.RTR_HIST_BEAT_LO (BitVec.ofNat 64 beat) }, rtr := { h.rtr with bins := [] } }

end Sys2Proof.Machine
end

