-- ==== Sys2Proof/Machine/Colls.lean ====
section
/-! DEFINITION. Collectives: group members and ranks, Stage-engine rings with their sub-streams, all-to-all and permute,
the Bay combine unit with its taps, completion and abandonment (R399 to R430). -/

namespace Sys2Proof.Machine

/-! ## Members and rings (R403) -/

/-- The logical ring position of geometric position g on a ring of n, wrapped or folded. -/
def ringLp (wrap : Bool) (n g : Nat) : Nat := if wrap then g else if g % 2 = 0 then g / 2 else n - 1 - (g - 1) / 2

/-- The geometric position of a logical ring position. -/
def ringG (wrap : Bool) (n lp : Nat) : Nat := if wrap then lp else if 2 * lp ≤ n - 1 then 2 * lp else 2 * (n - 1 - lp) + 1

/-- The masked axes of a slot, in the order X, Y, Z, W. -/
def Pages.ringAxes (p : Pages) (k : Nat) : List RingAx :=
  ((List.range 4).filter (p.grpMask k)).map fun a =>
    let n := p.grpBlk k a
    ⟨a, n, ringLp (n = p.extent a) n (coordOf p.node a - p.instLo k a)⟩

/-- The node at a logical position of an axis, seen from this device. -/
def Pages.ringNode (p : Pages) (k : Nat) (r : RingAx) (lp : Nat) : Nat :=
  withCoord p.node r.ax (p.instLo k r.ax + ringG (r.n = p.extent r.ax) r.n (lp % r.n))

/-- The nodes of the instance in rank order, X fastest. -/
def Pages.instNodes (p : Pages) (k : Nat) : List Nat :=
  (p.ringAxes k).foldl
    (fun ns r => (List.range r.n).flatMap fun g => ns.map fun nd => withCoord nd r.ax (p.instLo k r.ax + g)) [p.node]

/-! ## Combining (R406, R413, R419) -/

/-- One combining step of two element codes, rounded once into the format. -/
def combine2 (rop : Rop) (t : Fmt) (a b : Nat) : Nat × FFlags :=
  let r := match rop with
    | .sum => Val.add (t.decode a) (t.decode b)
    | .max => Val.max (t.decode a) (t.decode b)
    | .min => Val.min (t.decode a) (t.decode b)
  let e := t.encode .default 0 r.1
  (e.1, r.2 ||| e.2)

/-- Combine two segments element by element. -/
def combineSeg (rop : Rop) (t : Fmt) (as bs : List Nat) : List Nat × FFlags :=
  let rs := List.zipWith (combine2 rop t) as bs
  (rs.map (·.1), rs.foldl (fun f r => f ||| r.2) 0)

/-- Element codes of a byte list. -/
def codesOf (t : Fmt) (bs : List Byte) : List Nat := (List.range (bs.length * 8 / t.width)).map (elemAt t.width bs)

/-- Bytes of element codes. -/
def bytesOf (t : Fmt) (cs : List Nat) : List Byte := cs.flatMap fun c => bytesLE (t.width / 8) c

/-- Bytes per element. -/
def Coll.esz (c : Coll) : Nat := c.fmt.width / 8

/-! ## Ranges and chunks (R412) -/

/-- Chunk j of a range over n positions. -/
def chunkOf (r : Nat × Nat) (n j : Nat) : Nat × Nat := (r.1 + j * (r.2 - r.1) / n, r.1 + (j + 1) * (r.2 - r.1) / n)

/-- The range before the stage of each masked axis, in axis order, and the owned range at the end. -/
def axisRanges : List RingAx → Nat × Nat → List (Nat × Nat × Nat) × (Nat × Nat)
  | [], r => ([], r)
  | x :: xs, r =>
    let rest := axisRanges xs (chunkOf r x.n x.lp)
    ((x.ax, r.1, r.2) :: rest.1, rest.2)

/-- The ring of a stage: stages 0 to 3 reduce on an axis, 4 to 7 copy on it (R407). -/
def Coll.ring (c : Coll) (stage : Nat) : Option RingAx := c.axes.find? fun r => r.ax = stage % 4

/-- The range of a stage. -/
def Coll.range (c : Coll) (stage : Nat) : Nat × Nat :=
  if c.kind = .cbcast then (0, c.count)
  else match (axisRanges c.axes (0, c.count)).1.find? fun x => x.1 = stage % 4 with
    | some x => x.2
    | none => (0, 0)

/-- Reach toward increasing and toward decreasing position: a and b of R413. -/
def reach (n dir : Nat) : Nat := if dir = 0 then n / 2 else n - 1 - n / 2

/-- Steps from position p to position q in a direction. -/
def ahead (n dir p q : Nat) : Nat := if dir = 0 then (q + n - p) % n else (p + n - q) % n

/-- The owners of a stage with their ranges: every chunk of the ring; under CBCAST the root's position with the whole
vector, when this member acts at the stage (R414). -/
def Coll.owners (c : Coll) (p : Pages) (stage : Nat) : List (Nat × Nat × Nat) :=
  match c.ring stage with
  | none => []
  | some r =>
    if c.kind = .cbcast then
      let root := c.nodes.getD c.extra 0
      let later := c.axes.filter fun x => r.ax < x.ax
      if later.all fun x => coordOf root x.ax = coordOf p.node x.ax then
        [(ringLp (r.n = p.extent r.ax) r.n (coordOf root r.ax - p.instLo c.slot r.ax), 0, c.count)]
      else []
    else (List.range r.n).map fun j => let k := chunkOf (c.range stage) r.n j; (j, k.1, k.2)

/-- Owners whose segments this member sends at a stage in a direction, first the ones it starts. -/
def Coll.sends (c : Coll) (p : Pages) (stage dir : Nat) : List (Nat × Nat × Nat) :=
  match c.ring stage with
  | none => []
  | some r => (c.owners p stage).filter fun o =>
      if stage < 4 then let e := ahead r.n dir r.lp o.1; decide (1 ≤ e) && decide (e ≤ reach r.n dir)
      else decide (ahead r.n dir o.1 r.lp < reach r.n dir)

/-- Owners whose segments this member receives at a stage in a direction. -/
def Coll.recvs (c : Coll) (p : Pages) (stage dir : Nat) : List (Nat × Nat × Nat) :=
  match c.ring stage with
  | none => []
  | some r => (c.owners p stage).filter fun o =>
      if stage < 4 then decide (ahead r.n dir r.lp o.1 < reach r.n dir)
      else let d := ahead r.n dir o.1 r.lp; decide (1 ≤ d) && decide (d ≤ reach r.n dir)

/-- Bytes of a list of owners' ranges. -/
def Coll.bytesFor (c : Coll) (os : List (Nat × Nat × Nat)) : Nat := c.esz * (os.map fun o => o.2.2 - o.2.1).sum

/-! ## Sending a segment (R407) -/

/-- Send one piece of a sub-stream: the next packet of STEP toward a node. -/
def Coll.sendPiece (step node tag opc off : Nat) (bs : List Byte) (c : Coll) (h : Hw) : Coll × Hw :=
  match c.outs.find? fun o => o.step = step && o.node = node with
  | none => (c, h)
  | some o =>
    let crc := crc64Run o.crc bs
    let last := decide (o.total ≤ o.sent + bs.length)
    let ropc := match c.rop with | .sum => 0 | .max => 1 | .min => 2
    let addr := c.slot % 64 + ropc * 64 + c.fmt.code % 16 * 256 + step % 16 * 4096 + off % 2 ^ 32 * 65536
    let ext : W64 := if last then crc ^^^ BitVec.allOnes 64 else if o.next = 0 then BitVec.ofNat 64 o.total else 0
    let k := h.pg.mkPacket node opc 4 c.ctx c.gen addr o.next (c.lane * 65536 + tag) (o.next = 0) last ext bs 0
    let dig := crc64Run (if o.next = 0 then crc64Run (BitVec.allOnes 64) (digHead node (c.lane * 65536 + tag) o.total) else o.dig) bs
    let o1 := { o with sent := o.sent + bs.length, next := o.next + 1, crc := crc, dig := dig }
    let h1 := if last then h.digest c.ctx c.beat (dig ^^^ BitVec.allOnes 64) else h
    let ax := step / 2 % 4
    ({ c with outs := c.outs.map fun x => if x.step = step ∧ x.node = node then o1 else x },
      (h1.onPg (Pages.count (Reg.STG_TX_LO ax) bs.length)).inject ({ k with beat := c.beat % 8 }.seal))

/-- Send elements from an offset in packets of at most 4,096 B. -/
def Coll.sendSeg (step node tag off : Nat) (cs : List Nat) (c : Coll) (h : Hw) : Coll × Hw :=
  let n := 4096 / c.esz
  (List.range (ceilDiv cs.length n)).foldl
    (fun r i => r.1.sendPiece step node tag 0x10 (off + n * i) (bytesOf c.fmt (slice (n * i) n cs)) r.2) (c, h)

/-! ## Storing results (R52, R410, R424) -/

/-- The part of translated segments that covers bytes [o, o + n). -/
def segSlice : List (Nat × Nat) → Nat → Nat → List (Nat × Nat)
  | [], _, _ => []
  | s :: ss, o, n =>
    if s.2 ≤ o then segSlice ss (o - s.2) n
    else
      let k := min n (s.2 - o)
      if k = 0 then [] else (s.1 + o, k) :: segSlice ss 0 (n - k)

/-- Store bytes at a byte offset of every destination of a collective, by the Stage engine or the Bay DMA. -/
def Coll.store (r : Reader) (off : Nat) (bs : List Byte) (c : Coll) (h : Hw) : Hw :=
  c.dests.foldl
    (fun h d =>
      if d.own then h.scrInbound d.core (d.base + off) bs
      else h.onDev (Dev.writeSegs r (some (c.ctx, c.gen)) (segSlice d.segs off bs.length) bs))
    h

/-! ## Stages (R412 to R416) -/

/-- Start a stage: reduce-scatter sends the own contribution of the chunks that start here; a copy sends what this member
owns. -/
def Coll.startStage (stage : Nat) (c : Coll) (h : Hw) : Coll × Hw :=
  match c.ring stage with
  | none => (c, h)
  | some r =>
    [0, 1].foldl
      (fun x dir =>
        let n := reach r.n dir
        let mine := (x.1.sends x.2.pg stage dir).filter fun o =>
          if stage < 4 then ahead r.n dir r.lp o.1 = n else ahead r.n dir o.1 r.lp = 0
        let node := x.2.pg.ringNode x.1.slot r (if dir = 0 then r.lp + 1 else r.lp + r.n - 1)
        mine.foldl (fun y o => y.1.sendSeg (2 * stage + dir) node y.1.ctag o.2.1 (slice o.2.1 (o.2.2 - o.2.1) y.1.vals) y.2) x)
      ({ c with owned := 0, hold := [] }, h)

/-- Replace elements from an offset. -/
def setCodes (vals : List Nat) (off : Nat) (cs : List Nat) : List Nat := vals.take off ++ cs ++ vals.drop (off + cs.length)

/-- Take a segment of a reduce-scatter stage: combine and forward, or combine at the owner (R413, R415). -/
def Coll.takeReduce (stage dir off : Nat) (cs : List Nat) (c : Coll) (h : Hw) : Coll × Hw :=
  match c.ring stage with
  | none => (c, h)
  | some r =>
    let x := slice off cs.length c.vals
    let own := chunkOf (c.range stage) r.n r.lp
    let fl (f : FFlags) (k : Nat) (h : Hw) : Hw :=
      h.onPg fun p => (p.upd (Reg.STG_FMT r.ax) (· ||| f)).count (Reg.STG_ELEM_LO r.ax) k
    if own.1 ≤ off ∧ off < own.2 then
      if reach r.n 1 = 0 then
        let a := combineSeg c.rop c.fmt cs x
        ({ c with vals := setCodes c.vals off a.1, owned := c.owned + cs.length }, fl a.2 cs.length h)
      else
        match c.hold.find? fun e => e.1 = off with
        | none =>
          ({ c with hold := c.hold ++ [(off, dir, cs)] }, h)
        | some e =>
          let first := e.2.2
          let l := if e.2.1 = 0 then first else cs
          let rr := if e.2.1 = 0 then cs else first
          let a := if c.fast then combineSeg c.rop c.fmt x first else combineSeg c.rop c.fmt l x
          let b := if c.fast then combineSeg c.rop c.fmt a.1 cs else combineSeg c.rop c.fmt a.1 rr
          ({ c with vals := setCodes c.vals off b.1, owned := c.owned + cs.length, hold := c.hold.filter (· ≠ e) },
            fl (a.2 ||| b.2) (2 * cs.length) h)
    else
      let a := combineSeg c.rop c.fmt cs x
      let node := h.pg.ringNode c.slot r (if dir = 0 then r.lp + 1 else r.lp + r.n - 1)
      c.sendSeg (2 * stage + dir) node c.ctag off a.1 (fl a.2 cs.length h)

/-- Take a segment of a copy stage: keep it, and forward it while it has further to go (R413, R414). -/
def Coll.takeCopy (stage dir off : Nat) (cs : List Nat) (c : Coll) (h : Hw) : Coll × Hw :=
  match c.ring stage with
  | none => (c, h)
  | some r =>
    let c1 := { c with vals := setCodes c.vals off cs }
    if (c.sends h.pg stage dir).any fun o => o.2.1 ≤ off && off < o.2.2 then
      c1.sendSeg (2 * stage + dir) (h.pg.ringNode c.slot r (if dir = 0 then r.lp + 1 else r.lp + r.n - 1)) c.ctag off cs h
    else (c1, h)

/-- A stage has ended: every expected sub-stream is done, every outbound one sent, the own chunk combined. -/
def Coll.stageDone (stage : Nat) (c : Coll) : Bool :=
  (c.ins.all fun s => s.step / 2 ≠ stage || s.done) && (c.outs.all fun s => s.step / 2 ≠ stage || decide (s.total ≤ s.sent)) &&
    (decide (4 ≤ stage) || match c.ring stage with
      | none => true
      | some r => let own := chunkOf (c.range stage) r.n r.lp; decide (own.2 - own.1 ≤ c.owned))

/-! ## Receiving (R408, R409) -/

/-- Judge one packet against an inbound sub-stream; answers the sub-stream and whether it failed. -/
def SubIn.take (s : SubIn) (k : Packet) : SubIn × Bool :=
  let got := s.got + k.len
  let crc := crc64Run s.crc k.payload
  let wrong := (k.sot && s.sot) || (!k.sot && !s.sot) || decide (k.pseq ≠ s.next % 64) ||
    s.want.any (fun w => decide (w < got)) || (k.eot && decide (crc ^^^ BitVec.allOnes 64 ≠ k.ext))
  ({ s with got := got, crc := crc, next := s.next + 1, sot := s.sot || k.sot,
            done := k.eot && !wrong && s.want.all (fun w => decide (w = got)) }, wrong)

/-- Mark the collective's declarations CRC_BAD and count the failed sub-stream. -/
def Coll.fail (ax : Nat) (c : Coll) (h : Hw) : Coll × Hw := ({ c with bad := true }, h.onPg (Pages.sat (Reg.STG_SUB_BAD ax) 1))

/-- A data packet's place: the element offset of its ADDR. -/
def Packet.elemOff (k : Packet) : Nat := k.addr / 65536

/-- The STEP of a packet (R374). -/
def Packet.step (k : Packet) : Nat := k.addr / 4096 % 16

/-- Act on a judged data packet. -/
def Coll.act (k : Packet) (c : Coll) (h : Hw) : Coll × Hw :=
  let cs := codesOf c.fmt k.payload
  match c.kind with
  | .callr | .crscat | .cagath | .cbcast =>
    if k.step / 2 < 4 then c.takeReduce (k.step / 2) (k.step % 2) k.elemOff cs h else c.takeCopy (k.step / 2) (k.step % 2) k.elemOff cs h
  | .ca2a | .ca2av =>
    match c.nodes.findIdx? (· = k.src) with
    | none => (c, h)
    | some s => (c, c.store .stage ((s * c.count + k.elemOff) * c.esz) k.payload h)
  | .cperm => (c, c.store .stage (k.elemOff * c.esz) k.payload h)

/-- Advance through ended stages, taking the early packets of each stage that starts. -/
def Coll.advance : Nat → Coll → Hw → Coll × Hw
  | 0, c, h => (c, h)
  | fuel + 1, c, h =>
    match c.stages with
    | [] => (c, h)
    | s :: rest =>
      if !c.stageDone s then (c, h)
      else
        match rest with
        | [] => ({ c with stages := [] }, h)
        | s1 :: _ =>
          let r := ({ c with stages := rest } : Coll).startStage s1 h
          let mine := r.1.early.filter fun k => k.step / 2 = s1
          let r1 := mine.foldl (fun x k => x.1.act k x.2) ({ r.1 with early := r.1.early.filter fun k => k.step / 2 ≠ s1 }, r.2)
          Coll.advance fuel r1.1 r1.2

/-- A data packet meets its collective. -/
def Coll.take (k : Packet) (c : Coll) (h : Hw) : Coll × Hw :=
  let ax := k.step / 2 % 4
  let h1 := h.onPg (Pages.count (Reg.STG_RX_LO ax) k.len)
  let c0 := if c.kind = .cperm ∧ (c.ins.all fun (s : SubIn) => decide (s.node ≠ k.src)) ∧ c.ins.length < c.extra ∧ k.src ∈ c.nodes ∧ k.sot then
      { c with ins := c.ins ++ [⟨k.step, k.src, some (if k.eot then k.len else k.ext.toNat % 2 ^ 32), 0, 0, false, BitVec.allOnes 64, false⟩] }
    else c
  match c0.ins.find? fun (s : SubIn) => decide (s.step = k.step) && decide (s.node = k.src) with
  | none => c0.fail ax h1
  | some s =>
    let j := s.take k
    let c1 := { c0 with ins := c0.ins.map fun (x : SubIn) => if x.step = s.step ∧ x.node = s.node then j.1 else x }
    if j.2 then c1.fail ax h1
    else
      let direct := c1.kind = .ca2a || c1.kind = .ca2av || c1.kind = .cperm
      if direct || c1.stages.head? = some (k.step / 2) then
        let r := c1.act k h1
        Coll.advance (r.1.stages.length + 1) r.1 r.2
      else ({ c1 with early := c1.early ++ [k] }, h1)

/-- Bytes that a collective holds for the other direction in the engine of an axis: in RESULT and EXACT an owner holds the partial that
arrives first (R415). -/
def Coll.holds (c : Coll) (a : Nat) : Nat :=
  if !c.fast && c.stages.head?.any (fun s => s % 4 = a) then (c.hold.map fun e => e.2.2.length).sum * c.esz else 0

/-- KiB of an engine's hold buffer in use (R426). -/
def Hw.holdKib (a : Nat) (h : Hw) : Nat := ceilDiv ((h.colls.map fun c => c.holds a).sum) 1024

/-- STG_STAT as it reads: HOLDING while a direction is held, ACTIVE while instructions are active, their number (R426). -/
def Hw.stgStat (a : Nat) (h : Hw) : W32 :=
  let n := (h.colls.filter fun c => c.axes.any fun r => r.ax = a).length
  BitVec.ofNat 32 ((if n = 0 then 0 else if h.holdKib a ≠ 0 then 2 else 1) * 2 ^ 29 + n % 65536)

/-- Replace a collective in the list of active ones; the highest use of the hold buffers is kept (R426). -/
def Hw.putColl (i : Nat) (c : Coll) (h : Hw) : Hw :=
  let h1 : Hw := { h with colls := h.colls.set i c }
  h1.onPg fun p => [0, 1, 2, 3].foldl (fun p a => p.maxFld (Reg.STG_HOLD_OCC a) 15 0 (h1.holdKib a)) p

/-- The engines of an instruction's axes count it abandoned (R425, R426). -/
def Pages.stgAbandon (axes : List RingAx) (p : Pages) : Pages := axes.foldl (fun p r => p.sat (Reg.STG_ABANDON r.ax) 1) p

/-- The active collective a packet belongs to (R408): context, generation, lane tag, beat. -/
def Hw.findColl (k : Packet) (h : Hw) : Option (Nat × Coll) :=
  (h.colls.zipIdx.find? fun x =>
    x.1.ctx = k.ctx && x.1.gen = k.gen && x.1.lane = k.tag / 65536 && x.1.beat % 8 = k.beat % 8 &&
      (decide (k.tag % 65536 = x.1.ctag) || (x.1.kind = .ca2av && decide (k.tag % 65536 = x.1.ctag + 1)))).map fun x => (x.2, x.1)

/-- A COLL_DATA packet (R408). -/
def Hw.dataTake (k : Packet) (h : Hw) : Hw :=
  match h.findColl k with
  | none => h.onPg (Pages.sat (Reg.STG_STRAY (k.step / 2 % 4)) 1)
  | some (i, co) => let r := co.take k h; r.2.putColl i r.1

/-- The same as a packet command. -/
def Hw.collData (src : PktSrc) (h : Hw) : Hw := h.onPacket (fun k => k.opc = 0x10) src Hw.dataTake

/-- A COLL_CNT packet: a peer's count (R417). -/
def Hw.cntTake (k : Packet) (h : Hw) : Hw :=
  match h.findColl k with
  | none => h.onPg (Pages.sat (Reg.STG_STRAY 0) 1)
  | some (i, co) =>
    match co.nodes.findIdx? (· = k.src) with
    | some s =>
      if co.kind = .ca2av ∧ (co.counts.all fun x => x.1 ≠ s) ∧ k.tag % 65536 = co.ctag ∧ ofBytesLE k.payload ≤ co.count then
        let n := ofBytesLE k.payload
        let w := n * co.esz
        let h1 := (co.cores.head?).elim h fun l => h.scrInbound l (co.extra + 4 * (co.nodes.length + s)) (bytesLE 4 n)
        let c1 : Coll := { co with
          counts := co.counts ++ [(s, n)]
          ins := co.ins.map fun x => if x.node = k.src then { x with want := some w, done := (x.done || n = 0) && decide (x.got = w) } else x }
        let r := if co.ins.any fun x => x.node = k.src && decide (w < x.got) then c1.fail 0 h1 else (c1, h1)
        r.2.putColl i r.1
      else let r := co.fail 0 h; r.2.putColl i r.1
    | none => let r := co.fail 0 h; r.2.putColl i r.1

/-- The same as a packet command. -/
def Hw.collCnt (src : PktSrc) (h : Hw) : Hw := h.onPacket (fun k => k.opc = 0x11) src Hw.cntTake

/-! ## Starting (R408 to R420) -/

/-- Where a collective's operand lies: own scratch of a core, or translated segments. -/
structure CSrc where
  own : Bool
  base : Nat
  segs : List (Nat × Nat)
  deriving DecidableEq, Repr

/-- Resolve an operand of n bytes of a core for the Stage engine, or for the Bay DMA that reads for the BCU: RANGE in own scratch, XLATE for a
CVA (R296, R419). -/
def Hw.collPlace (r : Reader) (ci : CInfo) (own : Bool) (a n : Nat) (wr : Bool) (h : Hw) : Except Nat CSrc × Hw :=
  if own then (if ci.outside a (a + n) then (.error 1, h) else (.ok ⟨true, a, []⟩, h))
  else
    let t := h.dev.translate r (ci.l / 8) ci.ctx a n wr
    match t.1 with
    | .error _ => (.error 3, { h with dev := t.2 })
    | .ok s => (.ok ⟨false, a, s⟩, { h with dev := t.2 })

/-- Read n bytes of an operand from an offset through the Stage engine or the Bay DMA: none where it meets poison (R289). -/
def Hw.collRead (rd : Reader) (ci : CInfo) (s : CSrc) (o n : Nat) (h : Hw) : Option (List Byte) × Hw :=
  if s.own then let r := h.scrOutside ci.l (s.base + o) n; (some r.1, r.2)
  else let r := h.dev.readSegs rd ci.cx (segSlice s.segs o n); (r.1, { h with dev := r.2 })

/-- The stages of an operation over the masked axes. -/
def CollKind.stages (k : CollKind) (axes : List RingAx) : List Nat :=
  let up := axes.map (·.ax)
  match k with
  | .callr => up ++ up.reverse.map (4 + ·)
  | .crscat => up
  | .cagath => up.reverse.map (4 + ·)
  | .cbcast => up.map (4 + ·)
  | .ca2a | .ca2av | .cperm => []

/-- The elements of SRC and of DST an operation reaches (R410); CA2AV's SRC holds the blocks of its counts. -/
def collExtents (k : CollKind) (n count sent : Nat) : Nat × Nat :=
  match k with
  | .ca2a => (n * count, n * count)
  | .ca2av => (sent, n * count)
  | _ => (count, count)

/-- Sub-streams of the ring stages. -/
def Coll.ringSubs (p : Pages) (c : Coll) : Coll :=
  let dirs := c.stages.flatMap fun s => [(s, 0), (s, 1)]
  { c with
    ins := dirs.filterMap fun x => match c.ring x.1 with
      | none => none
      | some r =>
        let n := c.bytesFor (c.recvs p x.1 x.2)
        if n = 0 then none
        else some ⟨2 * x.1 + x.2, p.ringNode c.slot r (if x.2 = 0 then r.lp + r.n - 1 else r.lp + 1), some n, 0, 0, false, BitVec.allOnes 64, false⟩
    outs := dirs.filterMap fun x => match c.ring x.1 with
      | none => none
      | some r =>
        let n := c.bytesFor (c.sends p x.1 x.2)
        if n = 0 then none
        else some ⟨2 * x.1 + x.2, p.ringNode c.slot r (if x.2 = 0 then r.lp + 1 else r.lp + r.n - 1), n, 0, 0, BitVec.allOnes 64, 0⟩ }

/-- The ranks other than the own, in the order rank + 1, rank + 2, … (R416). -/
def Coll.peers (c : Coll) : List Nat := (List.range (c.nodes.length - 1)).map fun i => (c.rank + 1 + i) % c.nodes.length

/-- Start the direct sends of CA2A and CA2AV: (rank, first element in SRC, elements). -/
def Coll.direct (tag : Nat) (blocks : List (Nat × Nat × Nat)) (doff : Nat → Nat) (c : Coll) (h : Hw) : Coll × Hw :=
  let c1 := { c with outs := blocks.filterMap fun b =>
    if b.2.2 = 0 then none else some ⟨0, c.nodes.getD b.1 0, b.2.2 * c.esz, 0, 0, BitVec.allOnes 64, 0⟩ }
  blocks.foldl (fun x b => x.1.sendSeg 0 (x.1.nodes.getD b.1 0) tag (doff b.1) (slice b.2.1 b.2.2 x.1.vals) x.2) (c1, h)

/-- Add a collective to the active ones. -/
def Hw.addColl (c : Coll) (h : Hw) : Hw :=
  { h with colls := h.colls ++ [c] }

/-- A collective leaves the active ones (by number). -/
def Hw.dropColl (i : Nat) (h : Hw) : Hw := { h with colls := h.colls.eraseIdx i }

/-- Start the ring or direct phase of a collective whose contribution is known. -/
def Coll.launch (c : Coll) (cnts : List Nat) (perm : List (Nat × Nat × Nat × Nat)) (h : Hw) : Hw :=
  match c.kind with
  | .callr | .crscat | .cagath | .cbcast =>
    let c1 := c.ringSubs h.pg
    match c1.stages with
    | [] => h.addColl c1
    | s :: _ =>
      let r := c1.startStage s h
      let r1 := Coll.advance (c1.stages.length + 1) r.1 r.2
      r1.2.addColl r1.1
  | .ca2a =>
    let h0 := c.store .dma (c.rank * c.count * c.esz) (bytesOf c.fmt (slice (c.rank * c.count) c.count c.vals)) h
    let c1 := { c with ins := c.peers.map fun s => ⟨0, c.nodes.getD s 0, some (c.count * c.esz), 0, 0, false, BitVec.allOnes 64, false⟩ }
    let outs := c1.peers.map fun r => (r, r * c.count, c.count)
    let r := c1.direct c.ctag outs (fun _ => 0) h0
    r.2.addColl { r.1 with ins := c1.ins }
  | .ca2av =>
    let start (r : Nat) : Nat := (cnts.take r).sum
    let own := cnts.getD c.rank 0
    let h0 := c.store .stage (c.rank * c.count * c.esz) (bytesOf c.fmt (slice (start c.rank) own c.vals)) h
    let h1 := (c.cores.head?).elim h0 fun l => h0.scrInbound l (c.extra + 4 * (c.nodes.length + c.rank)) (bytesLE 4 own)
    let h2 := c.peers.foldl (fun h r =>
      let bs := bytesLE 4 (cnts.getD r 0)
      let k := h.pg.mkPacket (c.nodes.getD r 0) 0x11 4 c.ctx c.gen (c.slot + c.fmt.code * 256) 0 (c.lane * 65536 + c.ctag) true true (crc64 bs) bs 0
      (h.digest c.ctx c.beat (crc64 (digHead (c.nodes.getD r 0) (c.lane * 65536 + c.ctag) 4 ++ bs))).inject k) h1
    let c1 := { c with ins := c.peers.map fun s => ⟨0, c.nodes.getD s 0, none, 0, 0, false, BitVec.allOnes 64, false⟩,
                       counts := [(c.rank, own)] }
    let r := c1.direct (c.ctag + 1) (c1.peers.map fun r => (r, start r, cnts.getD r 0)) (fun _ => 0) h2
    r.2.addColl r.1
  | .cperm =>
    let self := perm.filter fun x => x.1 = c.rank
    let far := perm.filter fun x => x.1 ≠ c.rank
    let h0 := self.foldl (fun h x => c.store .dma (x.2.2.1 * c.esz) (bytesOf c.fmt (slice x.2.1 x.2.2.2 c.vals)) h) h
    let r := c.direct c.ctag (far.map fun x => (x.1, x.2.1, x.2.2.2))
      (fun rk => ((far.find? fun x => x.1 = rk).map fun x => x.2.2.1).getD 0) h0
    r.2.addColl r.1

/-- Sum of squares of element codes in F32W: pairwise trees of 64, chained (R421). -/
def sumSquares (t : Fmt) (cs : List Nat) : Nat :=
  let add (a b : Nat) : Nat := (combine2 .sum .f32w a b).1
  let sq (x : Nat) : Nat := (Fmt.f32w.encode .default 0 (Val.mul (t.decode x) (t.decode x)).1).1
  let level (l : List Nat) : List Nat := (List.range ((l.length + 1) / 2)).map fun i =>
    match l[2 * i + 1]? with
    | some b => add (l.getD (2 * i) 0) b
    | none => l.getD (2 * i) 0
  let tree (l : List Nat) : Nat := (iter level 6 l).headD 0
  ((List.range (ceilDiv cs.length 64)).map fun i => tree ((slice (64 * i) 64 cs).map sq)).foldl
    (fun acc x => match acc with | none => some x | some a => some (add a x)) none |>.getD 0

/-- The tree ((x0 + x1) + (x2 + x3)) + ((x4 + x5) + (x6 + x7)) over eight codes (R419). -/
def tree8 (f : Nat → Nat → Nat × FFlags) (xs : List Nat) : Nat × FFlags :=
  let g (a b : Nat × FFlags) : Nat × FFlags := let r := f a.1 b.1; (r.1, a.2 ||| b.2 ||| r.2)
  let x (i : Nat) : Nat × FFlags := (xs.getD i 0, 0)
  g (g (g (x 0) (x 1)) (g (x 2) (x 3))) (g (g (x 4) (x 5)) (g (x 6) (x 7)))

/-- The BCU's combination of one element of the eight cores: float formats in F32W with one conversion at the end; and the
value before that conversion. -/
def bcuElem (rop : Rop) (t : Fmt) (xs : List Nat) : Nat × Nat × FFlags :=
  if t.ef.isSome then
    let wide := xs.map fun x => (Fmt.f32w.encode .default 0 (t.decode x)).1
    let r := tree8 (combine2 rop .f32w) wide
    let e := t.encode .default 0 (Fmt.f32w.decode r.1)
    (e.1, r.1, r.2 ||| e.2)
  else let r := tree8 (combine2 rop t) xs; (r.1, 0, r.2)

/-- The values of a collective's operands for a core: SRC, DST, COUNT, EXTRA. -/
def CollOp.vals (o : CollOp) (ci : CInfo) (v : CV) : Nat × Nat × Nat × Nat :=
  (o.src.addr ci v, o.dst.addr ci v, (o.count.val ci v).toNat, o.extra.addr ci v)

/-- Two operands in one space overlap without being identical (R410). -/
def collOverlap (k : CollKind) (o : CollOp) (s d ns nd : Nat) : Bool :=
  o.srcOwn = o.dstOwn && overlap (s, ns) (d, nd) &&
    !(s = d && match k with | .ca2a | .ca2av => false | _ => true)

/-- The permutation table of CPERM: NOUT, NIN and the pieces (rank, SOFF, DOFF, NEL), or none when it breaks R418. -/
def permTable (bs : List Byte) (n count : Nat) : Option (Nat × List (Nat × Nat × Nat × Nat)) :=
  let w (i : Nat) : Nat := ofBytesLE (slice i 4 bs)
  let nout := w 0
  let nin := w 4
  let ps := (List.range (min nout 64)).map fun i => (w (16 + 16 * i), w (20 + 16 * i), w (24 + 16 * i), w (28 + 16 * i))
  if 64 < nout ∨ 64 < nin ∨ w 8 ≠ 0 ∨ w 12 ≠ 0 ∨ (ps.map (·.1)).Nodup = false ∨
      ps.any (fun x => decide (n ≤ x.1) || x.2.2.2 = 0 || decide (count < x.2.1 + x.2.2.2) || decide (count < x.2.2.1 + x.2.2.2)) then none
  else some (nin, ps)

/-- The collective of a lane, before its contribution is read. -/
def Hw.mkColl (ci : CInfo) (idx : Nat) (k : CollKind) (o : CollOp) (lane count extra : Nat) (h : Hw) : Coll where
  kind := k
  ctx := ci.ctx
  gen := ci.gen
  beat := h.pg.beatNum.toNat
  lane := lane
  slot := o.grp.val
  ctag := o.ctag.toNat
  rop := o.rop
  fmt := o.fmt
  fast := ci.mode = 0
  count := count
  extra := extra
  cores := [ci.l]
  index := idx
  axes := h.pg.ringAxes o.grp.val
  nodes := h.pg.instNodes o.grp.val
  rank := ((h.pg.instNodes o.grp.val).findIdx? (· = h.pg.node)).getD 0
  vals := []
  dests := []
  stages := k.stages (h.pg.ringAxes o.grp.val)
  early := []
  hold := []
  owned := 0
  ins := []
  outs := []
  bad := false
  tap := none
  counts := []

/-- Partition index of a logical core. -/
def Pages.partIdx (p : Pages) (l : Nat) : Nat := ((p.partCores (p.bayPart (l / 8))).findIdx? (· = l)).getD 0

/-- The parts of SRC that a member reads, each with its reader, first element and length: the whole vector; of CAGATH the owned range, of
CBCAST nothing but at the root; of the direct operations the blocks sent, the own one by the Bay DMA (R410, R414, R416 to R418). -/
def collReads (k : CollKind) (axes : List RingAx) (rank root n count : Nat) (cnts : List Nat) (perm : List (Nat × Nat × Nat × Nat)) :
    List (Reader × Nat × Nat) :=
  match k with
  | .callr | .crscat => [(.stage, 0, count)]
  | .cagath => let o := (axisRanges axes (0, count)).2; [(.stage, o.1, o.2 - o.1)]
  | .cbcast => if rank = root then [(.stage, 0, count)] else []
  | .ca2a => (List.range n).map fun r => (if r = rank then .dma else .stage, r * count, count)
  | .ca2av => (List.range n).map fun r => (.stage, (cnts.take r).sum, cnts.getD r 0)
  | .cperm => perm.map fun x => (if x.1 = rank then .dma else .stage, x.2.1, x.2.2.2)

/-- Read the parts of SRC into a vector of m elements; none where one meets poison. -/
def Hw.collGather (ci : CInfo) (s : CSrc) (t : Fmt) (m : Nat) (rs : List (Reader × Nat × Nat)) (h : Hw) : Option (List Nat) × Hw :=
  let w := t.width / 8
  rs.foldl (fun acc r =>
    let x := acc.2.collRead r.1 ci s (r.2.1 * w) (r.2.2 * w)
    (match acc.1, x.1 with | some vs, some bs => some (setCodes vs r.2.1 (codesOf t bs)) | _, _ => none, x.2))
    (some (List.replicate m 0), h)

/-- Start of a collective on a lane of its own: checks, contribution, first packets; or the fault's code (R280, R410,
R417, R418). -/
def Hw.collStart (ci : CInfo) (idx : Nat) (k : CollKind) (o : CollOp) (h : Hw) : Except Nat Hw × Hw :=
  let v : CV := { pg := h.pg, core := h.core ci.n }
  let x := o.vals ci v
  let h := h.grpRead o.grp.val
  if !h.grpMember o.grp.val then (.error 7, h)
  else
    let n := (h.pg.instNodes o.grp.val).length
    let count := if k = .cbcast then x.2.2.1 % 2 ^ 32 else x.2.2.1
    let root := x.2.2.1 / 2 ^ 32 % 65536
    if count = 0 ∨ 2 ^ 32 ≤ count ∨ (k = .cbcast ∧ 2 ^ 48 ≤ x.2.2.1) then (.error 5, h)
    else if k = .cbcast ∧ n ≤ root then (.error 0xA, h)
    else
      let esz := o.fmt.width / 8
      -- CA2AV and CPERM read their tables first
      let tabN := if k = .ca2av then 8 * n else 0
      if (k = .ca2av ∧ x.2.2.2 % 4 ≠ 0) ∨ (k = .cperm ∧ x.2.2.2 % 64 ≠ 0) then (.error 2, h)
      else if k = .ca2av ∧ ci.outside x.2.2.2 (x.2.2.2 + tabN) then (.error 1, h)
      else if k = .cperm ∧ ci.outside x.2.2.2 (x.2.2.2 + 16) then (.error 1, h)
      else
        -- the entries of a permutation table that NOUT gives
        let nout := if k = .cperm then ofBytesLE ((rangeFrom x.2.2.2 4).map (h.core ci.n).byteC) else 0
        let tabN := if k = .cperm then 16 + 16 * min 64 nout else tabN
        if ci.outside x.2.2.2 (x.2.2.2 + tabN) && k = .cperm then (.error 1, h) else
        let tr := if tabN = 0 then ([], h) else h.scrOutside ci.l x.2.2.2 tabN
        let cnts := (List.range n).map fun i => ofBytesLE (slice (4 * i) 4 tr.1)
        let perm := if k = .cperm then permTable tr.1 n count else some (0, [])
        let h := tr.2
        if (k = .ca2av ∧ cnts.any fun c => decide (count < c)) ∨ perm.isNone then (.error 5, h)
        else
          let ext := collExtents k n count cnts.sum
          if collOverlap k o x.1 x.2.1 (ext.1 * esz) (ext.2 * esz) then (.error 5, h)
          else
            let s := h.collPlace .stage ci o.srcOwn x.1 (ext.1 * esz) false
            match s.1 with
            | .error e => (.error e, s.2)
            | .ok sp =>
              let d := s.2.collPlace .stage ci o.dstOwn x.2.1 (ext.2 * esz) true
              match d.1 with
              | .error e => (.error e, d.2)
              | .ok dp =>
                let c := d.2.mkColl ci idx k o (d.2.pg.partIdx ci.l) count
                  (if k = .cbcast then root else if k = .cperm then (perm.getD (0, [])).1 else x.2.2.2)
                let r := d.2.collGather ci sp o.fmt ext.1 (collReads k c.axes c.rank root n count cnts (perm.getD (0, [])).2)
                match r.1 with
                | none => (.error 4, r.2)
                | some vals =>
                  let c := { c with vals := vals, dests := [⟨ci.l, o.dstOwn, x.2.1, dp.segs⟩] }
                  (.ok (c.launch cnts (perm.getD (0, [])).2 r.2), r.2)

/-- Combine a Bay's eight contributions and start the lane (R419 to R421). A contribution that meets poison abandons the instruction and records
POISON at its core (R289, R425). -/
def Hw.bcuGo (b : Nat) (g : Gather) (h : Hw) : Hw :=
  let ops := (List.range 8).map fun i => (g.issued.find? fun x => x.1 = i).map (·.2)
  match ops.head?.join with
  | none => h
  | some o0 =>
    let ci0 := h.ciOf (8 * b) g.ctx
    let x0 := o0.vals ci0 { pg := h.pg, core := h.core ci0.n }
    let count := x0.2.2.1
    let esz := o0.fmt.width / 8
    let step := (List.range 8).foldl
      (fun (acc : Option (List (List Nat)) × List CDest × Bool × Hw) i =>
        match (if acc.1.isNone then none else ops.getD i none) with
        | none => acc
        | some o =>
          let ci := acc.2.2.2.ciOf (8 * b + i) g.ctx
          let x := o.vals ci { pg := acc.2.2.2.pg, core := acc.2.2.2.core ci.n }
          let mism := x.2.2.1 ≠ count || o.fmt ≠ o0.fmt || o.rop ≠ o0.rop || o.srcOwn ≠ o0.srcOwn || o.grp ≠ o0.grp
          let s := acc.2.2.2.collPlace .dma ci o0.srcOwn x.1 (count * esz) false
          let d := s.2.collPlace .stage ci o.dstOwn x.2.1 (count * esz) true
          match s.1, d.1 with
          | .ok sp, .ok dp =>
            let r := d.2.collRead .dma ci sp 0 (count * esz)
            (match acc.1, r.1 with
              | some l, some bs => some (l ++ [codesOf o0.fmt bs])
              | _, _ => none,
             acc.2.1 ++ [⟨ci.l, o.dstOwn, x.2.1, dp.segs⟩], acc.2.2.1 || mism,
             if r.1.isSome then r.2 else (r.2.modCore ci.n fun c => { c with held := [] }).xfault ci 4 g.index)
          | _, _ => (none, acc.2.1, acc.2.2.1 || mism, d.2))
      (some [], [], false, h)
    let h1 := (step.2.2.2).onPg fun p =>
      ((if step.2.2.1 then p.setb (Reg.BCU_STAT b) 29 true else p).put (Reg.BCU_STAT b) 31 30 0).put (Reg.BCU_STAT b) 7 0 0
    -- the path of each slot's contribution in turn
    let par := (List.range 8).foldl (fun (a : Bool × Dev) i => if a.1 then a else a.2.detect (Pg.bcu b) 0 i (h.pg.ctxId g.ctx) false) (false, h1.dev)
    let h2 : Hw := { h1 with dev := par.2, bcu := tset (fun _ => none) h1.bcu b none }
    match step.1, par.1 with
    | some xs, false =>
      let es := (List.range count).map fun i => bcuElem o0.rop o0.fmt (xs.map fun l => l.getD i 0)
      let fl := es.foldl (fun f e => f ||| e.2.2) (0 : FFlags)
      let tapped := h2.pg.bit (Reg.GRP_CFG o0.grp.val) 28 && o0.rop = .sum && o0.fmt.ef.isSome
      let tp := if tapped then h2.dev.detect (Pg.bcu b) 1 0 (h.pg.ctxId g.ctx) false else (false, h2.dev)
      let q := xs.map (sumSquares o0.fmt)
      let bq := sumSquares .f32w (es.map fun e => e.2.1)
      let sq := (tree8 (combine2 .sum .f32w) q).1
      let w (x : Nat) : W32 := BitVec.ofNat 32 x
      let tap := if tapped then (if tp.1 then some (List.replicate 8 0, 0, 0, 0) else some (q.map w, w bq, w sq, count)) else none
      let h3 : Hw := { h2 with dev := tp.2 }
      let h4 := h3.onPg fun p =>
        let p1 := ((p.upd (Reg.BCU_FMT_STAT b) (· ||| fl)).count (Reg.BCU_IN_LO b) (8 * count * esz)).count (Reg.BCU_OUT_LO b) (count * esz)
        match tap with
        | some t => ((p1.wr (Reg.BCU_TAP_Q b) t.2.1).wr (Reg.BCU_TAP_QS b) t.2.2.1).wr (Reg.BCU_TAP_N b) (w t.2.2.2)
        | none => p1
      let c := h4.mkColl ci0 g.index g.kind o0 (h4.pg.partIdx (8 * b) / 8) count 0
      ({ c with cores := rangeFrom (8 * b) 8, vals := es.map (·.1), dests := step.2.1, tap := tap } : Coll).launch [] [] h4
    | _, _ => h2.onPg (Pages.stgAbandon (h2.pg.ringAxes o0.grp.val))

/-- A core issues a collective: under a BAY slot CALLR and CRSCAT gather the Bay's eight cores first (R404, R419). -/
def Hw.collIssue (ci : CInfo) (idx : Nat) (k : CollKind) (o : CollOp) (h : Hw) : Except Nat Hw × Hw :=
  let bayLane := h.pg.get (Reg.GRP_CFG o.grp.val) 30 29 = 1 ∧ (k = .callr ∨ k = .crscat)
  let h0 := h
  let h := h.grpRead o.grp.val
  if !(bayLane ∧ h.grpMember o.grp.val) then h0.collStart ci idx k o
  else
    let v : CV := { pg := h.pg, core := h.core ci.n }
    let x := o.vals ci v
    let esz := o.fmt.width / 8
    if x.2.2.1 = 0 ∨ 2 ^ 32 ≤ x.2.2.1 ∨ collOverlap k o x.1 x.2.1 (x.2.2.1 * esz) (x.2.2.1 * esz) then (.error 5, h)
    else
      let s := h.collPlace .dma ci o.srcOwn x.1 (x.2.2.1 * esz) false
      match s.1 with
      | .error e => (.error e, s.2)
      | .ok _ =>
        let d := s.2.collPlace .stage ci o.dstOwn x.2.1 (x.2.2.1 * esz) true
        match d.1 with
        | .error e => (.error e, d.2)
        | .ok _ =>
          let b := ci.l / 8
          let g0 := (tget (fun _ => none) d.2.bcu b).getD ⟨ci.ctx, idx, k, []⟩
          let g := { g0 with issued := g0.issued ++ [(ci.l % 8, o)] }
          let h1 : Hw := { d.2 with bcu := tset (fun _ => none) d.2.bcu b (some g) }
          let h2 := h1.onPg fun p => (p.put (Reg.BCU_STAT b) 31 30 1).setb (Reg.BCU_STAT b) (ci.l % 8) true
          (.ok (if (List.range 8).all fun i => g.issued.any fun e => e.1 = i then h2.bcuGo b g else h2), h2)

/-! ## Completion and abandonment (R424, R425) -/

/-- Every outbound sub-stream is injected, every expected one judged. -/
def Coll.finished (c : Coll) : Bool :=
  c.stages.isEmpty && (c.outs.all fun s => decide (s.total ≤ s.sent)) &&
    (match c.kind with
      | .ca2av => decide (c.counts.length = c.nodes.length) && c.ins.all fun s => s.done
      | .cperm => decide (c.ins.length = c.extra) && c.ins.all fun s => s.done
      | _ => c.ins.all fun s => s.done)

/-- Free bytes, drawn one word per 8. -/
def freeBytes (fresh n : Nat) : List Byte := (List.range n).map fun i => BitVec.ofNat 8 (Config.freeWord (fresh + i))

/-- Write DST: the whole vector; of CRSCAT the owned range, every other element being open (R410). -/
def Coll.writeOut (c : Coll) (h : Hw) : Hw :=
  match c.kind with
  | .callr | .cagath | .cbcast => c.store .stage 0 (bytesOf c.fmt c.vals) h
  | .crscat =>
    let own := (axisRanges c.axes (0, c.count)).2
    let h1 := c.store .stage 0 (freeBytes h.pg.fresh (c.count * c.esz)) h
    c.store .stage (own.1 * c.esz) (bytesOf c.fmt (slice own.1 (own.2 - own.1) c.vals)) (h1.onPg fun p => { p with fresh := p.fresh + c.count * c.esz })
  | _ => h

/-- The tap records of R421. -/
def Coll.writeTaps (c : Coll) (h : Hw) : Hw :=
  match c.tap with
  | none => h
  | some t =>
    let off := h.pg.get (Reg.GRP_TAP c.slot) 22 0
    c.cores.foldl
      (fun h l =>
        let q := t.1.getD (l % 8) 0
        h.scrInbound l off (bytesLE 4 q.toNat ++ bytesLE 4 t.2.1.toNat ++ bytesLE 4 t.2.2.1.toNat ++ bytesLE 4 t.2.2.2 ++
          bytesLE 4 c.beat ++ List.replicate 44 0))
      h

/-- The stage declarations of a collective take its judgement (R409). -/
def Coll.judge (ok : Bool) (c : Coll) (h : Hw) : Hw :=
  let mine (d : Decl) : Bool := d.stage && (c.cores.any fun l => d.tag / 65536 = h.pg.partIdx l) &&
    (decide (d.tag % 65536 = c.ctag) || (c.kind = .ca2av && decide (d.tag % 65536 = c.ctag + 1)))
  h.modCtx c.ctx fun x => { x with decls := x.decls.map fun d => if mine d then { d with done := d.done || (ok && !c.bad), bad := d.bad || c.bad } else d }

/-- A collective whose conditions hold completes: DST, taps, WCB flush, judgement; its cores wait no longer (R424). -/
def Hw.collComplete (i : Nat) (h : Hw) : Hw :=
  match h.colls[i]? with
  | none => h
  | some c =>
    if !(c.finished || c.bad) then h
    else
      let par := c.axes.foldl (fun (a : Bool × Dev) r =>
        let x := a.2.detect (Pg.stg r.ax) 0 c.slot (some (c.ctx, c.gen)) false
        let y := x.2.detect (Pg.stg r.ax) 1 c.slot (some (c.ctx, c.gen)) false
        (a.1 || x.1 || y.1, y.2)) (false, h.dev)
      let h0 : Hw := { h with dev := par.2 }
      if par.1 then (h0.onPg (Pages.stgAbandon c.axes)).dropColl i
      else
        let h1 := c.judge true (c.writeTaps (c.writeOut h0))
        let h2 := h1.onDev (Dev.wcbFlushAll fun e => c.ctx ∈ e.ctxs)
        let h3 := c.cores.foldl (fun h l => h.modOwned (h.pg.physOf l) c.ctx fun co =>
          { co with outs := co.outs.filter fun o => !(o.kind = .coll && o.index = c.index) }) h2
        h3.dropColl i

/-- Abandon every active collective of a context (R425). -/
def Hw.collAbandon (ctx : Nat) (h : Hw) : Hw :=
  let mine := h.colls.filter fun c => c.ctx = ctx
  let h1 : Hw := { h with colls := h.colls.filter fun c => c.ctx ≠ ctx,
                          bcu := h.bcu.filter fun g => (g.2.map (·.ctx)) ≠ some ctx }
  (h1.onPg fun p => h.bcu.foldl (fun p g =>
    if (g.2.map (·.ctx)) = some ctx then (p.put (Reg.BCU_STAT g.1) 31 30 0).put (Reg.BCU_STAT g.1) 7 0 0 else p) p).onPg
      fun p => mine.foldl (fun p c => p.stgAbandon c.axes) p

end Sys2Proof.Machine
end

