-- ==== Sys2Proof/Machine/Suu.lean ====
section
/-! DEFINITION. The stack update units: recipes and slots, the checks of a UAPPLY, its groups on the units, parity losses,
completion (R318 to R340). -/

namespace Sys2Proof.Machine

/-! ## What issuing an XFER instruction comes to -/

/-- An XFER instruction meets a run-time fault of R280, waits in its queue, or issues: with what it still waits for, none
when it has completed. -/
inductive XGo where
  | fault (code : Nat) (h : Hw)
  | wait (h : Hw)
  | ok (out : Option OutKind) (h : Hw)
  deriving DecidableEq, Repr

/-! ## Units in service (R318, R336) -/

/-- A unit is out of service. -/
def Suu.isOos (s : Suu) (u : Nat) : Bool := u ∈ s.oos

/-- The unit that serves channel set q (the eight channels of unit q): itself, or the next of its stack in service, in the
order j + 1, j + 2 and so on (R336). -/
def Suu.server (s : Suu) (q : Nat) : Option Nat :=
  ((List.range 4).map fun i => q / 4 * 4 + (q + i) % 4).find? fun u => !s.isOos u

/-- The channel sets of a request that unit u has still to process. -/
def Suu.mine (s : Suu) (u : Nat) (r : UReq) : List Nat := r.left.filter fun q => s.server q = some u

/-- Requests in the queue of unit u. -/
def Suu.queued (s : Suu) (u : Nat) : List UReq := s.reqs.filter fun r => !(s.mine u r).isEmpty

/-- The context that holds slot n, if a unit holds a recipe there. -/
def Suu.holder (s : Suu) (n : Nat) : Option Recipe :=
  ((List.range 32).find? fun u => (tget (fun _ => none) s.slots (u * 8 + n)).isSome).bind fun u =>
    tget (fun _ => none) s.slots (u * 8 + n)

/-- The SUU pages show the slots: SUU_SLOT_VALID, SUU_SLOT_CTX (R338, R339). -/
def Hw.suuShow (h : Hw) : Hw :=
  let s := h.suu
  h.onPg fun p => (List.range 8).foldl
    (fun p k =>
      let v (i : Nat) : Nat := if (tget (fun _ => none) s.slots (32 * k + i)).isSome then 2 ^ i else 0
      let cx (n : Nat) : Nat := match s.holder n with | some r => r.ctx % 256 | none => 0
      let word (f : Nat → Nat) : W32 := BitVec.ofNat 32 (f 0 + f 1 * 2 ^ 8 + f 2 * 2 ^ 16 + f 3 * 2 ^ 24)
      (((p.wr (Reg.SUU_SLOT_VALID k) (BitVec.ofNat 32 ((List.range 32).map v).sum)).wr
        (Reg.SUU_SLOT_CTX_LO k) (word cx)).wr (Reg.SUU_SLOT_CTX_HI k) (word fun n => cx (n + 4)))) p

/-- A URECIPE of some core is still loading (R326). -/
def Hw.loadsRecipe (h : Hw) : Bool :=
  let loads (e : Nat × Core) : Bool := e.2.outs.any fun o => o.kind = .urecipe
  h.cores.any loads || h.parks.any loads

/-- SUU_STAT of a stack as it reads: a unit with requests reads RUN, and one with none LOAD while a URECIPE loads (R338). -/
def Hw.suuStat (k : Nat) (h : Hw) : W32 :=
  let s := h.suu
  BitVec.ofNat 32 ((List.range 4).map fun j =>
    let u := 4 * k + j
    let st := if s.isOos u then 3 else if !(s.queued u).isEmpty then 1 else if h.loadsRecipe then 2 else 0
    (st * 32 + min 16 (s.queued u).length) * 2 ^ (8 * j)).sum

/-- Update the units and what their pages show. -/
def Hw.onSuu (f : Suu → Suu) (h : Hw) : Hw := ({ h with suu := f h.suu } : Hw).suuShow

/-! ## Recipes (R321 to R327) -/

/-- A micro-operation's fields: OP, D, A, B, C, NA, NB, NC, AUX (R322). -/
structure MicroOp where
  op : Nat
  d : Nat
  a : Nat
  b : Nat
  c : Nat
  na : Bool
  nb : Bool
  nc : Bool
  aux : Nat
  deriving DecidableEq, Repr

/-- Decode a micro-operation word. -/
def MicroOp.of (w : W32) : MicroOp where
  op := fld w 31 27
  d := fld w 26 22
  a := fld w 21 17
  b := fld w 16 12
  c := fld w 11 7
  na := wbit w 6
  nb := wbit w 5
  nc := wbit w 4
  aux := fld w 3 0

/-- Sources an operation uses: 1 A, 2 A and B, 3 all. -/
def MicroOp.arity (m : MicroOp) : Nat := if m.op ≤ 2 then 2 else if m.op = 4 ∨ m.op = 5 ∨ m.op = 8 then 1 else 3

/-- A micro-operation keeps R322 and R326: listed OP, a writable destination, unused fields and AUX bits zero. -/
def MicroOp.valid (m : MicroOp) : Bool :=
  decide (1 ≤ m.op) && decide (m.op ≤ 8) &&
    (decide (m.d ≤ 0x0B) || (decide (0x10 ≤ m.d) && decide (m.d ≤ 0x15))) &&
    (decide (2 ≤ m.arity) || (m.b = 0 && !m.nb)) && (decide (3 ≤ m.arity) || (m.c = 0 && !m.nc)) &&
    (if m.op = 7 then decide (m.aux ≤ 3) else if m.op = 8 then decide (m.aux ≤ 1) else m.aux = 0)

/-- A recipe image keeps R326: its operations and constants. -/
def recipeOf (bs : List Byte) : Option (List W32 × List W32) :=
  let n := (bs.getD 0 0).toNat
  let w (i : Nat) : W32 := BitVec.ofNat 32 (ofBytesLE (slice i 4 bs))
  let ops := (List.range (min n 64)).map fun i => w (32 + 4 * i)
  let ms := ops.map MicroOp.of
  if n = 0 ∨ 64 < n ∨ ((slice 1 15 bs).any fun b => decide (b ≠ 0)) ∨ (ms.any fun m => !m.valid) ∨
      1 < (ms.filter fun m => m.op = 8).length then none
  else some (ops, (List.range 4).map fun i => w (16 + 4 * i))

/-- The word of a micro-operation: OP, D, A, B, C and NA. -/
def microWord (op d a b c : Nat) (na nb : Bool) : W32 :=
  BitVec.ofNat 32 (op * 2 ^ 27 + d * 2 ^ 22 + a * 2 ^ 17 + b * 2 ^ 12 + c * 2 ^ 7 + na.toNat * 2 ^ 6 + nb.toNat * 2 ^ 5)

/-- Adam's operations, with or without the coupled decay (R327). -/
def adamOps (coupled : Bool) : List W32 :=
  let x (j : Nat) : Nat := 0x10 + j
  let s (j : Nat) : Nat := 0x18 + j
  let w (op d a b c : Nat) : W32 := microWord op d a b c false false
  [w 2 0 0x16 (s 1) 0] ++ (if coupled then [w 3 0 (s 5) (x 0) 0] else []) ++
  [microWord 1 1 0x0C (s 2) 0 false true, microWord 1 2 0x0C (s 3) 0 false true, w 2 3 1 0 0, w 3 (x 1) (s 2) (x 1) 3,
   w 2 4 0 0 0, w 2 4 2 4 0, w 3 (x 2) (s 3) (x 2) 4, w 2 5 (x 1) (s 6) 0, w 2 6 (x 2) (s 7) 0, w 4 6 6 0 0,
   w 1 6 6 (s 4) 0, w 5 6 6 0 0, w 2 5 5 6 0] ++
  (if coupled then [] else [w 2 7 (s 0) (s 5) 0, microWord 3 (x 0) 7 (x 0) (x 0) true false]) ++
  [microWord 3 (x 0) (s 0) 5 (x 0) true false]

/-- The built-in recipes' operations (R327). -/
def builtin (bi : Nat) : List W32 :=
  let x (j : Nat) : Nat := 0x10 + j
  let s (j : Nat) : Nat := 0x18 + j
  let head := [microWord 2 0 0x16 (s 1) 0 false false, microWord 3 0 (s 2) (x 0) 0 false false]
  if bi = 1 then head ++ [microWord 3 (x 0) (s 0) 0 (x 0) true false]
  else if bi = 2 then head ++ [microWord 3 (x 1) (s 3) (x 1) 0 false false, microWord 3 (x 0) (s 0) (x 1) (x 0) true false]
  else adamOps (bi = 3)

/-- Slot n belongs to a partition (R337). -/
def Pages.slotPart (p : Pages) (n : Nat) : Nat := p.get (Reg.SUU_SLOT_PART 0) (4 * n + 3) (4 * n)

/-- A fault of a UAPPLY is kept in SUU_LAST of every SUU page (R338). -/
def Pages.suuLast (code slot core ctx : Nat) (p : Pages) : Pages :=
  (List.range 8).foldl (fun p k => p.wr (Reg.SUU_LAST k)
    (BitVec.ofNat 32 (2 ^ 31 + code * 2 ^ 24 + slot * 2 ^ 16 + core * 2 ^ 8 + ctx))) p

/-- A unit goes out of service (R336); groups is how many of the request it worked on another will run again. -/
def Hw.suuLose (u groups : Nat) (h : Hw) : Hw :=
  let h1 := h.onSuu fun s => { s with oos := sadd s.oos u }
  h1.onPg fun p => (p.sat (Reg.SUU_RERUN_CNT (u / 4)) groups).capSet
    (fun p => p.put Reg.CAP_SUU 7 0 (p.get Reg.CAP_SUU 7 0 - 1)) [Reg.CAP_SUU]

/-- Drop a request and end its wait on its core, with a fault of its UAPPLY. -/
def Hw.suuFault (code : Nat) (r : UReq) (h : Hw) : Hw :=
  let h1 := h.onSuu fun s => { s with reqs := s.reqs.filter fun x => x.id ≠ r.id }
  let ci := h1.ciOf r.core r.ctx
  ((h1.onPg (Pages.suuLast code r.slot r.core r.ctx)).modOwned ci.n r.ctx fun c =>
    { c with outs := c.outs.filter fun o => !(o.kind = .uapply && o.index = r.index) }).xfault ci code r.index

/-- Every request that still needs a stack with no unit in service faults with RECIPE (R336). -/
def Hw.suuOrphans (h : Hw) : Hw :=
  (h.suu.reqs.filter fun r => r.left.any fun q => (h.suu.server q).isNone).foldl (fun h r => h.suuFault 8 r) h

/-- The slot of each unit in service is checked as a recipe is loaded into it, with the context of the unit's first request, none where it
is idle (SLOT_PAR, R336, R340; DESIGN CHOICE, log entry 90: the spec names no other moment at which an idle unit checks a slot). -/
def Hw.suuLoadCheck (slot : Nat) (h : Hw) : Hw :=
  ((List.range 32).foldl (fun (h : Hw) u =>
    if h.suu.isOos u then h
    else
      let cx : CtxId := (h.suu.queued u).head?.map fun r => (r.ctx, r.gen)
      let d := h.dev.detect (Pg.suu (u / 4)) 0 (slot * 256 + u % 4) cx false
      if d.1 then ({ h with dev := d.2 } : Hw).suuLose u 0 else { h with dev := d.2 }) h).suuOrphans

/-- URECIPE: the recipe of an image or a built-in one goes into the slot of every unit in service; a bad image or a slot of
another partition faults with RECIPE (R326). -/
def Hw.urecipe (ci : CInfo) (o : UrecipeOp) (h : Hw) : XGo :=
  let a := o.src.val ci
  let img : Except Nat (List W32 × List W32) × Hw :=
    if o.bi.val ≠ 0 then (.ok (builtin o.bi.val, [0x3F800000, 0, 0, 0]), h)
    else if a % 64 ≠ 0 then (.error 2, h)
    else if ci.outside a (a + 32) then (.error 1, h)
    else
      let n := min 64 ((h.core ci.n).byteC a).toNat
      if ci.outside a (a + 32 + 4 * n) then (.error 1, h)
      else
        let r := h.scrOutside ci.l a (32 + 4 * n)
        match recipeOf r.1 with
        | some x => (.ok x, r.2)
        | none => (.error 8, r.2)
  match img.1 with
  | .error e => .fault e img.2
  | .ok x =>
    if img.2.pg.slotPart o.slot.val ≠ img.2.pg.ctxPart ci.ctx then .fault 8 img.2
    else
      let rec_ : Recipe := ⟨x.1, x.2, ci.ctx, ci.gen⟩
      .ok (some .urecipe) ((img.2.suuLoadCheck o.slot.val).onSuu fun s => { s with
        slots := ((List.range 32).filter fun u => !s.isOos u).foldl (fun t u => tset (fun _ => none) t (u * 8 + o.slot.val) (some rec_)) s.slots })

/-! ## UAPPLY: checks and translation (R328, R329, R331) -/

/-- The device address at byte o of translated segments. -/
def segAt : List (Nat × Nat) → Nat → Nat
  | [], _ => 0
  | s :: ss, o => if o < s.2 then s.1 + o else segAt ss (o - s.2)

/-- Operand code of the first X field; whether a recipe names an X field at or above nx, or a Y at or above ny. -/
def recipeFits (ops : List W32) (nx ny : Nat) : Bool :=
  ops.all fun w =>
    let m := MicroOp.of w
    let fits (c : Nat) : Bool := if 0x10 ≤ c ∧ c ≤ 0x15 then decide (c - 0x10 < nx) else if 0x16 ≤ c ∧ c ≤ 0x17 then decide (c - 0x16 < ny) else true
    fits m.d && fits m.a && (decide (m.arity < 2) || fits m.b) && (decide (m.arity < 3) || fits m.c)

/-- X fields a recipe writes. -/
def recipeWrites (ops : List W32) (j : Nat) : Bool := ops.any fun w => (MicroOp.of w).d = 0x10 + j

/-- The fields of a region header: NX, NY, RFLAGS, HOFS, XBASE, YBASE, and a reserved byte set. -/
structure RegionHd where
  nx : Nat
  ny : Nat
  flags : Nat
  hofs : Nat
  xs : List Nat
  ys : List Nat
  resv : Bool
  deriving DecidableEq, Repr

/-- Read a region header (R328). -/
def RegionHd.of (bs : List Byte) : RegionHd where
  nx := (bs.getD 0 0).toNat
  ny := (bs.getD 1 0).toNat
  flags := (bs.getD 2 0).toNat
  hofs := ofBytesLE (slice 8 8 bs)
  xs := (List.range 6).map fun j => ofBytesLE (slice (16 + 6 * j) 6 bs)
  ys := (List.range 2).map fun j => ofBytesLE (slice (52 + 6 * j) 6 bs)
  resv := (slice 3 5 bs).any fun b => decide (b ≠ 0)

/-- The CVA ranges of a region's fields, both halves (R328). -/
def RegionHd.ranges (r : RegionHd) (count : Nat) : List (Nat × Nat) :=
  let one (b : Nat) : Nat × Nat := (b, 4 * count)
  (r.xs.take r.nx).flatMap (fun b => if r.flags = 1 then [one b, one (b + r.hofs)] else [one b]) ++ (r.ys.take r.ny).map one

/-- Some two of a list of ranges overlap. -/
def selfOverlaps : List (Nat × Nat) → Bool
  | [] => false
  | x :: xs => (xs.any fun y => overlap x y) || selfOverlaps xs

/-- A header keeps R328 for a count and half; a field that would reach past 2^48 fails translation later. -/
def RegionHd.good (r : RegionHd) (count : Nat) (half : Bool) : Bool :=
  decide (1 ≤ r.nx) && decide (r.nx ≤ 6) && decide (r.ny ≤ 2) && decide (r.flags ≤ 1) && !r.resv &&
    r.hofs % 256 = 0 && (decide (r.flags = 1) || r.hofs = 0) &&
    (r.xs.all fun b => b % 256 = 0) && (r.ys.all fun b => b % 256 = 0) &&
    ((r.xs.drop r.nx).all fun b => b = 0) && ((r.ys.drop r.ny).all fun b => b = 0) &&
    decide (1 ≤ count) && decide (count ≤ 2 ^ 32) && !(r.flags = 0 && half) && !selfOverlaps (r.ranges count)

/-- Translate the fields of a list in order, a state field with W, each wholly in the usable near tier. -/
def Hw.suuFields (ci : CInfo) (n : Nat) (wr : Bool) : List Nat → Hw → Option (List (List (Nat × Nat))) × Hw
  | [], h => (some [], h)
  | b :: bs, h =>
    let t := h.dev.translate .dma (ci.l / 8) ci.ctx b n wr
    let h1 : Hw := { h with dev := t.2 }
    match t.1 with
    | .error _ => (none, h1)
    | .ok segs =>
      if segs.any fun s => decide (h1.pg.rangeRegion s.1 s.2 ≠ .near) then (none, h1)
      else
        let r := Hw.suuFields ci n wr bs h1
        (r.1.map fun l => segs :: l, r.2)

/-- Insert a request: in FAST at the end; else before the first request of the context that R331 orders after it. -/
def ureqInsert (fast : Bool) (x : UReq) : List UReq → List UReq
  | [] => [x]
  | y :: ys =>
    if !fast ∧ y.ctx = x.ctx ∧ (x.beat < y.beat ∨ (x.beat = y.beat ∧ x.core < y.core)) then x :: y :: ys
    else y :: ureqInsert fast x ys

/-- UAPPLY: its header, its checks, its translation, then its place on the units that serve its channels (R329, R331). -/
def Hw.uapply (ci : CInfo) (idx : Nat) (o : UapplyOp) (h : Hw) : XGo :=
  let v : CV := { pg := h.pg, core := h.core ci.n }
  let a := o.region.addr ci v
  let count := (o.count.val ci v).toNat
  let bad (code : Nat) (h : Hw) : XGo := .fault code (h.onPg (Pages.suuLast code o.slot.val ci.l ci.ctx))
  if a % 64 ≠ 0 then bad 2 h
  else
    let t := h.dev.translate .dma (ci.l / 8) ci.ctx a 64 false
    match t.1 with
    | .error _ => bad 3 { h with dev := t.2 }
    | .ok segs =>
      let r := t.2.readSegs .dma ci.cx segs
      match r.1 with
      | none => bad 4 { h with dev := r.2 }
      | some bs =>
        let h1 : Hw := { h with dev := r.2 }
        let hd := RegionHd.of bs
        if !hd.good count o.half then bad 5 h1
        else
          let n := 4 * count
          let lo := hd.xs.take hd.nx
          let hi := lo.map (· + hd.hofs)
          let f0 := h1.suuFields ci n true lo
          let f1 := if hd.flags = 1 then f0.2.suuFields ci n true hi else (f0.1, f0.2)
          let f2 := f1.2.suuFields ci n false (hd.ys.take hd.ny)
          match f0.1, f1.1, f2.1 with
          | some x0, some x1, some ys =>
            let h2 := f2.2
            let p := h2.pg
            let nch := p.get Reg.CAP_NT_CHAN 8 0
            let fields := x0 ++ x1 ++ ys
            let granules := List.range (ceilDiv n 256)
            let split := granules.any fun g => fields.any fun s =>
              decide (segAt s (256 * g) / 256 % nch ≠ segAt (x0.headD []) (256 * g) / 256 % nch)
            if split then bad 3 h2
            else
              let sets := (granules.map fun g => p.channelOf (segAt (x0.headD []) (256 * g)) / 8).dedup
              let recs := sets.map fun q => (h2.suu.server q).map fun u => tget (fun _ => none) h2.suu.slots (u * 8 + o.slot.val)
              let ok := p.slotPart o.slot.val = p.ctxPart ci.ctx && recs.all fun r => match r with
                | some (some rc) => rc.ctx = ci.ctx && rc.gen = ci.gen && recipeFits rc.ops hd.nx hd.ny
                | _ => false
              if !ok then bad 8 h2
              else if sets.any fun q => match h2.suu.server q with
                  | some u => decide (16 ≤ (h2.suu.queued u).length)
                  | none => false
              then .wait h2
              else
                let sd := v.seed
                let req : UReq :=
                  { id := h2.suu.nextId, ctx := ci.ctx, gen := ci.gen, core := ci.l, index := idx, cg := o.cg.val,
                    beat := p.beatNum.toNat, slot := o.slot.val, rc := o.rc, retain := hd.flags = 1, nx := hd.nx, ny := hd.ny,
                    xr := if o.half then x1 else x0, xw := if hd.flags = 1 then (if o.half then x0 else x1) else x0, y := ys,
                    count := count, s := [o.s0, o.s1, o.s2, o.s3].map fun x => x.val ci v, next := [],
                    key := srgKey sd.1 (if sd.2 then some p.node else none) ci.l 512, blk := v.core.blkK, left := sets,
                    poisoned := false }
                .ok (some .uapply) (h2.onSuu fun s => { s with nextId := s.nextId + 1, reqs := ureqInsert (ci.mode = 0) req s.reqs })
          | _, _, _ => bad 3 f2.2

/-! ## Groups (R320, R323 to R325, R330, R335) -/

/-- The operands of one element: temporaries and written X fields, X and Y as read, Q, S. -/
structure UElem where
  v : Tbl Nat
  xw : Tbl Nat
  fl : FFlags
  deriving DecidableEq, Repr

/-- The value of an operand code (R322, R324). -/
def UElem.src (e : UElem) (q : List W32) (s : List W64) (x y : List Nat) (c : Nat) : Nat :=
  if c ≤ 0x0B then tget (fun _ => 0) e.v c
  else if c ≤ 0x0F then (q.getD (c - 0x0C) 0).toNat
  else if c ≤ 0x15 then tget (fun j => x.getD j 0) e.xw (c - 0x10)
  else if c ≤ 0x17 then y.getD (c - 0x16) 0
  else (if c % 2 = 0 then lo32 (s.getD ((c - 0x18) / 2) 0) else hi32 (s.getD ((c - 0x18) / 2) 0)).toNat

/-- Negate an F32W code before use; zero has no sign, and NaN, the code of the sign alone, stays NaN (R107, R322). -/
def negCode (n : Bool) (c : Nat) : Nat := if n ∧ c % 2 ^ 31 ≠ 0 then (c + 2 ^ 31) % 2 ^ 32 else c

/-- The condition of SEL (R322). -/
def selCond (aux a : Nat) : Bool :=
  match Fmt.f32w.decode a with
  | .nan => aux = 3
  | .num d => if aux = 0 then !d.isZero && !d.neg else if aux = 1 then d.isZero || !d.neg else if aux = 2 then d.isZero else false

/-- One micro-operation on one element (R322, R323). -/
def UElem.step (r : Recipe) (rc : Rc) (draw : Nat) (s : List W64) (x y : List Nat) (e : UElem) (w : W32) : UElem :=
  let m := MicroOp.of w
  let a := negCode m.na (e.src r.q s x y m.a)
  let b := negCode m.nb (e.src r.q s x y m.b)
  let c := negCode m.nc (e.src r.q s x y m.c)
  let t := Fmt.f32w
  let res : Nat × FFlags :=
    if m.op = 1 then floatOp .add t a b c
    else if m.op = 2 then floatOp .mul t a b c
    else if m.op = 3 then floatOp .fma t a b c
    else if m.op = 4 then floatOp .sqrt t a b c
    else if m.op = 5 then floatOp .rcp t a b c
    else if m.op = 6 then (let k := floatOp .max t a b c; let z := floatOp .min t k.1 c c; (z.1, k.2 ||| z.2))
    else if m.op = 7 then floatOp .copy t (if selCond m.aux a then b else c) 0 0
    else
      let d := if m.aux % 2 = 0 then Fmt.f16w else Fmt.f16x
      let k := d.encode rc draw (t.decode a)
      let z := t.encode .default 0 (d.decode k.1)
      (z.1, k.2 ||| z.2)
  if m.d ≤ 0x0B then { e with v := tset (fun _ => 0) e.v m.d res.1, fl := e.fl ||| res.2 }
  else { e with xw := tinsert (terase e.xw (m.d - 0x10)) (m.d - 0x10) res.1, fl := e.fl ||| res.2 }

/-- The line a field's group g lies in. -/
def grpLine (segs : List (Nat × Nat)) (g : Nat) : Nat := segAt segs (64 * g) / 64

/-- Read the lines of several fields; none where one is poisoned. -/
def Dev.suuRead (cx : CtxId) (lines : List Nat) (d : Dev) : Option (List (List Byte)) × Dev :=
  lines.foldl (fun acc l =>
    let r := acc.2.readLine .suu cx l
    (match acc.1, r.1 with | some a, some b => some (a ++ [b]) | _, _ => none, r.2)) (some [], d)

/-- A unit writes a line of its stack; an open WCB entry on the line stays and will be written over the result (R332). -/
def Dev.suuWrite (line : Nat) (bs : List Byte) (poison : Bool) (d : Dev) : Dev :=
  let w := d.mem.wcb
  (d.writeLine .suu line bs).onMem fun m => ({ m with wcb := w } : Mem).setPoison line (poison || m.poisoned line)

/-- Element i of a line. -/
def lineElem (bs : List Byte) (i : Nat) : Nat := ofBytesLE (slice (4 * i) 4 bs)

/-- Process group g of a request on unit u; a group that COUNT ends in costs one more line read for each written field (R330, R335). Answers
whether a read met poison. -/
def Hw.suuGroup (u : Nat) (rec_ : Recipe) (r : UReq) (g : Nat) (h : Hw) : Bool × Hw :=
  let cx : CtxId := some (r.ctx, r.gen)
  let n := min 16 (r.count - 16 * g)
  let wrote (j : Nat) : Bool := r.retain || recipeWrites rec_.ops j
  let outs := (List.range r.nx).filter wrote
  let xs := h.dev.suuRead cx (r.xr.map fun s => grpLine s g)
  let ys := xs.2.suuRead cx (r.y.map fun s => grpLine s g)
  let old := if n < 16 then ys.2.suuRead cx (outs.map fun j => grpLine (r.xw.getD j []) g) else (some [], ys.2)
  let k := u / 4
  let bytes := 64 * (r.nx + r.ny + outs.length + (if n < 16 then outs.length else 0))
  match xs.1, ys.1, old.1 with
  | some xl, some yl, some ol =>
    let el (i : Nat) : UElem :=
      let x := xl.map fun l => lineElem l i
      let y := yl.map fun l => lineElem l i
      rec_.ops.foldl (fun e w => e.step rec_ r.rc (srgDraw r.key r.blk r.index (16 * g + i)) r.s x y w) ⟨[], [], 0⟩
    let es := (List.range n).map fun i => (i, el i)
    let line (jj : Nat × Nat) : List Byte :=
      let j := jj.1
      (List.range 16).flatMap fun i => match es[i]? with
        | some e => bytesLE 4 (tget (fun _ => lineElem (xl.getD j []) i) e.2.xw j)
        | none => bytesLE 4 (lineElem (ol.getD jj.2 []) i)
    let d1 := (outs.zipIdx).foldl (fun d jj => d.suuWrite (grpLine (r.xw.getD jj.1 []) g) (line jj) false) old.2
    let fl := es.foldl (fun f e => f ||| e.2.fl) (0 : FFlags)
    (false, { h with dev := d1.onPg fun p =>
      ((p.upd (Reg.SUU_FMT_STAT k (u % 4)) (· ||| fl)).count (Reg.SUU_ELEM_LO k) n).count (Reg.SUU_BYTES_LO k) bytes })
  | _, _, _ =>
    let d1 := outs.foldl (fun d j =>
      let l := grpLine (r.xw.getD j []) g
      d.suuWrite l ((rangeFrom (64 * l) 64).map d.mem.byte) true) old.2
    (true, { h with dev := d1.onPg fun p => (p.sat (Reg.SUU_POISON_CNT k) 1).count (Reg.SUU_BYTES_LO k) bytes })

/-- The channel set of a group. -/
def UReq.setOf (p : Pages) (r : UReq) (g : Nat) : Nat := p.channelOf (64 * grpLine (r.xr.headD []) g) / 8

/-- The groups of a request whose channel set is among qs and which are not yet written. -/
def UReq.groups (p : Pages) (qs : List Nat) (r : UReq) : List Nat :=
  (List.range (ceilDiv r.count 16)).filter fun g => decide (r.setOf p g ∈ qs) && decide (tget (fun _ => 0) r.next (r.setOf p g) ≤ g)

/-- Process groups in order, the slot and the data path checked at each (R340): the groups left unwritten where a check fails, whether a
read met poison. -/
def Hw.suuGroups (u : Nat) (rec_ : Recipe) (r : UReq) : List Nat → Hw → List Nat × Bool × Hw
  | [], h => ([], false, h)
  | g :: gs, h =>
    let cx : CtxId := some (r.ctx, r.gen)
    let sp := h.dev.detect (Pg.suu (u / 4)) 0 (r.slot * 256 + u % 4) cx false
    let pp := sp.2.detect (Pg.suu (u / 4)) 1 (64 * grpLine (r.xr.headD []) g) cx false
    let h1 : Hw := { h with dev := pp.2 }
    if sp.1 || pp.1 then (g :: gs, false, h1)
    else
      let s := Hw.suuGroup u rec_ r g h1
      let t := Hw.suuGroups u rec_ r gs s.2
      (t.1, s.1 || t.2.1, t.2.2)

/-- What a unit's work on the channel sets qs leaves of a request: the sets with groups unwritten, and where each goes on. -/
def UReq.worked (p : Pages) (qs rest : List Nat) (poison : Bool) (r : UReq) : UReq :=
  let open_ (q : Nat) : Bool := rest.any fun g => decide (r.setOf p g = q)
  { r with left := r.left.filter fun q => decide (q ∉ qs) || open_ q
           next := qs.foldl (fun t q => tset (fun _ => 0) t q (rest.headD 0)) r.next
           poisoned := r.poisoned || poison }

/-- Unit u starts its next request and processes the request's groups on its channels, up to a failure of the unit; then the others of its
stack take over (R320, R335, R336). -/
def Hw.suuStart (u : Nat) (h : Hw) : Hw :=
  match (h.suu.queued u).find? fun r => !((h.ctx r.ctx).launch.any fun l => l.exc) with
  | none => h
  | some r =>
    match tget (fun _ => none) h.suu.slots (u * 8 + r.slot) with
    | none => h.suuFault 8 r
    | some rec_ =>
      let qs := h.suu.mine u r
      let x := Hw.suuGroups u rec_ r (r.groups h.pg qs) h
      let h1 := x.2.2.onSuu fun s => { s with reqs := s.reqs.map fun y => if y.id = r.id then y.worked h.pg qs x.1 x.2.1 else y }
      if x.1.isEmpty then h1 else (h1.suuLose u x.1.length).suuOrphans

/-- The first request that every unit has finished completes; one that met poison faults its UAPPLY (R330, R335). -/
def Hw.suuComplete (h : Hw) : Hw :=
  match h.suu.reqs.find? fun r => r.left.isEmpty with
  | none => h
  | some r =>
    if r.poisoned then h.suuFault 4 r
    else (h.onSuu fun s => { s with reqs := s.reqs.filter fun x => x.id ≠ r.id }).modOwned (h.pg.physOf r.core) r.ctx fun c =>
      { c with outs := c.outs.filter fun o => !(o.kind = .uapply && o.index = r.index) }

/-- The requests of a context are dropped (R334). -/
def Hw.suuDrop (ctx : Nat) (h : Hw) : Hw := h.onSuu fun s => { s with reqs := s.reqs.filter fun r => r.ctx ≠ ctx }

/-- The slots that satisfy a test on number and recipe are cleared (R337). -/
def Hw.suuClear (t : Nat → Recipe → Bool) (h : Hw) : Hw :=
  h.onSuu fun s => { s with slots := s.slots.filter fun e => match e.2 with | some r => !t (e.1 % 8) r | none => true }

/-- A PF write of SUU_SLOT_PART: refused while a context of an old or new partition of a slot that changes has a launch; the
slots that change are cleared (R337, R339). Answers whether it was refused. -/
def Hw.slotPartWrite (w : W32) (h : Hw) : Bool × Hw :=
  let moved := (List.range 8).filter fun n => fld w (4 * n + 3) (4 * n) ≠ h.pg.slotPart n
  if moved.any fun n => h.partLaunch (h.pg.slotPart n) || h.partLaunch (fld w (4 * n + 3) (4 * n)) then (true, h)
  else (false, ((h.onPg fun p => (List.range 8).foldl (fun p k => p.wr (Reg.SUU_SLOT_PART k) w) p).suuClear fun n _ => n ∈ moved))

end Sys2Proof.Machine
end

