-- ==== Sys2Proof/Machine/Xfer.lean ====
section
/-! DEFINITION. Data movement and fabric instructions at issue: the Bay DMA's copies, gathers, scatters and stashes, and
XPUT, XGET, XATOM, XMSG (R259, R265 to R273, R280, R306). -/

namespace Sys2Proof.Machine

/-! ## One side of a data movement -/

/-- A resolved side: scratch of a logical core from an offset, or translated segments. -/
inductive Side where
  | scr (l o : Nat)
  | mem (segs : List (Nat × Nat))
  deriving DecidableEq, Repr

/-- A node ID is assigned: every coordinate lies below its axis extent (R21). -/
def Pages.nodeAssigned (p : Pages) (n : Nat) : Bool := (List.range 4).all fun a => decide (coordOf n a < p.extent a)

/-- Translate a CVA range for the Bay DMA; dec is the fault of a range that crosses regions, which raises DECODE (R98, R270, R280). -/
def Hw.xlateAs (dec : Nat) (ci : CInfo) (a n : Nat) (wr : Bool) (h : Hw) : Except Nat (List (Nat × Nat)) × Hw :=
  let t := h.dev.translate .dma (ci.l / 8) ci.ctx a n wr
  (match t.1 with
    | .error e => .error (if e = .decode then dec else 3)
    | .ok segs => .ok segs, { h with dev := t.2 })

/-- The same where a crossing is XLATE like any other failure. -/
def Hw.xlate (ci : CInfo) (a n : Nat) (wr : Bool) (h : Hw) : Except Nat (List (Nat × Nat)) × Hw := h.xlateAs 3 ci a n wr

/-- Resolve a side of n bytes: RANGE in scratch, ARG for a partition index outside the partition, XLATE for a CVA (R259,
R280, R445). -/
def Hw.side (ci : CInfo) (sp : Space) (lc a n : Nat) (wr : Bool) (h : Hw) : Except Nat Side × Hw :=
  match sp with
  | .own => if ci.outside a (a + n) then (.error 1, h) else (.ok (.scr ci.l a), h)
  | .peer =>
    match h.pg.coreAt ci.ctx lc with
    | none => (.error 0xA, h)
    | some l => if ci.outside a (a + n) then (.error 1, h) else (.ok (.scr l a), h)
  | .cva =>
    let t := h.xlate ci a n wr
    match t.1 with
    | .error e => (.error e, t.2)
    | .ok s => (.ok (.mem s), t.2)

/-- Read n bytes of a side: none where a line is poisoned. -/
def Hw.sideRead (ci : CInfo) (s : Side) (n : Nat) (h : Hw) : Option (List Byte) × Hw :=
  match s with
  | .scr l o => let r := h.scrOutside l o n; (some r.1, r.2)
  | .mem segs => let r := h.dev.readSegs .dma ci.cx segs; (r.1, { h with dev := r.2 })

/-- Write bytes to a side. -/
def Hw.sideWrite (ci : CInfo) (s : Side) (bs : List Byte) (h : Hw) : Hw :=
  match s with
  | .scr l o => h.scrInbound l o bs
  | .mem segs => h.onDev (Dev.writeSegs .dma ci.cx segs bs)

/-- Two sides of n bytes overlap: in one scratch, or in the CVAs they were given by. -/
def sidesOverlap (s d : Side) (sa da n : Nat) : Bool :=
  match s, d with
  | .scr l o, .scr l2 o2 => l = l2 && overlap (o, n) (o2, n)
  | .mem _, .mem _ => overlap (sa, n) (da, n)
  | _, _ => false

/-! ## Data movement (R266 to R270) -/

/-- The value of an operand as the issuing core sees it. -/
def Hw.opv (ci : CInfo) (x : Sop) (h : Hw) : Nat := (x.val ci { pg := h.pg, core := h.core ci.n }).toNat

/-- The address in an operand. -/
def Hw.opa (ci : CInfo) (x : Sop) (h : Hw) : Nat := h.opv ci x % 2 ^ 48

/-- DCOPY (R267). -/
def Hw.dcopy (ci : CInfo) (o : DcopyOp) (h : Hw) : XGo :=
  let n := h.opv ci o.len
  let a := h.opa ci o.src
  let b := h.opa ci o.dst
  if n = 0 ∨ 2 ^ 32 ≤ n then .fault 5 h
  else
    let s := h.side ci o.ssp o.sLc.toNat a n false
    match s.1 with
    | .error e => .fault e s.2
    | .ok src =>
      let d := s.2.side ci o.dsp o.dLc.toNat b n true
      match d.1 with
      | .error e => .fault e d.2
      | .ok dst =>
        if sidesOverlap src dst a b n then .fault 5 d.2
        else
          let r := d.2.sideRead ci src n
          match r.1 with
          | none => .fault 4 r.2
          | some bs => .ok (some .dma) (r.2.sideWrite ci dst bs)

/-- The index list of a gather or scatter, with its checks: COUNT, ALIGN, RANGE. -/
def Hw.idxList (ci : CInfo) (o : DlistOp) (h : Hw) : Except Nat (List Nat) × Hw :=
  let count := h.opv ci o.count
  let a := h.opa ci o.idx
  if count = 0 ∨ 2 ^ 20 < count then (.error 5, h)
  else if a % 4 ≠ 0 then (.error 2, h)
  else if ci.outside a (a + 4 * count) then (.error 1, h)
  else
    let r := h.scrOutside ci.l a (4 * count)
    (.ok ((List.range count).map fun j => ofBytesLE (slice (4 * j) 4 r.1)), r.2)

/-- The peer core that a gather or scatter names is none of the partition's: ARG, whatever its list holds (R280). -/
def Hw.peerBad (ci : CInfo) (o : DlistOp) (h : Hw) : Bool := o.sp = .peer && (h.pg.coreAt ci.ctx o.lc.toNat).isNone

/-- Resolve every indexed row; a row of index 0xFFFF_FFFF has none (R268, R269, R306). -/
def Hw.rowSides (ci : CInfo) (o : DlistOp) (base : Nat) (wr : Bool) : List Nat → Hw → Except Nat (List (Option Side)) × Hw
  | [], h => (.ok [], h)
  | i :: is, h =>
    let one : Except Nat (Option Side) × Hw :=
      if i = 0xFFFFFFFF then (.ok none, h)
      else
        let s := h.side ci o.sp o.lc.toNat (base + i * o.stride.toNat) o.rowb.toNat wr
        match s.1 with
        | .error e => (.error e, s.2)
        | .ok x => (.ok (some x), s.2)
    match one.1 with
    | .error e => (.error e, one.2)
    | .ok x =>
      let r := Hw.rowSides ci o base wr is one.2
      match r.1 with
      | .error e => (.error e, r.2)
      | .ok l => (.ok (x :: l), r.2)

/-- Read rows in order: none where one is poisoned; an absent row reads zeros. -/
def Hw.rowsRead (ci : CInfo) (n : Nat) (rows : List (Option Side)) (h : Hw) : Option (List Byte) × Hw :=
  rows.foldl
    (fun acc r => match r with
      | none => (acc.1.map (· ++ List.replicate n 0), acc.2)
      | some s =>
        let x := acc.2.sideRead ci s n
        (match acc.1, x.1 with | some a, some b => some (a ++ b) | _, _ => none, x.2))
    (some [], h)

/-- DGATHER (R268). -/
def Hw.dgather (ci : CInfo) (o : DlistOp) (h : Hw) : XGo :=
  let l := h.idxList ci o
  match l.1 with
  | .error e => .fault e l.2
  | .ok is =>
    let n := o.rowb.toNat
    let d := l.2.opa ci o.own
    if ci.outside d (d + n * is.length) then .fault 1 l.2
    else if h.peerBad ci o then .fault 0xA l.2
    else
      let r := l.2.rowSides ci o (l.2.opa ci o.base) false is
      match r.1 with
      | .error e => .fault e r.2
      | .ok rows =>
        let x := r.2.rowsRead ci n rows
        match x.1 with
        | none => .fault 4 x.2
        | some bs => .ok (some .dma) (x.2.scrInbound ci.l d bs)

/-- DSCATTER: rows written in list order, so the later one wins (R269). -/
def Hw.dscatter (ci : CInfo) (o : DlistOp) (h : Hw) : XGo :=
  let l := h.idxList ci o
  match l.1 with
  | .error e => .fault e l.2
  | .ok is =>
    let n := o.rowb.toNat
    let s := l.2.opa ci o.own
    if ci.outside s (s + n * is.length) then .fault 1 l.2
    else if h.peerBad ci o then .fault 0xA l.2
    else
      let r := l.2.rowSides ci o (l.2.opa ci o.base) true is
      match r.1 with
      | .error e => .fault e r.2
      | .ok rows =>
        let x := r.2.scrOutside ci.l s (n * is.length)
        .ok (some .dma) (rows.zipIdx.foldl (fun h w => match w.1 with
          | none => h
          | some d => h.sideWrite ci d (slice (n * w.2) n x.1)) x.2)

/-- DSTASH and DUNSTASH: the CVA range must translate wholly into the far tier; one that crosses regions is TIER and raises DECODE (R98,
R270). -/
def Hw.dstash (ci : CInfo) (toFar : Bool) (o : DstashOp) (h : Hw) : XGo :=
  let n := h.opv ci o.len
  let s := o.scr.val ci
  let a := h.opa ci o.cva
  if n = 0 ∨ 2 ^ 32 ≤ n then .fault 5 h
  else if ci.outside s (s + n) then .fault 1 h
  else
    let t := h.xlateAs 9 ci a n toFar
    match t.1 with
    | .error e => .fault e t.2
    | .ok segs =>
      if segs.any fun x => decide (t.2.pg.rangeRegion x.1 x.2 ≠ .far) then .fault 9 t.2
      else if toFar then
        let r := t.2.scrOutside ci.l s n
        .ok (some .dma) (r.2.onDev (Dev.writeSegs .dma ci.cx segs r.1))
      else
        let r := t.2.dev.readSegs .dma ci.cx segs
        match r.1 with
        | none => .fault 4 { t.2 with dev := r.2 }
        | some bs => .ok (some .dma) (({ t.2 with dev := r.2 } : Hw).scrInbound ci.l s bs)

/-! ## Fabric (R271 to R273, R215) -/

/-- XPUT: the source is read whole and its packets are injected (R272, R376). -/
def Hw.xput (ci : CInfo) (o : XputOp) (h : Hw) : XGo :=
  let node := h.opv ci o.dnode % 65536
  let n := h.opv ci o.len
  let a := h.opa ci o.src
  let b := h.opa ci o.dst
  if n = 0 ∨ 2 ^ 32 ≤ n then .fault 5 h
  else if !h.pg.nodeAssigned node then .fault 6 h
  else if o.dspScr && decide (96 ≤ o.tag.toNat / 65536) then .fault 0xA h
  else if o.dspScr && decide (2 ^ 23 < b + n) then .fault 1 h
  else
    let s := h.side ci (if o.srcOwn then .own else .cva) 0 a n false
    match s.1 with
    | .error e => .fault e s.2
    | .ok src =>
      let r := s.2.sideRead ci src n
      match r.1 with
      | none => .fault 4 r.2
      | some bs => .ok none (r.2.sendTransfer node (if o.dspScr then 0x02 else 0x01) 0 ci.ctx ci.gen
          b o.tag.toNat 0 bs)

/-- XGET: a GET_REQ whose response counts toward the named local declaration (R272). -/
def Hw.xget (ci : CInfo) (o : XgetOp) (h : Hw) : XGo :=
  let node := h.opv ci o.dnode % 65536
  let n := h.opv ci o.len
  let b := h.opa ci o.dst
  if n = 0 ∨ 2 ^ 32 ≤ n then .fault 5 h
  else if !h.pg.nodeAssigned node then .fault 6 h
  else if o.sspScr && decide (96 ≤ o.rcore.toNat) then .fault 0xA h
  else if (o.dstOwn && ci.outside b (b + n)) || (o.sspScr && decide (2 ^ 23 < h.opa ci o.src + n)) then .fault 1 h
  else
    let tag := h.pg.partIdx ci.l * 65536 + o.tag.toNat
    let pay := bytesLE 6 b ++ bytesLE 1 (if o.sspScr then o.rcore.toNat else 0) ++
      bytesLE 1 (o.dstOwn.toNat + 2 * o.sspScr.toNat) ++ bytesLE 4 n ++ bytesLE 4 0
    let src := h.opa ci o.src
    let k := h.pg.mkPacket node 0x03 0 ci.ctx ci.gen src 0 tag true true (crc64 pay) pay 0
    .ok (some (.xget o.tag.toNat n)) ((h.digest ci.ctx h.pg.beatNum.toNat (crc64 (digHead node tag 16 ++ pay))).inject k)

/-- The code of an atomic operation (R271). -/
def Aop.code : Aop → Nat
  | .addI32 => 0 | .addI64 => 1 | .faddF32 => 2 | .maxI32 => 3 | .minI32 => 4 | .maxF32 => 5 | .minF32 => 6

/-- XATOM: sent, and outstanding until its acknowledgement (R273). -/
def Hw.xatom (ci : CInfo) (o : XatomOp) (h : Hw) : XGo :=
  let node := h.opv ci o.dnode % 65536
  let a := h.opa ci o.dst
  let n := aopSize o.aop.code
  if a % n ≠ 0 then .fault 2 h
  else if !h.pg.nodeAssigned node then .fault 6 h
  else
    let pay := bytesLE n (h.opv ci o.val)
    let seq := (h.ctx ci.ctx).atomSeq
    let k := h.pg.mkPacket node 0x06 0 ci.ctx ci.gen a 0 o.aop.code true true (crc64 pay) pay (h.pg.partIdx ci.l)
    .ok (some (.xatom seq)) (((h.modCtx ci.ctx fun x => { x with atomSeq := seq + 1, unacked := x.unacked ++ [(seq, node)] }).digest
      ci.ctx h.pg.beatNum.toNat (crc64 (digHead node o.aop.code n ++ pay))).inject k)

/-- XMSG: one packet on VC 6 (R215, R272, R374). -/
def Hw.xmsg (ci : CInfo) (o : XmsgOp) (h : Hw) : XGo :=
  let node := h.opv ci o.dnode % 65536
  let a := h.opa ci o.src
  let n := o.len.toNat
  if !h.pg.nodeAssigned node then .fault 6 h
  else if ci.outside a (a + n) then .fault 1 h
  else
    let r := h.scrOutside ci.l a n
    let tag := (if o.decl then o.dcore.toNat * 65536 else 0) + o.mtag.toNat
    let k := r.2.pg.mkPacket node 0x08 6 ci.ctx ci.gen (o.dcore.toNat + 256 * o.decl.toNat) 0 tag true true (crc64 r.1) r.1
      (r.2.pg.partIdx ci.l)
    .ok none ((r.2.digest ci.ctx r.2.pg.beatNum.toNat (crc64 (digHead node tag n ++ r.1))).inject k)

/-! ## Any XFER instruction -/

/-- A collective at issue. -/
def Hw.xcoll (ci : CInfo) (idx : Nat) (k : CollKind) (o : CollOp) (h : Hw) : XGo :=
  if !h.pg.works (Pg.bcu (ci.l / 8)) || (List.range 4).any fun a => h.pg.grpMask o.grp.val a && !h.pg.works (Pg.stg a) then .wait h
  else
  let r := h.collIssue ci idx k o
  match r.1 with
  | .error e => .fault e r.2
  | .ok h1 => .ok (some .coll) h1

/-- An instruction needs a translation as it issues: some operand of it lies at a CVA. -/
def CoreInsn.usesCva : CoreInsn → Bool
  | .dcopy o => o.ssp = .cva || o.dsp = .cva
  | .dgather o | .dscatter o => o.sp = .cva
  | .dstash _ | .dunstash _ | .uapply _ => true
  | .xput o => !o.srcOwn
  | .callr o | .crscat o | .cagath o | .cbcast o | .ca2a o | .ca2av o | .cperm o => !o.srcOwn || !o.dstOwn
  | _ => false

/-- Issue an XFER instruction; a control instruction does not come here. One that needs a translation waits while MEMXL does no work
(R81). -/
def Hw.xgo (ci : CInfo) (idx : Nat) (i : CoreInsn) (h : Hw) : XGo :=
  if i.usesCva && !h.pg.works Pg.memxl then .wait h else
  match i with
  | .dcopy o => h.dcopy ci o
  | .dgather o => h.dgather ci o
  | .dscatter o => h.dscatter ci o
  | .dstash o => h.dstash ci true o
  | .dunstash o => h.dstash ci false o
  | .xput o => h.xput ci o
  | .xget o => h.xget ci o
  | .xatom o => h.xatom ci o
  | .xmsg o => h.xmsg ci o
  | .callr o => h.xcoll ci idx .callr o
  | .crscat o => h.xcoll ci idx .crscat o
  | .cagath o => h.xcoll ci idx .cagath o
  | .cbcast o => h.xcoll ci idx .cbcast o
  | .ca2a o => h.xcoll ci idx .ca2a o
  | .ca2av o => h.xcoll ci idx .ca2av o
  | .cperm o => h.xcoll ci idx .cperm o
  | .urecipe o => h.urecipe ci o
  | .uapply o => h.uapply ci idx o
  | _ => .ok none h

/-- The completion group of an XFER instruction (R265). -/
def CoreInsn.cg : CoreInsn → Nat
  | .dcopy o => o.cg.val | .dgather o => o.cg.val | .dscatter o => o.cg.val | .dstash o => o.cg.val | .dunstash o => o.cg.val
  | .xput o => o.cg.val | .xget o => o.cg.val | .xatom o => o.cg.val | .xmsg o => o.cg.val
  | .callr o => o.cg.val | .crscat o => o.cg.val | .cagath o => o.cg.val | .cbcast o => o.cg.val | .ca2a o => o.cg.val
  | .ca2av o => o.cg.val | .cperm o => o.cg.val
  | .urecipe o => o.cg.val | .uapply o => o.cg.val
  | _ => 0

end Sys2Proof.Machine
end

