-- ==== Sys2Proof/Machine/Issue.lean ====
section
/-! DEFINITION. Dispatch of a core's native stream: queues, control instructions, what holds dispatch, and the commit and
discard of a speculative block (R50, R53, R129, R209, R238, R240, R260, R276 to R280). -/

namespace Sys2Proof.Machine

/-! ## Counters that an instruction reads (R209) -/

/-- The counter a SOP names. -/
def Sop.ctrs : Sop → List Nat
  | .ctr c => [c.val]
  | _ => []

/-- The counter an IDX names. -/
def Idx.ctrs : Idx → List Nat
  | .ctr c => [c.val]
  | _ => []

/-- Counters of a list of operands. -/
def sopCtrs (l : List Sop) : List Nat := l.flatMap Sop.ctrs

/-- The counters an instruction reads. -/
def CoreInsn.ctrs : CoreInsn → List Nat
  | .mload o => o.kofs.ctrs ++ o.rofs.ctrs
  | .mstream o => o.count.ctrs ++ o.kofs.ctrs ++ o.rofs.ctrs ++ o.orow.ctrs
  | .mdrain o => o.orow.ctrs
  | .vtensLd o | .vtensSt o => [o.i0.val, o.i1.val, o.i2.val, o.i3.val]
  | .vmask o => if o.op = .firstn then [o.n.val] else []
  | .dcopy o => sopCtrs [o.src, o.dst, o.len]
  | .dgather o | .dscatter o => sopCtrs [o.base, o.own, o.idx, o.count]
  | .dstash o | .dunstash o => sopCtrs [o.cva, o.len]
  | .xput o => sopCtrs [o.dnode, o.src, o.dst, o.len]
  | .xget o => sopCtrs [o.dnode, o.src, o.dst, o.len]
  | .xatom o => sopCtrs [o.dnode, o.dst, o.val]
  | .xmsg o => sopCtrs [o.dnode, o.src]
  | .callr o | .crscat o | .cagath o | .cbcast o | .ca2a o | .ca2av o | .cperm o => sopCtrs [o.src, o.dst, o.count, o.extra]
  | .uapply o => sopCtrs [o.region, o.count, o.s0, o.s1, o.s2, o.s3]
  | .cset _ _ s | .wait _ s | .signal _ _ s => s.ctrs
  | .cinc d s => d.val :: s.ctrs
  | .ccmp _ a _ s => a.val :: s.ctrs
  | .loop a _ => [a.val]
  | .gcall o => sopCtrs o.args
  | _ => []

/-- Return counters of calls that have not returned. -/
def Core.pendRet (c : Core) : List Nat :=
  (c.gq ++ (c.grun.map (·.call)).toList).filterMap fun g => g.retc.map (·.val)

/-! ## Queues -/

/-- The place that an instruction is dispatched to: 0 MXA, 1 TVU, 2 and 3 the XFER queue (2 for one that writes own
scratch), 4 control (R260, R261). -/
def CoreInsn.place : CoreInsn → Nat
  | .mmode _ | .mload _ | .mstream _ | .mdrain _ => 0
  | .vop _ | .vtens _ | .vtensLd _ | .vtensSt _ | .vred _ | .vcvt _ | .vseed _ | .vdraw _ | .vmask _ => 1
  | .dcopy o => if o.dsp = .cva then 3 else 2
  | .dgather _ | .dunstash _ => 2
  | .dscatter o => if o.sp = .cva then 3 else 2
  | .callr o | .crscat o | .cagath o | .cbcast o | .ca2a o | .ca2av o | .cperm o => if o.dstOwn then 2 else 3
  | .xget o => if o.dstOwn then 2 else 3
  | .dstash _ | .xput _ | .xatom _ | .xmsg _ | .urecipe _ | .uapply _ => 3
  | _ => 4

/-- The instruction's class for FENCE: data movement and update at scope DMA, fabric and collective at FABRIC (R279). -/
def CoreInsn.dmaClass : CoreInsn → Bool
  | .dcopy _ | .dgather _ | .dscatter _ | .dstash _ | .dunstash _ | .urecipe _ | .uapply _ => true
  | _ => false

/-- The same of an outstanding record. -/
def OutKind.dmaClass : OutKind → Bool
  | .dma | .urecipe | .uapply => true
  | _ => false

/-- Start what the MXA and TVU queues can start, in the order of dispatch (R156, R260). A block that has ended with its OS
pass open raises OPEN with the index of the MSTREAM that opened it (R137, R161). -/
def CV.pump (ci : CInfo) (v : CV) : CV :=
  let n := v.core.ord.length + 1
  let w := iter (fun v => tvuPump ci 17 (mxaPump ci 17 v)) n v
  if (w.core.blk.any fun b => b.done) && w.core.mxq.isEmpty && !w.core.mStop && !w.core.failed then
    match w.core.pass with
    | some p => (w.onCore fun c => { c with pass := none }).except ci .mxa 7 p.opener
    | none => w
  else w

/-- What a FENCE waits for has gone: outstanding records and queued instructions of its scope and groups (R279). -/
def Core.fenceMet (sc : FScope) (cgs : BitVec 8) (c : Core) : Bool :=
  match sc with
  | .local => c.ord.all fun k => k ∉ [0, 1, 5]
  | .dma | .device => (c.outs.all fun o => !(o.kind.dmaClass && wbit cgs o.cg)) &&
      c.held.all fun i => !(decide (i.2.place < 4) && i.2.dmaClass && wbit cgs i.2.cg)
  | .fabric => (c.outs.all fun o => !(!o.kind.dmaClass && wbit cgs o.cg)) &&
      c.held.all fun i => !(decide (i.2.place < 4) && !i.2.dmaClass && wbit cgs i.2.cg)

/-- Device address of the 64 B line at which the Bay DMA path of an instruction is checked: its side in own scratch where it has one,
else the first line of its CVA side. -/
def Hw.dmaLine (ci : CInfo) (i : CoreInsn) (h : Hw) : Nat :=
  let scr (o : Nat) : Nat := scrBase + ci.l * 0x1000000 + o % 0x1000000 / 64 * 64
  let cva (a : Nat) : Nat := match (h.xlate ci a 1 false).1 with | .ok (s :: _) => s.1 / 64 * 64 | _ => 0
  match i with
  | .dcopy o => if o.ssp = .own then scr (h.opv ci o.src) else if o.dsp = .own then scr (h.opv ci o.dst) else cva (h.opa ci o.src)
  | .dgather o | .dscatter o => scr (h.opv ci o.own)
  | .dstash o | .dunstash o => cva (h.opa ci o.cva)
  | .xput o => if o.srcOwn then scr (h.opv ci o.src) else cva (h.opa ci o.src)
  | .xget o => if o.dstOwn then scr (h.opv ci o.dst) else cva (h.opa ci o.dst)
  | .xmsg o => scr (h.opv ci o.src)
  | _ => 0

/-- An instruction moves data through the Bay DMA (R266, R271). -/
def CoreInsn.isDma : CoreInsn → Bool
  | .dcopy _ | .dgather _ | .dscatter _ | .dstash _ | .dunstash _ | .xput _ | .xget _ | .xatom _ | .xmsg _ => true
  | _ => false

/-- The parity check of the Bay DMA path: on a failure the transfer is abandoned and the Bay goes out of service (R545, R558). -/
def Hw.dmaPar (ci : CInfo) (i : CoreInsn) (h : Hw) : Bool × Hw :=
  if !i.isDma then (false, h)
  else
    let f := h.pg.detect (Pg.bay (ci.l / 8)) 2 (h.dmaLine ci i) (h.pg.bayCx (ci.l / 8)) false
    let h1 : Hw := { h with dev := { h.dev with pg := f.2 } }
    (f.1, if f.1 then h1.bayOut (ci.l / 8) else h1)

/-- Pages of the issuing core's scratch that an XFER instruction writes (R156). -/
def Hw.landPages (ci : CInfo) (i : CoreInsn) (h : Hw) : List Nat :=
  let coll (k : CollKind) (o : CollOp) : List Nat :=
    if !o.dstOwn then []
    else
      let x := o.vals ci { pg := h.pg, core := h.core ci.n }
      rangePages x.2.1 ((collExtents k (h.pg.instNodes o.grp.val).length (x.2.2.1 % 2 ^ 32) 0).2 * (o.fmt.width / 8))
  match i with
  | .dcopy o => if o.dsp = .own then rangePages (h.opa ci o.dst) (h.opv ci o.len) else []
  | .dgather o => rangePages (h.opa ci o.own) (o.rowb.toNat * h.opv ci o.count)
  | .dunstash o => rangePages (o.scr.val ci) (h.opv ci o.len)
  | .xget o => if o.dstOwn then rangePages (h.opa ci o.dst) (h.opv ci o.len) else []
  | .callr o => coll .callr o | .crscat o => coll .crscat o | .cagath o => coll .cagath o | .cbcast o => coll .cbcast o
  | .ca2a o => coll .ca2a o | .ca2av o => coll .ca2av o | .cperm o => coll .cperm o
  | _ => []

/-- Issue queued XFER instructions in order while they can issue (R260). -/
def Hw.xpump (ci : CInfo) : Nat → Hw → Hw
  | 0, h => h
  | fuel + 1, h =>
    let c := h.core ci.n
    if c.failed || c.xStop || c.exc || c.spec.isSome then h
    else match c.held with
      | [] => h
      | (idx, i) :: rest =>
        if !c.mayStart 2 then h
        else
          let land := h.landPages ci i
          let d := h.dmaPar ci i
          if d.1 then d.2
          else match d.2.xgo ci idx i with
            | .wait h1 => h1
            | .fault code h1 => (h1.modCore ci.n fun c => ({ c with held := [] } : Core).started 2).xfault ci code idx
            | .ok out h1 =>
              let h2 := h1.modCore ci.n fun c => ({ c with
                held := rest
                outs := c.outs ++ (match out with | some k => [⟨k, i.cg, idx, land⟩] | none => []) } : Core).started 2
              Hw.xpump ci fuel h2

/-! ## What holds dispatch (R277 to R279) -/

/-- A declaration has arrived whole, or is void (R277). -/
def Decl.arrived (d : Decl) : Bool := d.done || d.void

/-- The wait of a core is over. -/
def Hw.waitMet (ci : CInfo) (w : WaitOn) (h : Hw) : Bool :=
  let ix := h.pg.partIdx ci.l
  match w with
  | .arr none => (h.ctx ci.ctx).decls.all fun d => !(d.tag / 65536 = ix) || d.arrived
  | .arr (some t) => (h.ctx ci.ctx).decls.any fun d => d.tag = ix * 65536 + t.toNat && d.arrived
  | .fence sc cgs => (h.core ci.n).fenceMet sc cgs
  | .event e v => decide (v.toNat ≤ (h.pg.rd64 (Reg.CTX_E ci.ctx e.val)).toNat)
  | .gcall => !(((h.core ci.n).gq ++ ((h.core ci.n).grun.map (·.call)).toList).any fun g => g.sync)
  | .commit _ _ => (h.core ci.n).spec.isNone

/-- A FENCE of scope DEVICE flushes the WCB entries that hold bytes of the context (R295). -/
def Hw.fenceFlush (ci : CInfo) (w : WaitOn) (h : Hw) : Hw :=
  match w with
  | .fence .device _ => h.onDev (Dev.wcbFlushAll fun e => ci.ctx ∈ e.ctxs)
  | _ => h

/-! ## Control instructions (R240, R276) -/

/-- The relation of CCMP, signed. -/
def Rel.holds (r : Rel) (a b : W64) : Bool :=
  match r with
  | .eq => a = b | .ne => a ≠ b | .lt => a.slt b | .le => !b.slt a | .gt => b.slt a | .ge => !a.slt b

/-- Go on at the next instruction. -/
def Core.next (c : Core) : Core := { c with blk := c.blk.map fun b => { b with idx := b.idx + 1 } }

/-- Go on at instruction t. -/
def Core.goto (t : Nat) (c : Core) : Core := { c with blk := c.blk.map fun b => { b with idx := t } }

/-- BEAT: the block is done, with the choice of the next (R238). -/
def Core.endBlock (n : BeatNext) (c : Core) : Core :=
  { c with blk := c.blk.map fun b => { b with
      idx := b.idx + 1
      done := true
      next := match n with
        | .fall => some (b.id + 1)
        | .goto t => some t.toNat
        | .ifK k t => some (if c.k k.val then t.toNat else b.id + 1)
        | .fin => none } }

/-- CSET, CINC, CCMP, LOOP, BR and BEAT: they run in a speculative block too, on its copies (R240, R261, R276). -/
def CV.scalar (ci : CInfo) (i : CoreInsn) (v : CV) : CV :=
  match i with
  | .cset d clr src =>
    let w := src.val ci v
    let v1 := v.onCore (Core.setCtr d w)
    (match src with | .flg t => (if clr then v1.flagClr ci t w.toNat else v1) | _ => v1).onCore Core.next
  | .cinc d src => v.onCore fun c => (c.setCtr d (c.c d + src.val ci v)).next
  | .ccmp d a r src => v.onCore fun c => (c.setCmp d (r.holds (c.c a) (src.val ci v))).next
  | .loop a t => v.onCore fun c =>
      let w := c.c a - 1
      if w ≠ 0 then (c.setCtr a w).goto t.toNat else (c.setCtr a w).next
  | .br cond t =>
    v.onCore fun c => if (match cond with | none => true | some (k, neg) => c.k k.val != neg) then c.goto t.toNat else c.next
  | .beat n => v.onCore (Core.endBlock n)
  | _ => v

/-- A WAIT that a SIGNAL has met ends, on the cycle after it, wherever it waits (R278). -/
def Hw.wakeEvent (ci : CInfo) (h : Hw) : Hw :=
  match (h.core ci.n).owner, (h.core ci.n).wait with
  | some c, some (.event e v) => if c = ci.ctx && h.waitMet ci (.event e v) then h.modCore ci.n fun c => { c with wait := none } else h
  | _, _ => h

/-- A SIGNAL to context c wakes the cores of its partition whose WAIT it meets (R278). -/
def Hw.wakeWaiters (c : Nat) (h : Hw) : Hw := (h.pg.partCores (h.pg.ctxPart c)).foldl (fun h l => h.wakeEvent (h.ciOf l c)) h

/-- Instructions of a routine of the module that context c runs (R281). -/
def Hw.routineLen (c k : Nat) (h : Hw) : Nat := (((h.launchMod c).bind fun m => m.routines[k]?).getD []).length

/-- The control instructions that hold in a speculative block: WAITARR, FENCE wider than LOCAL, SIGNAL, WAIT, GCALL
(R210, R277 to R279). -/
def Hw.control (ci : CInfo) (i : CoreInsn) (h : Hw) : Hw :=
  let v : CV := { pg := h.pg, core := h.core ci.n }
  let hold (w : WaitOn) : Hw := (h.modCore ci.n fun c => { c.next with wait := some w }).fenceFlush ci w
  match i with
  | .waitarr t => hold (.arr t)
  | .fence sc cgs => hold (.fence sc cgs)
  | .wait e s => hold (.event e (s.val ci v))
  | .signal host e s =>
    let key := Reg.CTX_E ci.ctx e.val
    let w := h.pg.rd64 key + s.val ci v
    let h1 := ((h.onPg (Pages.wr64 key w)).modCore ci.n Core.next).wakeWaiters ci.ctx
    if host then h1.event 1 ci.ctx (bytesLE 4 e.val ++ bytesLE 8 w.toNat) else h1
  | .gcall o =>
    let g : GCallRec :=
      { routine := o.routine.toNat, len := h.routineLen ci.ctx o.routine.toNat, args := o.args.map fun x => x.val ci v, retc := o.retv, sync := o.sync,
        index := ((h.core ci.n).blk.map (·.idx)).getD 0 }
    h.modCore ci.n fun c => { c.next with gq := c.gq ++ [g], ord := c.ord ++ [5], wait := if o.sync then some .gcall else c.wait }
  | _ => h

/-- A FENCE of scope LOCAL: it runs at dispatch, in a speculative block too, and what is dispatched after it starts once it is complete
(R50, R260, R279). -/
def CoreInsn.isLocalFence : CoreInsn → Bool
  | .fence .local _ => true
  | _ => false

/-- A control instruction that runs in a speculative block. -/
def CoreInsn.isScalar : CoreInsn → Bool
  | .cset _ _ _ | .cinc _ _ | .ccmp _ _ _ _ | .loop _ _ | .br _ _ | .beat _ => true
  | _ => false

/-- End a wait that is over, carrying out the control instruction it held for the commit. -/
def Hw.endWait (ci : CInfo) (h : Hw) : Hw :=
  match (h.core ci.n).wait with
  | none => h
  | some w =>
    if !h.waitMet ci w then h
    else
      let h1 := (h.modCore ci.n fun c => { c with wait := none }).fenceFlush ci w
      match w with
      | .commit _ i => h1.control ci i
      | _ => h1

/-- A launch of the context runs and no event has halted it (R41, R54, R280). -/
def Hw.goes (c : Nat) (h : Hw) : Bool := (h.ctx c).launch.any fun l => !l.halted

/-- Let a core's queues go on: matrix and vector, XFER, and the wait that holds dispatch. A halted context's do not. -/
def Hw.pumpCore (ci : CInfo) (h : Hw) : Hw :=
  if !h.goes ci.ctx then h else
  ((((h.onCv ci (CV.pump ci)).xpump ci 33).endWait ci).xpump ci 33).endWait ci

/-! ## Dispatch (R260) -/

/-- A core can dispatch: in reach, in a block of the context that holds its slot, not ended, held, stopped or halted. -/
def Hw.canDispatch (ci : CInfo) (i : CoreInsn) (h : Hw) : Bool :=
  let c := h.core ci.n
  h.reach ci.l && decide (c.owner = some ci.ctx) && (c.blk.any fun b => !b.done) && c.wait.isNone && !c.failed && !c.exc &&
    !c.xStop && h.goes ci.ctx && (i.ctrs.all fun k => k ∉ c.pendRet) &&
    (match i.place with
      | 0 => decide (c.mxq.length < 16)
      | 1 => decide (c.tvq.length < 16)
      | 2 | 3 => decide (c.held.length < 32)
      | _ => match i with
        | .gcall _ => decide (c.gigCalls < 5)
        | _ => true)

/-- Dispatch one native instruction of logical core l (R260, R261). An instruction that cannot be dispatched now has no
effect. -/
def Hw.dispatch (l : Nat) (i : CoreInsn) (h0 : Hw) : Hw :=
  match h0.coreCtx l with
  | none => h0
  | some c =>
    let ci := h0.ciOf l c
    let h := if h0.reach l && decide ((h0.core ci.n).owner = some c) then h0.endWait ci else h0
    if !h.canDispatch ci i then h
    else
      let core := h.core ci.n
      let idx := (core.blk.map (·.idx)).getD 0
      let h1 : Hw :=
        if i.place = 0 then h.modCore ci.n fun c => { c.next with mxq := c.mxq ++ [(idx, i)], ord := c.ord ++ [0] }
        else if i.place = 1 then h.modCore ci.n fun c => { c.next with tvq := c.tvq ++ [(idx, i)], ord := c.ord ++ [1] }
        else if i.place ≤ 3 then h.modCore ci.n fun c => { c.next with held := c.held ++ [(idx, i)], ord := c.ord ++ [i.place] }
        else if i.isScalar then h.onCv ci (CV.scalar ci i)
        else if i.isLocalFence then
          h.modCore ci.n fun c => { c.next with ord := if c.fenceMet .local 0 then c.ord else c.ord ++ [4] }
        else if core.spec.isSome then h.modCore ci.n fun c => { c with wait := some (.commit idx i) }
        else h.control ci i
      h1.pumpCore ci

/-! ## Commit and discard (R53, R129) -/

/-- Insert a deferred record in programme order, that is, by instruction index. -/
def defInsert (x : Deferred) : List Deferred → List Deferred
  | [] => [x]
  | y :: ys => if y.index ≤ x.index then y :: defInsert x ys else x :: y :: ys

/-- The committed bytes of a block that touched its shadow pool are undefined (R51): every byte of its shadow frames takes
a free value. -/
def CV.taint (v : CV) (s : Spec) : Tbl Byte × CV :=
  if !s.tainted then (s.bytes, v)
  else
    let f := v.pg.fresh
    let t : Tbl Byte := s.pages.zipIdx.foldl (fun t p => (List.range 4096).foldl (fun t o =>
      let a := 4096 * p.1 + o
      tinsert (terase t a) a (BitVec.ofNat 8 (Config.freeWord (f + 4096 * p.2 + o)))) t) []
    (t, { v with pg := { v.pg with fresh := f + 4096 * s.pages.length } })

/-- CONFIRMED reaches a core: its shadow page map is read, where a parity error fails the core (SHADOW_PAR); shadow frames, counters, flags, performance deltas become committed, deferred records are
delivered (R53, R129). -/
def CV.commit (ci : CInfo) (v : CV) : CV :=
  match v.core.spec with
  | none => v
  | some s =>
    let f := if s.pages.isEmpty then (false, v.pg) else v.pg.detect Pg.beat 6 ci.n ci.cx false
    if f.1 then { pg := f.2, core := { v.core with failed := true } }
    else
    let v : CV := { pg := f.2, core := v.core }
    let t := v.taint s
    let scr := t.1.foldl (fun m e => tset (fun _ => 0) m e.1 e.2) t.2.core.scr
    let p1 := (t.2.pg.upd (Reg.MXA_FMT_STAT ci.n) fun w => (w &&& ~~~s.clrM) ||| s.setM).upd (Reg.TVU_FMT_STAT ci.n)
      fun w => (w &&& ~~~s.clrT) ||| s.setT
    let p2 := s.perf.foldl (fun p e => p.count e.1 e.2) p1
    let v1 : CV := { pg := p2, core := { t.2.core with scr := scr, ctr := s.ctr, cmp := s.cmp, spec := none, mWait := false, tWait := false,
                                                       seed := s.seed.getD v.core.seed, seeded := s.seed.isSome || v.core.seeded } }
    (s.deferred.foldl (fun l d => defInsert d l) []).foldl
      (fun v d => v.excDeliver ci (XUnit.ofCode d.kind) true d.code d.index) v1

/-- The state of a core's units that a boundary clears: the array, the tile and mask registers, the Gig's registers, local
store and queue (R137, R173, R211), with everything queued. -/
def Core.clearUnits (c : Core) : Core :=
  { c with front := none, back := none, loading := none, bank0 := [], bank1 := [], pass := none, mmode := 0, osel := false, mxq := [], tvq := [], ord := [],
           mWait := false, tWait := false, mStop := false, tStop := false, xStop := false, treg := [], masks := [], greg := [],
           ls := [], gq := [], grun := none, gStop := false, held := [], wait := none }

/-- A discard: shadow, speculative copies and deferred records are dropped, with everything in flight or queued (R53,
R160). -/
def CV.discard (v : CV) : CV :=
  match v.core.spec with
  | none => v
  | some s =>
    { pg := v.pg.sat Reg.BEAT_DEFDROP_CNT s.deferred.length, core := { v.core.clearUnits with spec := none, blk := none } }

/-- A core's block has retired: BEAT is dispatched and every instruction has completed (R260). -/
def Core.retired (c : Core) : Bool :=
  (c.blk.any fun b => b.done) && c.mxq.isEmpty && c.tvq.isEmpty && c.loading.isNone && c.held.isEmpty && c.outs.isEmpty &&
    c.wait.isNone && c.gigCalls = 0

end Sys2Proof.Machine
end

