-- ==== Sys2Proof/Machine/Queues.lean ====
section
/-! DEFINITION. Submission and completion queues: reading an entry, starting it in ring order, completions (R449 to R453). -/

namespace Sys2Proof.Machine

/-! ## Completions (R451, R453) -/

/-- A completion entry but for its PHASE. -/
def cqEntry (cookie : W32) (status opc handle detail beats last sq : Nat) : List Byte :=
  bytesLE 4 cookie.toNat ++ bytesLE 2 status ++ bytesLE 1 opc ++ bytesLE 1 handle ++ bytesLE 4 detail ++ bytesLE 4 beats ++
    bytesLE 6 last ++ bytesLE 2 (sq % 16384) ++ List.replicate 8 0

/-- The submitting queue named in a completion entry. -/
def cqSq (e : List Byte) : Nat := ofBytesLE (slice 22 2 e)

/-- Take an entry out of those started. -/
def dropFlight (opc : Nat) (cookie : W32) : List (Nat × W32) → List (Nat × W32)
  | [] => []
  | x :: xs => if x = (opc, cookie) then xs else x :: dropFlight opc cookie xs

/-- An SQ is stalled while a completion of it waits for room (R451). -/
def Hw.stalled (sq : Nat) (h : Hw) : Bool :=
  (h.queue (h.pg.get (Reg.Q_PAIR sq) 13 0)).waiting.any fun e => cqSq e = sq

/-- Hand a completion to its CQ: posted when the ring has room and none waits before it; otherwise it waits and its SQ
stalls. A CQ that is no longer enabled loses it. -/
def Hw.cqPost (sq : Nat) (e : List Byte) (h : Hw) : Hw :=
  let cq := h.pg.get (Reg.Q_PAIR sq) 13 0
  if !h.pg.qIs cq 1 then h
  else if h.pg.ringFree cq = 0 ∨ !(h.queue cq).waiting.isEmpty then
    (h.modQueue cq fun x => { x with waiting := x.waiting ++ [e] }).onPg (Pages.setb (Reg.Q_STAT sq) 28 true)
  else h.ringPut cq 32 31 e

/-- Complete a started entry; a context in TEARING posts nothing (R453, R460). -/
def Hw.completeFull (sq : Nat) (cookie : W32) (opc status handle detail beats last : Nat) (h : Hw) : Hw :=
  let h1 := h.modQueue sq fun x => { x with inflight := dropFlight opc cookie x.inflight }
  if (h.pg.qOwner sq).any fun c => h.pg.ctxSt c = 1 then
    h1.cqPost sq (cqEntry cookie status opc handle detail beats last sq)
  else h1

/-- Complete with a status alone. -/
def Hw.complete (sq : Nat) (cookie : W32) (opc status : Nat) (h : Hw) : Hw := h.completeFull sq cookie opc status 0 0 0 0

/-- Post a waiting completion of a CQ once the ring has room (R451). -/
def Hw.completionPost (cq : Nat) (h : Hw) : Hw :=
  match (h.queue cq).waiting with
  | [] => h
  | e :: rest =>
    if !h.pg.qIs cq 1 then h.modQueue cq fun x => { x with waiting := [] }
    else if h.pg.ringFree cq = 0 then h
    else
      let h1 := (h.modQueue cq fun x => { x with waiting := rest }).ringPut cq 32 31 e
      if h1.stalled (cqSq e) then h1 else h1.onPg (Pages.setb (Reg.Q_STAT (cqSq e)) 28 false)

/-! ## Taking the next entry of an SQ (R452) -/

/-- A started submission entry: queue, context, its 64 bytes, its cookie. -/
structure SqEntry where
  q : Nat
  ctx : Nat
  bytes : List Byte
  deriving DecidableEq, Repr

/-- A little-endian field of an entry. -/
def SqEntry.f (e : SqEntry) (o n : Nat) : Nat := ofBytesLE (slice o n e.bytes)

/-- The entry's cookie. -/
def SqEntry.cookie (e : SqEntry) : W32 := BitVec.ofNat 32 (e.f 4 4)

/-- Every byte of a range is zero. -/
def SqEntry.zero (e : SqEntry) (o n : Nat) : Bool := (slice o n e.bytes).all (· = 0)

/-- An SQ of a context starts entries: it is enabled, its context is BOUND, and no completion of it waits for room (R451, R459, R460). -/
def Hw.sqRuns (q c : Nat) (h : Hw) : Bool := h.pg.qIs q 0 && decide (h.pg.ctxSt c = 1) && !h.stalled q

/-- Entry i of an SQ of a context, as the ring holds it. -/
def Hw.sqRead (q c i : Nat) (h : Hw) : SqEntry := ⟨q, c, h.dev.mem.hostRead (h.pg.ctxFunc c) (h.pg.slotBus q 64 i) 64⟩

/-- The next entry of an SQ that may start now: the queue starts entries, one is visible, and an entry that must wait for the earlier
ones (LAUNCH, or ORD) finds them complete (R252, R452). -/
def Hw.nextEntry (q : Nat) (h : Hw) : Option SqEntry :=
  let p := h.pg
  match p.qOwner q with
  | none => none
  | some c =>
    if !h.sqRuns q c || p.get (Reg.Q_HEAD q) 15 0 = p.get (Reg.Q_TAIL q) 15 0 then none
    else
      let e := h.sqRead q c (p.get (Reg.Q_HEAD q) 15 0)
      let waits := e.f 0 1 = 2 || (e.f 1 1 / 128 = 1 && e.f 0 1 ≠ 4)
      let x := h.queue q
      if waits && x.inflight.any (fun y => !(x.early.any fun z => (4, z.2) = y)) then none else some e

/-- The reserved bytes of an entry are zero, by opcode (R242, R250, R452, R453: a reserved byte, so the reserved bits of
FLAGS are not looked at, and ORD may stand in any entry). -/
def SqEntry.clean (e : SqEntry) : Bool :=
  let op := e.f 0 1
  if op = 1 then e.zero 2 2 && e.zero 32 32
  else if op = 2 then e.zero 14 2 && e.zero 28 4 && e.zero 40 24
  else if op = 3 then e.zero 3 1 && e.zero 8 56
  else if op = 5 then e.zero 2 2 && e.zero 32 32
  else if op = 6 then e.zero 2 2 && e.zero 24 40
  else e.zero 2 2 && e.zero 8 56

/-- The head passes ABORTs that were started ahead of it. fuel bounds them. -/
def Hw.sqSkip (q : Nat) : Nat → Hw → Hw
  | 0, h => h
  | fuel + 1, h =>
    let hd := h.pg.get (Reg.Q_HEAD q) 15 0
    if (h.queue q).early.any (·.1 = hd) then
      Hw.sqSkip q fuel ((h.modQueue q fun x => { x with early := x.early.filter (·.1 ≠ hd) }).onPg fun p => p.put (Reg.Q_HEAD q) 15 0 ((hd + 1) % p.ringLen q))
    else h

/-- Entry e of an SQ, read at ring index i, is in flight; the head moves when it is the head's (R452). -/
def Hw.sqStart (i : Nat) (e : SqEntry) (h : Hw) : Hw :=
  let h1 := (h.onPg (Pages.hostRx 64)).modQueue e.q fun x =>
    { x with inflight := x.inflight ++ [(e.f 0 1, e.cookie)], early := x.early ++ [(i, e.cookie)] }
  h1.sqSkip e.q (h1.queue e.q).early.length

/-- Start the entry of an SQ at ring index i: its read reaches the host or faults the queue (R467); then f does the work, or the entry, of an
unknown opcode or with a reserved byte set, completes BAD_ENTRY (R453). -/
def Hw.startAt (i : Nat) (e : SqEntry) (f : SqEntry → Hw → Hw) (h : Hw) : Hw :=
  let r := h.ringReach e.q (h.pg.slotBus e.q 64 i)
  if !r.1 then r.2
  else if !decide (1 ≤ e.f 0 1 ∧ e.f 0 1 ≤ 7) || !e.clean then (r.2.sqStart i e).complete e.q e.cookie (e.f 0 1) 0x0301
  else f e (r.2.sqStart i e)

/-- Start the next entry of an SQ for a command of one opcode; an entry of another known opcode is left (R452). -/
def Hw.startEntry (q opc : Nat) (f : SqEntry → Hw → Hw) (h : Hw) : Hw :=
  match h.nextEntry q with
  | none => h
  | some e =>
    if decide (1 ≤ e.f 0 1 ∧ e.f 0 1 ≤ 7) && e.f 0 1 ≠ opc then h
    else h.startAt (h.pg.get (Reg.Q_HEAD q) 15 0) e f

end Sys2Proof.Machine
end

