-- ==== Sys2Proof/Machine/Spares.lean ====
section
/-! DEFINITION. Spares and the digest ring of shadow mode: the switch-in, RETEST, and the entries written at boundaries
(R544, R546, R552 to R555). -/

namespace Sys2Proof.Machine

/-- STATE of a partition in its BEAT_PART_STAT: 0 IDLE, 1 RUN, 2 SPEC, 3 SPEC_WAIT, 4 HOLD (R68). -/
def Pages.partSt (p : Pages) (part : Nat) : Nat := p.get (Reg.BEAT_PART_STAT part) 31 29

/-- The partition of a Bay is IDLE or in HOLD, the condition of a switch-in (R544). -/
def Pages.mayswitch (p : Pages) (b : Nat) : Bool := p.partSt (p.bayPart b) = 0 || p.partSt (p.bayPart b) = 4

/-- The lowest logical slot of a Bay whose physical core is lost: fenced, or since then reset or retested (R544, R546). -/
def Pages.lostSlot (p : Pages) (b : Nat) : Option Nat := (List.range 8).find? fun i => p.coreSt (p.physOf (8 * b + i)) ≠ 0

/-- The spare in state SPARE of a Bay, a physical slot; a repaired core never returns to its old logical slot (R546). -/
def Pages.spareOf (p : Pages) (b : Nat) : Option Nat :=
  (List.range 9).find? fun k => p.coreSt (9 * b + k) = 1 && (p.lostSlot b).all fun i => p.physOf (8 * b + i) ≠ 9 * b + k

/-- Switch the spare of Bay b into its lowest lost logical slot: the map, the state, and the start of the zeroing
(R544). -/
def Hw.switchIn (b : Nat) (h : Hw) : Hw :=
  match h.pg.lostSlot b, h.pg.spareOf b with
  | some i, some k =>
    if h.pg.bit (Reg.BAY_STAT b) 31 then h
    else (h.onPg fun p => ((p.put (Reg.BAY_L2P b) (4 * i + 3) (4 * i) k).setCoreSt (9 * b + k) 0).sat (Reg.BAY_SWITCH_CNT b) 1).modBay b
      fun x => { x with zeroing := some k }
  | _, _ => h

/-- The zeroing of a switched-in spare ends: its scratch is zero and CAP_BAYS [23:16] falls (R544). -/
def Hw.spareZeroDone (b : Nat) (h : Hw) : Hw :=
  match (h.bay b).zeroing with
  | none => h
  | some k => (((h.modCore (9 * b + k) fun c => { c with scr := [], scrFlips := [] }).modBay b fun x => { x with zeroing := none }).onPg
      (Pages.capBays 0 1))

/-- A partition has a spare whose scratch is not zeroed, so no block may start on it (R544). -/
def Hw.partZeroing (part : Nat) (h : Hw) : Bool := (h.pg.partBays part).any fun b => (h.bay b).zeroing.isSome

/-- At a boundary each Bay with AUTO switches its spare in (R544). -/
def Hw.autoSwitch (h : Hw) : Hw :=
  (List.range 12).foldl (fun h b => if h.pg.bit (Reg.BAY_CTRL b) 0 && h.pg.mayswitch b && (h.bay b).zeroing.isNone then h.switchIn b else h) h

/-- BAY_CMD (R542, R544, R546): FENCE, SWITCH, RETEST of a physical slot. Answers false when the write is refused. -/
def Hw.bayCmd (b : Nat) (w : W32) (h : Hw) : Bool × Hw :=
  let cmd := fld w 31 28
  let k := fld w 3 0
  if 9 ≤ k then (false, h)
  else if cmd = 1 then (true, h.fence (9 * b + k) 3 0 0)
  else if cmd = 2 then
    if h.pg.mayswitch b && (h.pg.lostSlot b).isSome && (h.pg.spareOf b).isSome && !h.pg.bit (Reg.BAY_STAT b) 31 &&
      (h.bay b).zeroing.isNone then (true, h.switchIn b) else (false, h)
  else if cmd = 3 then
    if h.pg.coreSt (9 * b + k) = 3 && (h.bay b).retest.isNone then
      (true, (h.modBay b fun x => { x with retest := some k }).onPg (Pages.setb (Reg.BAY_STAT b) 30 true))
    else (false, h)
  else (false, h)

/-- A RETEST ends: a pass makes the core SPARE with its pages enabled; a failure leaves it OFFLINE with SPARE_FAIL
(R546). The pages leave the fence as the core does. CAP_BAYS does not rise: R23 does not name the event. -/
def Hw.retestDone (b : Nat) (pass : Bool) (h : Hw) : Hw :=
  match (h.bay b).retest with
  | none => h
  | some k =>
    let f := h.pg.detect (Pg.bay b) 3 k (h.pg.bayCx b) (!pass)
    let h1 := (({ h with dev := { h.dev with pg := f.2 } } : Hw).modBay b fun x => { x with retest := none }).onPg (Pages.setb (Reg.BAY_STAT b) 30 false)
    if f.1 then h1.onPg fun p => (corePages (9 * b + k)).foldl (fun p pg => p.setb (Reg.PG_CTRL pg) 0 false) p
    else
      (h1.modCore (9 * b + k) fun _ => Core.reset).onPg fun p =>
        let p1 := (corePages (9 * b + k)).foldl (fun p pg => ((p.setb (Reg.PG_CTRL pg) 0 true).setb (Reg.PG_CTRL pg) 1 false).setb (Reg.PG_STAT pg) 30 false) p
        p1.setCoreSt (9 * b + k) 1

/-! ## Shadow mode at a boundary (R555) -/

/-- At boundary b + 1 the entry of beat b goes into the SHDW_DIG ring, which holds 15, or is dropped and counted. -/
def Hw.shdwEntry (b : Nat) (h : Hw) : Hw :=
  if h.pg.get Reg.SHDW_CTRL 31 30 = 0 ∨ h.pg.get Reg.SHDW_CTRL 31 30 = 3 then h
  else
    let d := tget (fun _ => 0) h.shdw.dig (b % 8)
    let md := tget (fun _ => false) h.shdw.mdrop (b % 8)
    let hd := h.pg.get Reg.SHDW_HEAD 3 0
    let p := if (hd + 1) % 16 = h.pg.get Reg.SHDW_TAIL 3 0 then h.pg.sat Reg.SHDW_DIG_DROP 1
      else (h.pg.wrList (Reg.SHDW_DIG (4 * hd))
        [BitVec.ofNat 32 b, BitVec.ofNat 32 (md.toNat * 2 ^ 31 + h.pg.get Reg.SHDW_STAT 7 0 * 65536 + b / 2 ^ 32 % 65536), lo32 d, hi32 d]).put
          Reg.SHDW_HEAD 3 0 ((hd + 1) % 16)
    { h with dev := { h.dev with pg := p }, shdw := { dig := tset (fun _ => 0) h.shdw.dig (b % 8) 0, mdrop := tset (fun _ => false) h.shdw.mdrop (b % 8) false } }

/-- A write of SHDW_CTRL: refused while a launch is accepted or running, or while the named port is not ACTIVE (R552). -/
def Hw.shdwCtrl (w : W32) (h : Hw) : Bool × Hw :=
  let q := fld w 19 16
  if h.anyLaunch || !((q = 8 ∨ q = 9) ∧ h.pg.linkActive q) then (false, h)
  else (true, h.onPg fun p => (p.wr Reg.SHDW_CTRL (w &&& 0xC00F00FF#32)).setb Reg.SHDW_STAT 31 (fld w 31 30 = 1 || fld w 31 30 = 2))

end Sys2Proof.Machine
end

