-- ==== Sys2Proof/Machine/Beat.lean ====
section
/-! DEFINITION. Beats of a launch: its blocks, votes, rounds and results, holds, the abort and the teardown at a boundary
(R36 to R56, R238, R240, R253 to R255). -/

namespace Sys2Proof.Machine

/-! ## Modules, streams, running cores -/

/-- The stream that a logical core runs: the one whose SLOT_MASK selects its slot (R228). -/
def Module.streamOf (m : Module) (l : Nat) : Option StreamDef := m.streams.find? fun s => s.mask.testBit (l % 8)

/-- The running cores of a context: logical cores of its partition whose slot a stream selects (R228). -/
def Hw.runCores (c : Nat) (h : Hw) : List Nat :=
  match h.launchMod c with
  | none => []
  | some m => (h.pg.partCores (h.pg.ctxPart c)).filter fun l => (m.streamOf l).isSome

/-- Block id of the stream of a logical core. -/
def Module.block (m : Module) (l id : Nat) : Option BlockDef := (m.streamOf l).bind fun s => s.blocks[id]?

/-! ## Beat slots and parked block state (R446, R220) -/

/-- A core's run state as it is parked: without its scratch and FIFO. -/
def Core.parked (c : Core) : Core :=
  { c with scr := [], scrFlips := [], fifo := [], fifoHeld := [], fifoResv := [], fifoTail := 0, prevFill := 0, failed := false }

/-- A parked state takes the core's scratch, fault and messages in arrival. -/
def Core.unpark (back c : Core) : Core :=
  { back with scr := c.scr, scrFlips := c.scrFlips, failed := c.failed, fifoResv := c.fifoResv, fifoTail := c.fifoTail, prevFill := 0 }

/-- Logical core l passes to context c: the FIFO of another context is flushed, its block state parked, and that of c
taken back (R220, R446). -/
def Hw.takeCore (c l : Nat) (h : Hw) : Hw :=
  let n := h.pg.physOf l
  let old := (h.core n).owner
  if old = some c then h
  else
    let h1 := match old with
      | some o =>
        let h0 := h.onCv (h.ciOf l o) (CV.fifoFlush (h.ciOf l o))
        { h0 with parks := tset (fun _ => Core.reset) h0.parks (256 * n + o) (h0.core n).parked }
      | none => h
    let back := tget (fun _ => Core.reset) h1.parks (256 * n + c)
    let h2 := h1.modCore n fun k => { back.unpark k with owner := some c }
    { h2 with parks := tset (fun _ => Core.reset) h2.parks (256 * n + c) Core.reset }

/-- Run a core-level function on the block state of context c on logical core l, held or parked. -/
def Hw.onOwned (c l : Nat) (f : CInfo → CV → CV) (h : Hw) : Hw :=
  let ci := h.ciOf l c
  let core := h.core ci.n
  if core.owner = some c then h.onCv ci (f ci)
  else
    let pk := tget (fun _ => Core.reset) h.parks (256 * ci.n + c)
    let r := f ci { pg := h.pg, core := pk.unpark core }
    let h1 : Hw := ({ h with
      dev := { h.dev with pg := r.pg }
      parks := tset (fun _ => Core.reset) h.parks (256 * ci.n + c) r.core.parked } : Hw).modCore ci.n
        fun k => { k with scr := r.core.scr, scrFlips := r.core.scrFlips }
    if r.core.exc then h1.excHalt ci else h1

/-! ## What the registers show (R68, R470) -/

/-- The speculative block waits: every core of it has ended or waits for the commit (R68, SPEC_WAIT). -/
def Hw.specWaits (c : Nat) (b : LBeat) (h : Hw) : Bool :=
  b.blocks.all fun x =>
    let k := h.ctxCore (h.pg.physOf x.1) c
    (k.blk.any fun y => y.done) || (match k.wait with | some (.commit _ _) => true | _ => false)

/-- STATE of a context's launch for BEAT_PART_STAT. -/
def Hw.launchSt (c : Nat) (h : Hw) : Nat :=
  match (h.ctx c).launch with
  | none => 0
  | some l =>
    if l.hold ≠ 0 then 4
    else match l.cur with
      | none => 0
      | some b => if b.spec then (if h.specWaits c b then 3 else 2) else 1

/-- BEAT_PART_STAT and BEAT_HOLD as the partition's slot context has them. -/
def Hw.showPart (h : Hw) (part : Nat) : Hw :=
  let c := h.pg.slotCtx part
  let st := (c.map fun c => h.launchSt c).getD 0
  let l := c.bind fun c => (h.ctx c).launch
  h.onPg fun p =>
    let k := Reg.BEAT_PART_STAT part
    let p1 := (((p.put k 31 29 st).put k 28 27 ((l.map (·.mode)).getD 0)).setb k 26 ((l.map (·.slip)).getD false)).put k 25 24 ((l.map (·.hold)).getD 0)
    (p1.put k 23 16 (c.getD 0)).setb Reg.BEAT_HOLD part (st = 4)

/-- Every partition's status. -/
def Hw.showParts (h : Hw) : Hw := (List.range 12).foldl Hw.showPart h

/-- CTX_LAUNCH of a context (R470). -/
def Hw.showCtx (c : Nat) (h : Hw) : Hw :=
  h.onPg (Pages.wr (Reg.CTX_LAUNCH c) (match (h.ctx c).launch with
    | none => 0
    | some l => BitVec.ofNat 32 (2 ^ 31 + l.running.toNat * 2 ^ 30 + (if l.hold ≠ 0 then 2 ^ 29 else 0) + l.abort.isSome.toNat * 2 ^ 28 + l.handle % 16)))

/-! ## Clearing, discarding and ending -/

/-- Everything of a context's launch on a core is gone. -/
def Core.dropLaunch (c : Core) : Core := { c.clearUnits with spec := none, blk := none, outs := [], exc := false, seed := (0, false), seeded := false }

/-- Discard the speculative blocks of a context, with their declarations: those of the block before had all arrived where the
device votes for it again (R40, R53). -/
def Hw.discardSpec (c : Nat) (h : Hw) : Hw :=
  match (h.ctx c).launch.bind (·.cur) with
  | some b =>
    if !b.spec then h
    else
      let h1 := b.blocks.foldl (fun h x => h.onOwned c x.1 fun _ v => v.discard) h
      h1.modCtx c fun x => { x with
        rounds := if b.voted then x.rounds.filter fun r => r.ended || r.k ≠ b.k else x.rounds
        decls := []
        launch := x.launch.map fun l => { l with cur := l.prev, prev := none, ended := false } }
  | none => h

/-- What stops with a launch under FAULT, an exception, an abort or a teardown: collectives and SUU requests (R334,
R425). -/
def Hw.stopUnits (c : Nat) (h : Hw) : Hw := (h.collAbandon c).suuDrop c

/-- A launch ends: its completion with a status, those of its aborts with another, none for a teardown (R54, R255). -/
def Hw.endLaunch (c : Nat) (st : Option (Nat × Nat)) (h : Hw) : Hw :=
  match (h.ctx c).launch with
  | none => h
  | some l =>
    let cores := h.runCores c
    let h1 := cores.foldl (fun h x => (h.modOwned (h.pg.physOf x) c Core.dropLaunch)) h
    let h2 := h1.modCtx c fun x => { x with launch := none, decls := [], unacked := [] }
    let h3 := match st with
      | none => h2
      | some s =>
        let ha := h2.completeFull l.sq l.cookie 2 s.1 0 0 l.beats l.last
        (l.abort.toList ++ l.abortPend).foldl (fun (h : Hw) (a : Nat × W32) => h.complete a.1 a.2 4 s.2) ha
    h3.showCtx c

/-- The context enters HOLD with a reason, unless an abort is latched, which ends the launch: both entries read ABORTED (R45,
R46, R49, R54, R59, R455). A round that is only LATE may still be CONFIRMED, so there the abort of an ended launch waits. -/
def Hw.enterHold (c reason cause : Nat) (h : Hw) : Hw :=
  match (h.ctx c).launch with
  | none => h
  | some l =>
    if l.abort.isSome ∧ !(l.ended ∧ reason = 3) then h.endLaunch c (some (1, 1))
    else
      let h1 := h.modLaunch c fun x => { x with hold := reason, resumeAt := none, halted := x.halted || reason ≠ 3 }
      ((h1.event 2 c (bytesLE 1 reason ++ bytesLE 1 0 ++ bytesLE 2 cause)).exactLost c).showCtx c

/-! ## Results (R42, R43, R49, R53) -/

/-- Update a round. -/
def Hw.modRound (c beat : Nat) (f : Round → Round) (h : Hw) : Hw :=
  h.modCtx c fun x => { x with rounds := x.rounds.map fun r => if r.beat = beat then f r else r }

/-- Commit the speculative block of every core of a context, and let it go on (R53). -/
def Hw.commitSpec (c : Nat) (b : LBeat) (h : Hw) : Hw :=
  let h1 := b.blocks.foldl (fun h x => h.onOwned c x.1 fun ci v => v.commit ci) h
  let h2 := h1.modLaunch c fun l => { l with cur := l.cur.map fun y => { y with spec := false }, prev := none }
  b.blocks.foldl (fun h x =>
    let ci := h.ciOf x.1 c
    if (h.core ci.n).owner = some c then h.pumpCore ci else h) h2

/-- A CONFIRMED result for block k. -/
def Hw.confirmed (c : Nat) (r : Round) (h : Hw) : Hw :=
  let h1 := h.modLaunch c fun l => { l with conf := max l.conf (r.k + 1), slips := 0, hist := l.hist.filter fun x => r.k < x.1 }
  let h2 := match (h1.ctx c).launch.bind (·.cur) with
    | some b => if b.spec ∧ b.k = r.k + 1 then h1.commitSpec c b else h1
    | none => h1
  if r.final then
    match (h2.ctx c).launch with
    | none => h2
    | some l =>
      if l.hold ≠ 0 ∧ l.abort.isNone then h2.modLaunch c fun l => { l with finalConf := true }
      else h2.endLaunch c (some (0, 2))
  else h2

/-- A SLIP result for block k (R40). -/
def Hw.slipped (c : Nat) (r : Round) (h : Hw) : Hw :=
  let h1 := ((h.onPg (Pages.sat Reg.BEAT_SLIP_CNT 1)).exactLost c).discardSpec c
  h1.modLaunch c fun l => { l with
    slips := l.slips + 1
    ended := false
    cur := l.cur.map fun b => if b.k = r.k then { b with voted := false } else b }

/-- A FAILED result (R49, R54). -/
def Hw.failedRound (c cause : Nat) (h : Hw) : Hw :=
  let h1 := (h.onPg fun p => (p.sat Reg.BEAT_FAIL_CNT 1).raise Pg.beat 4 0 (p.ctxId c)).discardSpec c
  h1.enterHold c 1 cause

/-- A result reaches this device for the round of a beat: code 0 CONFIRMED, 1 SLIP, 2 FAILED; the ORed cause; the latency from
the device's own boundary (R42, R43, R53). A result after a teardown is latched commits nothing: the launch is gone. -/
def Hw.result (c beat code cause lat : Nat) (h : Hw) : Hw :=
  match (h.ctx c).rounds.find? fun r => r.beat = beat && !r.ended with
  | none => h
  | some r =>
    let h0 := h.modRound c beat fun r => { r with ended := true }
    let h1 := h0.onPg fun p => (p.put Reg.BEAT_CONF_LAST 15 0 (min lat 65535)).maxFld Reg.BEAT_CONF_MAX 15 0 (min lat 65535)
    let bad := h1.holds Pg.beat 4 0 (decide (2 ≤ code))
    let h1 := bad.2
    if (h1.ctx c).launch.isNone then h1
    else if code = 0 ∧ !bad.1 then (h1.confirmed c r).showParts
    else
      let h2 := h1.onPg (Pages.put (Reg.BEAT_PART_STAT (h1.pg.ctxPart c)) 15 0 cause)
      (if code = 1 ∧ !bad.1 then h2.slipped c r else h2.failedRound c cause).showParts

/-! ## Reduction (R42, R403) -/

/-- Merge two votes: the OR of the causes, and the lowest node that carries one. -/
def voteMerge (a b : Nat × Nat) : Nat × Nat :=
  (Nat.lor a.1 b.1, if a.1 = 0 then b.2 else if b.1 = 0 then a.2 else min a.2 b.2)

/-- Where a round's reduction stands at this member. -/
inductive RedGo where
  | wait
  | send (ax : Nat) (v : Nat × Nat)
  | done (v : Nat × Nat)
  deriving DecidableEq, Repr

/-- Reduce along the axes in the order X, Y, Z, W, toward the lowest coordinate of the instance (R42). -/
def Pages.reduce (p : Pages) (g : Nat) (got : List (Nat × Nat × Nat)) (v : Nat × Nat) : List Nat → RedGo
  | [] => .done v
  | a :: as =>
    let c := coordOf p.node a
    let low := decide (c ≤ p.instLo g a)
    if g = 255 ∨ p.instHi g a ≤ c then (if g = 255 ∨ low then p.reduce g got v as else .send a v)
    else match got.find? fun x => x.1 = a with
      | none => .wait
      | some x => if low then p.reduce g got (voteMerge v x.2) as else .send a (voteMerge v x.2)

/-- A VOTE or RESULT packet's payload. -/
def votePayload (cause node g code : Nat) : List Byte :=
  bytesLE 2 cause ++ bytesLE 2 node ++ bytesLE 1 g ++ bytesLE 1 code ++ List.replicate 10 0

/-- Send a VOTE or RESULT packet of a context's round. -/
def Hw.sendVote (c dst opc beat : Nat) (bs : List Byte) (h : Hw) : Hw :=
  h.inject (h.pg.mkPacket dst opc 4 c (h.pg.ctxGen c) beat 0 0 true true (crc64 bs) bs 0)

/-- The result of a cause word (R42). -/
def resultCode (cause : Nat) : Nat := if cause = 0 then 0 else if cause = 2 then 1 else 2

/-- Send a result back along the axes on which votes came, in reverse order (R42). -/
def Hw.spread (c beat : Nat) (got : List (Nat × Nat × Nat)) (bs : List Byte) (h : Hw) : Hw :=
  [3, 2, 1, 0].foldl (fun h a =>
    if got.any fun x => x.1 = a then h.sendVote c (withCoord h.pg.node a (coordOf h.pg.node a + 1)) 0x19 beat bs else h) h

/-- Move a round on, lat ns after this device's boundary: send the merged vote toward the origin, or as the origin form the result, report
it to the Dareder (R47), send it back and deliver it here. -/
def Hw.roundGo (c g beat lat : Nat) (h : Hw) : Hw :=
  match (h.ctx c).rounds.find? fun r => r.beat = beat with
  | none => h
  | some r =>
    match r.vote with
    | none => h
    | some v =>
      match h.pg.reduce g r.got v [0, 1, 2, 3] with
      | .wait => h
      | .send a w =>
        if a ∈ r.sent then h
        else (h.modRound c beat fun r => { r with sent := a :: r.sent }).sendVote c
          (withCoord h.pg.node a (coordOf h.pg.node a - 1)) 0x18 beat (votePayload w.1 w.2 g 0)
      | .done w =>
        if 4 ∈ r.sent then h
        else
          let code := resultCode w.1
          let bs := votePayload w.1 w.2 g code
          let h1 := h.modRound c beat fun r => { r with sent := 4 :: r.sent }
          let h2 := if g = 255 then h1 else (h1.sendVote c 0xFFFF 0x19 beat bs).spread c beat r.got bs
          h2.result c beat code w.1 lat

/-- The axis on which a packet's sender is this member's neighbour. -/
def Pages.fromAxis (p : Pages) (src : Nat) : Option Nat := [0, 1, 2, 3].find? fun a => coordOf src a ≠ coordOf p.node a

/-- VOTE: a member's merged vote arrives (R42). A vote that comes again, as under REVOTE, is answered again (R46). -/
def Hw.voteTake (lat : Nat) (k : Packet) (h : Hw) : Hw :=
  match h.pg.fromAxis k.src with
  | none => h
  | some ax =>
    let g := ofBytesLE (slice 4 1 k.payload)
    let v := (ax, ofBytesLE (slice 0 2 k.payload), ofBytesLE (slice 2 2 k.payload))
    let h1 := if (h.ctx k.ctx).rounds.any fun r => r.beat = k.addr then h
      else h.modCtx k.ctx fun y => { y with rounds := y.rounds ++ [⟨k.addr, 0, none, [], [], false, false, false⟩] }
    let h2 := h1.modRound k.ctx k.addr fun r =>
      { r with sent := if r.got.any fun y => y.1 = ax then [] else r.sent, got := v :: r.got.filter fun y => y.1 ≠ ax }
    h2.roundGo k.ctx g k.addr lat

/-- The same as a packet command. -/
def Hw.voteRx (src : PktSrc) (lat : Nat) (h : Hw) : Hw :=
  h.onPacket (fun k => k.opc = 0x18) src fun k h => if h.pg.works Pg.beat then h.voteTake lat k else h

/-- RESULT: passed on along the paths of reduction, and delivered to this member's cores (R42). -/
def Hw.resultTake (lat : Nat) (k : Packet) (h : Hw) : Hw :=
  let got := (((h.ctx k.ctx).rounds.find? fun r => r.beat = k.addr).map (·.got)).getD []
  (h.spread k.ctx k.addr got k.payload).result k.ctx k.addr (ofBytesLE (slice 5 1 k.payload)) (ofBytesLE (slice 0 2 k.payload)) lat

/-- The same as a packet command; a Dareder takes the report of R47. -/
def Hw.resultRx (src : PktSrc) (lat : Nat) (h : Hw) : Hw :=
  if h.pg.isDareder then (h.arrive (fun k => k.opc = 0x19) src).2 else
    h.onPacket (fun k => k.opc = 0x19) src fun k h => if h.pg.works Pg.beat then h.resultTake lat k else h

/-! ## Votes (R39, R41, R54, R55) -/

/-- Every core of a launch's beat has retired its block; a core whose next block was discarded had (R260). -/
def Hw.beatRetired (c : Nat) (b : LBeat) (h : Hw) : Bool :=
  b.blocks.all fun x =>
    let k := h.ctxCore (h.pg.physOf x.1) c
    k.retired || (k.blk.all fun y => y.k ≠ b.k)

/-- The blocks that the cores of a retired beat chose to run next (R238): a core that has moved on, or whose next block was discarded,
chose what the launch has kept. -/
def Hw.choices (c : Nat) (b : LBeat) (h : Hw) : List (Nat × Nat) :=
  let kept := (((h.ctx c).launch.bind fun l => l.hist.find? fun x => x.1 = b.k + 1).map (·.2)).getD []
  b.blocks.filterMap fun x =>
    match (h.ctxCore (h.pg.physOf x.1) c).blk.filter fun y => y.k = b.k with
    | some y => y.next.map fun id => (x.1, id)
    | none => kept.find? fun e => e.1 = x.1

/-- A core of the partition is fenced (R41, R543, R545). -/
def Hw.partFenced (part : Nat) (h : Hw) : Bool := (h.pg.partCores part).any fun l => !h.reach l

/-- The overrun of a block that has not retired: under SLIP, unless SLIP_MAX consecutive slips are passed, it runs on; else
the context halts (R39, R40). Answers the cause. -/
def Hw.overrun (c : Nat) (b : LBeat) (l : Launch) (h : Hw) : Nat × Hw :=
  let h1 := h.onPg fun p => (p.sat Reg.BEAT_OVR_CNT 1).raise Pg.beat 3 0 (p.ctxId c)
  let h2 := b.blocks.foldl (fun h x => h.modOwned (h.pg.physOf x.1) c fun k =>
    if k.retired then k else { k with blk := k.blk.map fun y => { y with overrun := true } }) h1
  if l.slip ∧ l.slips ≤ max 1 (h.pg.get Reg.BEAT_OVR_CTRL 11 8) then (2, h2)
  else (1, (h2.modLaunch c fun l => { l with halted := true }).stopUnits c)

/-- Cast the vote for beat m with a cause word; out of service, none (R41, R44, R535). -/
def Hw.castVote (c m k cause : Nat) (final : Bool) (h : Hw) : Hw :=
  if h.pg.get Reg.DEV_STATE 3 0 = 4 then h else
  let g := ((h.ctx c).launch.map (·.group)).getD 255
  let v := (cause, if cause = 0 then 0 else h.pg.node)
  let h1 := h.modCtx c fun x => { x with rounds :=
    if (x.rounds.any fun r => r.beat = m) then (x.rounds.map fun r => if r.beat = m then { r with vote := some v, k := k, final := final } else r)
    else x.rounds ++ [⟨m, k, some v, [], [], final, false, false⟩] }
  let h2 := if h.pg.shadowRole c = 0 then h1 else h1.onPg (Pages.put Reg.SHDW_STAT 15 0 cause)
  h2.roundGo c g m 0

/-- The causes that the beat's transfers give: MISSING and CRC_BAD (R41, R273). -/
def Hw.declCause (c : Nat) (h : Hw) : Nat :=
  let x := h.ctx c
  (if (x.decls.any fun d => !d.arrived) || !x.unacked.isEmpty then 4 else 0) + (if x.decls.any fun d => d.bad then 8 else 0)

/-- The vote of a running context at boundary n, that ends beat n - 1. -/
def Hw.voteStep (c n : Nat) (td ab : Bool) (l : Launch) (h : Hw) : Hw :=
  match l.cur with
  | none => h
  | some b =>
    let ret := h.beatRetired c b
    let ends := !b.voted && (ret || !b.spec || l.halted)
    let late := if ends ∧ !l.halted then h.holds Pg.beat 3 0 (!ret) else (false, h)
    let ret := ret && !late.1
    let ov := if late.1 then late.2.overrun c b l else (0, late.2)
    if !(ends || l.excVote || td || ab) then ov.2
    else
      let next := h.choices c b
      let final := ends && ret && !l.halted && next.isEmpty
      let cause := ov.1 + (if ends then h.declCause c else 0) +
        (if h.partFenced (h.pg.ctxPart c) ∨ l.fenced ∨ b.fep ≠ h.pg.get Reg.RTR_FEP 7 0 then 32 else 0) +
        (if td then 16 else 0) + (if ab ∧ !final then 64 else 0) + (if l.excVote then 128 else 0)
      let h1 := ov.2.modLaunch c fun x => { x with
        cur := x.cur.map fun y => { y with voted := y.voted || ends }
        fenced := false
        excVote := false
        ended := x.ended || final
        -- what the block chose is kept, so that it can run after a discard or a HOLD
        hist := if ends && ret && !final then (b.k + 1, next) :: x.hist.filter fun e => e.1 ≠ b.k + 1 else x.hist
        last := n }
      let h2 := if l.excVote then h1.stopUnits c else h1
      h2.castVote c (n - 1) b.k cause final

/-! ## Starting blocks (R35, R50, R173, R211, R230, R238, R253) -/

/-- The declarations of a block for the declaring core's index: CONST, PREG (0 voids it) or SENDER (R230). -/
def BlockDef.open (d : BlockDef) (ix : Nat) (preg : Tbl W64) : List Decl :=
  d.decls.map fun x =>
    let v := (tget (fun _ => (0 : W64)) preg x.preg).toNat % 2 ^ 32
    { tag := ix * 65536 + x.tag
      len := if x.lsrc = 0 then some x.len else if x.lsrc = 1 then some v else none
      stage := x.stage
      got := 0
      next := 0
      sot := false
      crc := BitVec.allOnes 64
      done := false
      bad := false
      void := decide (x.lsrc = 1) && decide (v = 0) }

/-- A core starts a block: its units are cleared, and a speculative block gets its copies (R50, R137, R173, R211). -/
def Core.startBlock (k id : Nat) (spec : Bool) (c : Core) : Core :=
  { c.clearUnits with
    blk := some ⟨id, k, 0, false, none, false⟩
    outs := []
    exc := false
    spec := if spec then some { ctr := c.ctr, cmp := c.cmp, seed := none, setM := 0, clrM := 0, setT := 0, clrT := 0, perf := [], deferred := [],
                                pages := [], bytes := [], tainted := false } else none }

/-- Start the blocks of beat n on a context's cores. -/
def Hw.startBlocks (c n k : Nat) (blocks : List (Nat × Nat)) (spec : Bool) (h : Hw) : Hw :=
  let m := h.launchMod c
  let preg := (h.ctx c).preg
  let ds := blocks.flatMap fun x => match m.bind fun m => m.block x.1 x.2 with
    | some d => d.open (h.pg.partIdx x.1) preg
    | none => []
  let h1 := blocks.foldl (fun h x =>
    let ph := h.pg.physOf x.1
    h.modOwned ph c (Core.startBlock k x.2 spec)) h
  let h2 := h1.modCtx c fun x => { x with decls := ds }
  let h3 := h2.modLaunch c fun l => { l with
    running := true
    beats := l.beats + 1
    prev := if spec then l.cur else none
    cur := some ⟨k, n, spec, blocks, h.pg.get Reg.RTR_FEP 7 0, false⟩
    hist := (k, blocks) :: l.hist.filter fun x => x.1 < k }
  (h3.onPg (Pages.count (Reg.CTX_BEATS_LO c) 1)).showCtx c

/-- The first block of a launch: counters, comparators, seed and event counters are zero (R192, R240, R253, R278). -/
def Hw.firstBlock (c n : Nat) (l : Launch) (h : Hw) : Hw :=
  let cores := h.runCores c
  let h1 := cores.foldl (fun h x => h.modOwned (h.pg.physOf x) c fun k => { k with ctr := [], cmp := [], seed := (0, false), seeded := false }) h
  let h2 := h1.onPg fun p => (List.range 16).foldl (fun p i => p.wr64 (Reg.CTX_E c i) 0) p
  h2.startBlocks c n 0 (cores.map fun x => (x, l.entry)) false

/-- The context may start a block at this boundary: it holds its slot and no spare of the partition is being zeroed (R446,
R544). -/
def Hw.mayStart (c : Nat) (h : Hw) : Bool := h.pg.slotCtx (h.pg.ctxPart c) = some c && !h.partZeroing (h.pg.ctxPart c)

/-- Start the next block when the rules let it (R50, R238): the current one has voted and retired and is not speculative; at
most one round is open. -/
def Hw.nextBlock (c n : Nat) (h : Hw) : Hw :=
  match (h.ctx c).launch with
  | none => h
  | some l =>
    if l.hold ≠ 0 || l.halted || l.ended || l.abort.isSome || !h.mayStart c then h
    else match l.cur with
      | none => h
      | some b =>
        if b.spec || !b.voted || !h.beatRetired c b then
          -- a block that runs on under SLIP still runs a slot beat
          if !b.spec && !h.beatRetired c b then (h.modLaunch c fun l => { l with beats := l.beats + 1 }).onPg (Pages.count (Reg.CTX_BEATS_LO c) 1) else h
        else
          let blocks := h.choices c b
          let openNow := (h.ctx c).rounds.any fun (r : Round) => r.k = b.k && r.vote.isSome && !r.ended && !r.withdrawn
          if blocks.isEmpty then h else h.startBlocks c n (b.k + 1) blocks openNow

/-! ## The boundary of one context -/

/-- Latch a visible ABORT (R54, R454). -/
def Hw.latchAbort (c : Nat) (h : Hw) : Hw :=
  (h.modLaunch c fun l => match l.abort, l.abortPend with
    | none, a :: rest => { l with abort := some a, abortPend := rest }
    | _, _ => l).showCtx c

/-- Leave HOLD at the beat of a RESUME: the lowest block that is not committed starts, non-speculatively; a launch whose final
round was CONFIRMED in HOLD ends (R46, R59, R255). A RESUME whose beat is no slot beat of the context waits for the next.
DESIGN CHOICE (log entry 87): the context's retained votes and rounds end with the HOLD. -/
def Hw.resume (c n : Nat) (l : Launch) (h : Hw) : Hw :=
  if l.finalConf then (h.exactLost c).endLaunch c (some (0, 2))
  else if !h.mayStart c then h
  else
    let blocks := ((l.hist.find? fun x => x.1 = l.conf).map (·.2)).getD ((l.cur.map fun b => h.choices c b).getD [])
    let h1 := (h.modCtx c fun x => { x with rounds := [] }).modLaunch c fun l => { l with
      hold := 0, resumeAt := none, halted := false, exc := false, excVote := false, slips := 0, ended := false, cur := none, prev := none }
    let h2 := (h1.exactLost c).showCtx c
    if blocks.isEmpty then h2 else h2.startBlocks c n l.conf blocks false

/-- The step of a context's launch at boundary n (R35, R39 to R56). -/
def Hw.launchStep (c n : Nat) (h : Hw) : Hw :=
  match (h.ctx c).launch with
  | none => h
  | some l0 =>
    let td := decide ((h.ctx c).tear = 1)
    let ab := l0.abort.isNone && !l0.abortPend.isEmpty
    let h1 := h.latchAbort c
    let l := ((h1.ctx c).launch).getD l0
    if !l.running then
      if td then h1.endLaunch c none
      else if l.abort.isSome then h1.endLaunch c (some (1, 1))
      else if l.start ≤ n ∧ h1.mayStart c then h1.firstBlock c n l
      else h1
    else if l.hold ≠ 0 then
      if td then ((h1.discardSpec c).stopUnits c).endLaunch c none
      else if l.abort.isSome then
        if l.finalConf then h1.endLaunch c (some (0, 2)) else ((h1.discardSpec c).stopUnits c).endLaunch c (some (1, 1))
      else if l.resumeAt.any fun r => decide (r ≤ n) then h1.resume c n l
      else h1
    else
      let h2 := if l.ended then h1 else h1.voteStep c n td ab l
      if td then ((h2.discardSpec c).stopUnits c).endLaunch c none
      else
        let h3 := if ab && !((h2.ctx c).launch.any fun x => x.ended) then
            ((h2.discardSpec c).stopUnits c).modLaunch c fun l => { l with halted := true, last := n }
          else h2
        let openR (k : Nat) : Bool := (h3.ctx c).rounds.any fun r => r.vote.isSome && !r.ended && !r.withdrawn && decide (r.beat + k ≤ n)
        let late := if openR 1 then h3.holds Pg.beat 5 0 (openR 2) else (false, h3)
        let h3 := late.2
        if late.1 then
          (h3.onPg fun p => p.raise Pg.beat 5 0 (p.ctxId c)).enterHold c 3 0
        else h3.nextBlock c n

/-! ## Commands of the Dareder (R46) -/

/-- REVOTE: the oldest open or withdrawn round runs again from the retained votes; a result formed at once comes at this device's count. -/
def Hw.revote (c : Nat) (h : Hw) : Hw :=
  match (h.ctx c).rounds.find? fun r => r.vote.isSome && !r.ended with
  | none => h
  | some r =>
    (h.modRound c r.beat fun r => { r with sent := [], withdrawn := false }).roundGo c (((h.ctx c).launch.map (·.group)).getD 255) r.beat
      (h.pg.fbc.toNat - h.servo.top)

/-- WITHDRAW: every open round ends without a result, shadows are discarded, the context is in HOLD. -/
def Hw.withdraw (c : Nat) (h : Hw) : Hw :=
  if (h.ctx c).launch.any fun l => l.running then
    let openR (r : Round) : Bool := r.vote.isSome && !r.ended && !r.withdrawn
    let n := ((h.ctx c).rounds.filter openR).length
    let h1 := (h.discardSpec c).modCtx c fun x => { x with rounds := x.rounds.map fun r => { r with withdrawn := r.withdrawn || openR r } }
    ((h1.onPg (Pages.sat Reg.BEAT_WDRAW_CNT n)).enterHold c 2 0).showParts
  else h

/-- RESUME: the beat at which a context in HOLD leaves it. -/
def Hw.resumeCmd (c : Nat) (h : Hw) : Hw :=
  let at_ := (h.pg.rd64 Reg.BEAT_CMD_ARG_LO).toNat % 2 ^ 48
  h.modLaunch c fun l => if l.hold ≠ 0 then { l with resumeAt := some at_ } else l

/-- A write of BEAT_CMD; false when it is refused for its code. -/
def Hw.beatCmd (w : W32) (h : Hw) : Bool × Hw :=
  let c := fld w 7 0
  let bad := h.holds Pg.beat 7 0 (decide (fld w 31 28 = 0) || decide (4 ≤ fld w 31 28))
  let h := bad.2
  if bad.1 then (false, h.onPg fun p => p.raise Pg.beat 7 0 none)
  else if fld w 31 28 = 1 then (true, h.revote c)
  else if fld w 31 28 = 2 then (true, h.withdraw c)
  else (true, h.resumeCmd c)

end Sys2Proof.Machine
end

