-- ==== Sys2Proof/Machine/MemOps.lean ====
section
/-! DEFINITION. Commands of the memory system: the patrol scrubbers, the write-combining buffers' time-out and flush, translation
invalidation and the MEMXL window (R290, R295, R307, R314, R317). -/

namespace Sys2Proof.Machine

/-! ## The patrol scrubber (R290) -/

/-- 64 B lines of a near-tier channel: 768 MiB (R283). -/
def chanLines : Nat := 12582912

/-- Slot of a physical channel in the channel map, when it is in service (R284). -/
def Pages.slotOf (p : Pages) (ch : Nat) : Option Nat :=
  (List.range (p.get Reg.CAP_NT_CHAN 8 0)).find? fun j => decide (p.get (Reg.XL_CHMAP (j / 4)) (8 * (j % 4) + 7) (8 * (j % 4)) = ch)

/-- Device line of line n of a near-tier channel: R284 inverted. -/
def Pages.nearLine (p : Pages) (slot n : Nat) : Nat := (n / 4 * p.get Reg.CAP_NT_CHAN 8 0 + slot) * 4 + n % 4

/-- Device line of data line n of logical controller ctl of the far tier: R300 inverted. -/
def Pages.farLine (p : Pages) (ctl n : Nat) : Nat := ftBase / 64 + (n / 15 * p.get Reg.XL_FT_POP 3 0 + ctl) * 15 + n % 15

/-- The scrubber reads a line: a poisoned line is skipped, a corrected one is rewritten, an uncorrectable one is poisoned (R288 to
R290). -/
def Dev.scrubLine (line : Nat) (d : Dev) : Dev :=
  if d.mem.poisoned line then d
  else match tget (fun _ => 0) d.mem.flips line with
    | 0 => d
    | 1 => d.foundCe line none
    | _ => d.foundUe .scrubber line none

/-- Channels of a stack that are in service, from channel c on, around the stack. -/
def Pages.chansFrom (p : Pages) (s c : Nat) : List Nat :=
  ((List.range 32).map fun k => (c + k) % 32).filter fun k => (p.slotOf (32 * s + k)).isSome

/-- One step of a stack's scrubber: its next line, and the place after it (R290, R310). -/
def Dev.scrubNear (s : Nat) (d : Dev) : Dev :=
  let pos := d.pg.rd (Reg.NT_SCRUB_POS s)
  let c0 := fld pos 31 27
  match d.pg.chansFrom s c0 with
  | [] => d
  | c :: _ =>
    let n := if c = c0 then fld pos 26 0 % chanLines else 0
    let d1 := d.scrubLine (d.pg.nearLine ((d.pg.slotOf (32 * s + c)).getD 0) n)
    let next : Nat × Nat := if n + 1 < chanLines then (c, n + 1) else ((d.pg.chansFrom s (c + 1)).headD c, 0)
    d1.onPg fun p => p.wr (Reg.NT_SCRUB_POS s) (BitVec.ofNat 32 (next.1 * 2 ^ 27 + next.2))

/-- One step of a controller's scrubber (R290). -/
def Dev.scrubFar (c : Nat) (d : Dev) : Dev :=
  let n := d.pg.get Reg.XL_FT_POP 3 0
  let base := if d.pg.bit Reg.XL_FT_POP 8 then 4 else 0
  let lines := (d.pg.rd64 Reg.CAP_FT_USE_LO).toNat / 64 / max 1 n
  if c < base ∨ base + n ≤ c ∨ lines = 0 then d
  else
    let i := tget (fun _ => 0) d.mem.ftScrub c % lines
    (d.scrubLine (d.pg.farLine (c - base) i)).onMem fun m => { m with ftScrub := tset (fun _ => 0) m.ftScrub c ((i + 1) % lines) }

/-- The stack reports the corrections that its dies have made of themselves: NT_ODECC_CNT counts them (R287). -/
def Pages.onDie (s n : Nat) (p : Pages) : Pages := p.sat (Reg.NT_ODECC_CNT s) n

/-- The check line of the group that controller c scrubs next fails its CRC: counted; the lines whose code does not decode, named by their
place in the group, are poisoned, and a fresh check line is written (R300). -/
def Dev.chkCrc (c : Nat) (lost : BitVec 15) (d : Dev) : Dev :=
  let n := d.pg.get Reg.XL_FT_POP 3 0
  let base := if d.pg.bit Reg.XL_FT_POP 8 then 4 else 0
  if c < base ∨ base + n ≤ c then d
  else
    let g := tget (fun _ => 0) d.mem.ftScrub c / 15
    let first := d.pg.farLine (c - base) (15 * g)
    let d1 := (d.onPg (Pages.sat (Reg.FT_CHKCRC_CNT c) 1)).chkAccess true first
    (List.range 15).foldl (fun d k => if lost.getLsbD k && !d.mem.poisoned (first + k) then d.foundUe .scrubber (first + k) none else d) d1

/-- SCRUB: the scrubber of a stack (0 to 7) or a controller (8 to 15), while its EN is 1; odecc is what a stack reports of its on-die
corrections since, chk the lines of a group whose check line is found to fail its CRC (R287, R290, R300). -/
def Dev.scrub (u odecc : Nat) (chk : Option (BitVec 15)) (d : Dev) : Dev :=
  if u < 8 then
    let d1 := d.onPg (Pages.onDie u odecc)
    if d1.pg.bit (Reg.NT_SCRUB_CTRL u) 0 then d1.scrubNear u else d1
  else if d.pg.bit (Reg.FT_SCRUB_CTRL (u - 8)) 0 then
    (match chk with | some lost => d.chkCrc (u - 8) lost | none => d).scrubFar (u - 8)
  else d

/-! ## The write-combining buffers (R295, R317) -/

/-- WCB_ENTRY_TIMEOUT: the entry of a stack with the oldest last write is flushed. -/
def Dev.wcbTimeout (s : Nat) (d : Dev) : Dev :=
  match d.wcbStack s with
  | e :: _ => d.wcbFlush e
  | [] => d

/-- A write of WCB_FLUSH flushes every entry of the named stacks. -/
def Dev.wcbFlushReg (w : W32) (d : Dev) : Dev := d.wcbFlushAll fun e => wbit w (d.pg.channelOf (64 * e.line) / 32)

/-! ## Invalidation (R307, R314) -/

/-- A write of XL_INVAL: refused while BUSY is 1 and for the KIND that names nothing; otherwise the matching entries are dropped and
BUSY rises. -/
def Dev.xlInval (w : W32) (d : Dev) : Bool × Dev :=
  let kind := fld w 31 30
  if d.pg.bit Reg.XL_INVAL_STAT 0 ∨ kind = 3 then (false, d)
  else
    let va := (d.pg.rd64 Reg.XL_INVAL_VA_LO).toNat
    let lo := if kind = 2 then va else 0
    let hi := if kind = 2 then va + 65536 * (d.pg.rd Reg.XL_INVAL_PAGES).toNat else 2 ^ 64
    (true, (d.onMem (Mem.xlDrop (fun c => kind = 0 || decide (c = fld w 7 0)) lo hi)).onPg (Pages.setb Reg.XL_INVAL_STAT 0 true))

/-- A segment lies in a page that the invalidation in progress has dropped for a context. -/
def Mem.invalMeets (m : Mem) (c : Nat) (s : Nat × Nat) : Bool :=
  m.inval.any fun g => decide (g.1 = c) && decide (s.1 < g.2.1 + g.2.2) && decide (g.2.1 < s.1 + s.2)

/-- A transfer that was translated through a dropped entry has not finished: a queued or running UAPPLY, or a collective with bytes to
place (R307). Any other transfer moves its bytes as it starts. -/
def Hw.invalWaits (h : Hw) : Bool :=
  (h.suu.reqs.any fun r => (r.xr ++ r.xw ++ r.y).any fun l => l.any (h.dev.mem.invalMeets r.ctx)) ||
    h.colls.any fun c => c.dests.any fun d => d.segs.any (h.dev.mem.invalMeets c.ctx)

/-- XL_INVAL_DONE: BUSY clears, once nothing that was translated through a dropped entry is unfinished (R307). -/
def Hw.xlInvalDone (h : Hw) : Hw :=
  if h.invalWaits then h else (h.onMem fun m => { m with inval := [] }).onPg (Pages.setb Reg.XL_INVAL_STAT 0 false)

/-! ## The window (R314) -/

/-- A window access of 8 B: what XL_WIN_STAT will show of it. -/
def Dev.winAccess (write : Bool) (d : Dev) : Nat × Dev :=
  let a := (d.pg.rd64 Reg.XL_WIN_ADDR_LO).toNat / 8 * 8
  match d.pg.rangeRegion a 8 with
  | .near | .far =>
    if write then (0, d.tierWrite .chaise none a (bytesLE 8 (d.pg.rd64 Reg.XL_WIN_DATA_LO).toNat))
    else
      let r := d.tierRead .chaise none a 8
      match r.1 with
      | some bs => (0, r.2.onPg (Pages.wr64 Reg.XL_WIN_DATA_LO (BitVec.ofNat 64 (ofBytesLE bs))))
      | none => (2, r.2.onPg (Pages.wr64 Reg.XL_WIN_DATA_LO 0))
  | _ => (4, d)

/-- A write of XL_WIN_CMD: refused with both bits set and while BUSY is 1; with neither it does nothing. -/
def Dev.winCmd (w : W32) (d : Dev) : Bool × Dev :=
  if fld w 1 0 = 3 ∨ d.pg.bit Reg.XL_WIN_STAT 0 then (false, d)
  else if fld w 1 0 = 0 then (true, d)
  else
    let r := d.winAccess (wbit w 1)
    (true, (r.2.onPg (Pages.wr Reg.XL_WIN_STAT 1)).onMem fun m => { m with win := some r.1 })

/-- WINDOW_ACCESS_DONE: BUSY clears, and POISON and FAULT show. -/
def Dev.winDone (d : Dev) : Dev :=
  match d.mem.win with
  | some f => (d.onPg (Pages.wr Reg.XL_WIN_STAT (BitVec.ofNat 32 f))).onMem fun m => { m with win := none }
  | none => d

end Sys2Proof.Machine
end

