-- ==== Sys2Proof/Machine/Checks.lean ====
section
/-! DEFINITION. What the translator demands of one instruction: the formats its unit supports (FORMAT, R103, R131, R139, R180,
R181, R274) and the kinds and values its fields may take (BAD_CODE, R257, R262 to R276). -/

namespace Sys2Proof.Machine

/-! ## Operands fixed at translation -/

/-- The value of a scalar operand that the translator knows: an immediate, sign-extended, or a capability field. -/
def Sop.known : Sop → Option Nat
  | .imm v => some (v.signExtend 64).toNat
  | .cap v => some v.toNat
  | _ => none

/-- A scalar operand fixed at translation lies in a range (R257). -/
def Sop.inRange (s : Sop) (lo hi : Nat) : Bool :=
  match s.known with
  | some v => decide (lo ≤ v) && decide (v ≤ hi)
  | none => true

/-- The operand is no FLG source. -/
def Sop.noFlg : Sop → Bool
  | .flg _ => false
  | _ => true

/-- An immediate or a counter. -/
def Sop.immCtr : Sop → Bool
  | .imm _ => true
  | .ctr _ => true
  | _ => false

/-- A scalar of a UAPPLY: an immediate, a parameter register or a counter (R334's clipping scale). -/
def Sop.scalar : Sop → Bool
  | .imm _ => true
  | .preg _ => true
  | .ctr _ => true
  | _ => false

/-- A parameter register or a counter. -/
def Sop.pregCtr : Sop → Bool
  | .preg _ => true
  | .ctr _ => true
  | _ => false

/-- A SOFS that names a descriptor resolves to a multiple of 64 (R258). -/
def Sofs.aligned : Sofs → Bool
  | .imm o => decide (o.toNat % 64 = 0)
  | .preg _ => true

/-- A SOFS is zero. -/
def Sofs.isZero : Sofs → Bool
  | .imm o => decide (o = 0)
  | .preg _ => false

/-- An index operand is zero. -/
def Idx.isZero : Idx → Bool
  | .imm v => decide (v = 0)
  | .ctr _ => false

/-- Length of a transfer: 1 to 2^32 - 1. -/
def Sop.lenOk (s : Sop) : Bool := s.noFlg && s.inRange 1 (2 ^ 32 - 1)

/-! ## Formats (R103) -/

/-- The format is an MXA operand format that is float (R131). -/
def Fmt.mxaFloat (t : Fmt) : Bool := t = .f16w || t = .f16x || t = .f8a || t = .f8b || t = .f6a || t = .f4a

/-- An element format that carries a block scale. -/
def Fmt.scaled (t : Fmt) : Bool := t = .f8a || t = .f8b || t = .f6a || t = .f4a

/-- A working format is an integer format. -/
def Wf.isInt : Wf → Bool
  | .i32 => true | .i16 => true | .u32 => true
  | _ => false

/-- A lane operation is available in a working format (R180, R181, R263). -/
def LaneOp.inWf (op : LaneOp) (w : Wf) : Bool :=
  match op with
  | .add => true | .sub => true | .mul => true | .max => true | .min => true | .sel => true | .copy => true | .none => true
  | .transp => w = .f32w || w = .i32 || w = .u32
  | .abs => w ≠ .u32
  | .neg => w ≠ .u32
  | .and => w.isInt | .or => w.isInt | .xor => w.isInt | .shl => w.isInt | .shr => w.isInt
  | .fma => !w.isInt | .fms => !w.isInt
  | .rcp => !w.isInt | .rsqrt => !w.isInt | .sqrt => !w.isInt | .exp2 => !w.isInt | .log2 => !w.isInt
  | .div => !w.isInt | .exp => !w.isInt | .log => !w.isInt | .tanh => !w.isInt | .erf => !w.isInt

/-- Formats of the collectives (R274). -/
def collFmt (t : Fmt) : Bool := t = .f32w || t = .f16w || t = .f16x || t = .i32

/-- Formats of one instruction that its unit supports. -/
def CoreInsn.fmtOk : CoreInsn → Bool
  | .mmode o => mxaPair o.fmtR o.fmtC && (!o.sclR || o.fmtR.scaled) && (!o.sclC || o.fmtC.scaled)
  | .mstream o => mxaOut .i8 o.fmtO || mxaOut .f16w o.fmtO
  | .mdrain o => mxaOut .i8 o.fmtO || mxaOut .f16w o.fmtO
  | .vop o => o.op.inWf o.wf
  | .vtens o => o.op1.inWf o.wf && o.op2.inWf o.wf
  | .vcvt o => o.wfS.wide = o.dir && o.wfD.wide != o.dir
  | .callr o => collFmt o.fmt | .crscat o => collFmt o.fmt | .cagath o => collFmt o.fmt | .cbcast o => collFmt o.fmt
  | .ca2a o => collFmt o.fmt | .ca2av o => collFmt o.fmt | .cperm o => collFmt o.fmt
  | _ => true

/-! ## Fields (R257) -/

/-- The operations OP2 may name (R264). -/
def LaneOp.second : LaneOp → Bool
  | .none => true | .rcp => true | .rsqrt => true | .sqrt => true | .exp2 => true | .log2 => true | .exp => true
  | .log => true | .tanh => true | .erf => true | .abs => true | .neg => true
  | _ => false

/-- A check of one field: its lowest bit in the instruction, and whether the field passes. -/
abbrev FieldCheck := Nat × Bool

/-- A collective's operands: COUNT is 1 to 2^32 - 1, but for CBCAST, whose COUNT holds the root's rank too (R410). -/
def CollOp.checks (o : CollOp) (two wideCount : Bool) : List FieldCheck :=
  [(64, o.src.noFlg), (128, o.dst.noFlg), (192, o.count.noFlg && (wideCount || o.count.inRange 1 (2 ^ 32 - 1))), (256, !two || o.extra.noFlg)]

/-- COUNT of a CBCAST: a vector length of at least 1 in [31:0], the root's rank in [47:32], zero above (R410). -/
def CollOp.bcastChecks (o : CollOp) : List FieldCheck :=
  o.checks false true ++ [(192, match o.count.known with | some v => decide (v % 2 ^ 32 ≠ 0) && decide (v < 2 ^ 48) | none => true)]

/-- Row lists: ROWB and COUNT are 1 to 2^20, IDX 4 B aligned (R266); base is the bit at which the table's operand stands. -/
def DlistOp.checks (o : DlistOp) (base own : Nat) : List FieldCheck :=
  [(32, decide (1 ≤ o.rowb.toNat) && decide (o.rowb.toNat ≤ 2 ^ 20)), (base, o.base.noFlg), (own, o.own.noFlg),
   (256, o.idx.noFlg && (match o.idx.known with | some v => decide (v % 4 = 0) | none => true)),
   (320, o.count.noFlg && o.count.inRange 1 (2 ^ 20))]

/-- Descriptors that a VTENS names: its destinations, and its sources but for the one a parameter register replaces (R183). -/
def VtensOp.descs (o : VtensOp) : Nat :=
  (!o.nod).toNat + (decide (o.red ≠ .none)).toNat + ((List.range o.op1.arity).filter fun i => decide (i + 1 ≠ o.spos.val)).length

/-- The kinds and values that the translator demands of the fields of one instruction, field by field. -/
def CoreInsn.fieldChecks : CoreInsn → List FieldCheck
  | .mmode _ => []
  | .mload o => [(32, o.desc.aligned), (64, decide (o.kt.toNat < 512)), (80, decide (o.nt.toNat < 128))]
  | .mstream o => [(32, o.rdesc.aligned), (64, o.cdesc.aligned), (96, o.odesc.aligned), (128, o.pdesc.aligned && (o.add || o.pdesc.isZero))]
  | .mdrain o => [(32, o.odesc.aligned), (64, o.pdesc.aligned && (o.add || o.pdesc.isZero))]
  | .vop o => [(16, o.op ≠ .none)]
  | .vtens o =>
    [(16, o.op1 ≠ .none && decide (o.descs ≤ 4)), (21, o.op2.second), (26, !(o.rax && (o.red = .argmax || o.red = .meanvar))),
     (32, o.ddesc.aligned), (64, o.s0.aligned), (96, o.s1.aligned),
     (128, o.s2.aligned && ((decide (3 ≤ o.op1.arity) && decide (o.spos.val ≠ 3)) || o.s2.isZero)),
     (160, o.rdesc.aligned && (o.red ≠ .none || o.rdesc.isZero)), (202, !(o.nod && o.red = .none))]
  | .vtensLd o => [(32, o.tdesc.aligned)]
  | .vtensSt o => [(32, o.tdesc.aligned)]
  | .vred o => [(16, o.red ≠ .none), (40, !o.axis || decide (28 ≤ o.ts.val))]
  | .vcvt o => [(32, decide (o.td.val % 2 = 0)), (40, !o.dir || decide (o.ts.val % 2 = 0))]
  | .vseed _ => []
  | .vdraw o => [(32, !o.ten || o.ddesc.aligned)]
  | .vmask _ => []
  | .dcopy o => [(64, o.src.noFlg), (128, o.dst.noFlg), (192, o.len.lenOk)]
  | .dgather o => o.checks 128 192
  | .dscatter o => o.checks 192 128
  | .dstash o => [(64, o.cva.noFlg), (128, o.len.lenOk)]
  | .dunstash o => [(64, o.cva.noFlg), (128, o.len.lenOk)]
  | .xput o => [(64, o.dnode.noFlg), (128, o.src.noFlg), (192, o.dst.noFlg), (256, o.len.lenOk)]
  | .xget o => [(56, decide (o.rcore.toNat < 96)), (64, o.dnode.noFlg), (128, o.src.noFlg), (192, o.dst.noFlg), (256, o.len.lenOk)]
  | .xatom o => [(64, o.dnode.noFlg), (128, o.dst.noFlg), (192, o.val.noFlg)]
  | .xmsg o => [(56, decide (o.dcore.toNat < 96)), (64, o.dnode.noFlg), (128, o.src.noFlg), (192, decide (o.len.toNat ≤ 1016))]
  | .callr o => o.checks false false
  | .crscat o => o.checks false false
  | .cagath o => o.checks false false
  | .cbcast o => o.bcastChecks
  | .ca2a o => o.checks false false
  | .ca2av o => o.checks true false
  | .cperm o => o.checks true false
  | .urecipe o => [(40, decide (o.bi = 0) || o.src.isZero)]
  | .uapply o =>
    [(64, o.region.noFlg), (128, o.count.noFlg && o.count.inRange 1 (2 ^ 32)), (192, o.s0.scalar), (256, o.s1.scalar), (320, o.s2.scalar),
     (384, o.s3.scalar)]
  | .cset _ _ _ => []
  | .cinc _ s => [(64, s.immCtr)]
  | .ccmp _ _ _ s => [(64, s.noFlg)]
  | .loop _ _ => []
  | .br _ _ => []
  | .beat _ => []
  | .waitarr _ => []
  | .fence _ _ => []
  | .signal _ _ s => [(64, s.noFlg)]
  | .wait _ s => [(64, s.noFlg)]
  | .gcall o => (18, decide (o.args.length ≤ 4)) :: o.args.zipIdx.map fun a => (64 + 64 * a.2, a.1.pregCtr)

/-- The kinds and values of the fields of one instruction that the translator accepts. -/
def CoreInsn.codeOk (i : CoreInsn) : Bool := i.fieldChecks.all (·.2)

/-- The translator accepts the instruction taken alone. -/
def CoreInsn.wf (i : CoreInsn) : Bool := i.fmtOk && i.codeOk

end Sys2Proof.Machine
end

