-- ==== Sys2Proof/Machine/Ethaqua.lean ====
section
/-! DEFINITION. Reading the encodings of the Ethaqua instructions and of the Gig scalar subset (R257 to R282). -/

namespace Sys2Proof.Machine

/-- Bits hi to lo of an instruction word. -/
def bf (w hi lo : Nat) : Nat := w / 2 ^ lo % 2 ^ (hi + 1 - lo)

/-- The bits named by a list of (hi, lo) ranges. -/
def bitsNamed : List (Nat × Nat) → Nat
  | [] => 0
  | x :: xs => Nat.lor ((2 ^ (x.1 + 1 - x.2) - 1) * 2 ^ x.2) (bitsNamed xs)

/-- Words less 1 of an opcode (R261); none for an invalid opcode. -/
def opNw (op : Nat) : Option Nat :=
  if op = 0x10 ∨ op = 0x13 ∨ op = 0x20 ∨ (0x22 ≤ op ∧ op ≤ 0x25) ∨ op = 0x60 ∨ (0x70 ≤ op ∧ op ≤ 0x79) then some 0
  else if op = 0x11 ∨ op = 0x21 ∨ op = 0x30 ∨ op = 0x33 ∨ op = 0x34 ∨ op = 0x42 ∨ op = 0x43 ∨ (0x50 ≤ op ∧ op ≤ 0x54) then some 1
  else if op = 0x12 ∨ op = 0x31 ∨ op = 0x32 ∨ op = 0x40 ∨ op = 0x41 ∨ op = 0x55 ∨ op = 0x56 ∨ op = 0x7A then some 2
  else if op = 0x61 then some 3
  else none

/-- The instruction carries a rounding control (R257). -/
def opHasRc (op : Nat) : Bool := op = 0x21 || op = 0x23 || op = 0x61

/-- The bit ranges that an opcode's table names, beyond OPCODE and NW (R262 to R276); a mask register in a field takes three bits of it,
and the arguments of a GCALL beyond NARG are not named. -/
def opFields (op w : Nat) : List (Nat × Nat) :=
  match op with
  | 0x10 => [(63, 49)]
  | 0x11 => [(55, 32), (72, 64), (86, 80), (123, 96), (155, 128)]
  | 0x12 => [(21, 16), (55, 32), (87, 64), (119, 96), (151, 128), (187, 160), (219, 192), (251, 224), (283, 256), (294, 288), (302, 296)]
  | 0x13 => [(21, 17), (55, 32), (87, 64), (123, 96)]
  | 0x20 => [(24, 16), (36, 32), (46, 40), (54, 48), (62, 56), (66, 64), (70, 68)]
  | 0x21 =>
    if bf w 31 30 = 0 then [(31, 16), (55, 32), (87, 64), (119, 96), (151, 128), (186, 160), (190, 188), (203, 192)]
    else [(31, 30), (17, 16), (55, 32), (if bf w 17 17 = 1 then 58 else 60, 56), (79, 64), (82, 80)]
  | 0x22 => [(20, 16), (36, 32), (44, 40), (53, 48)]
  | 0x23 => [(16, 16), (36, 32), (44, 40), (53, 48), (58, 56)]
  | 0x24 =>
    [(19, 16), (63, 63), (74, 64)] ++
      (if bf w 63 63 = 1 then [(55, 32)] else [(if bf w 17 16 = 3 then 34 else 36, 32), (55, 40)])
  | 0x25 =>
    if 8 ≤ bf w 20 16 ∧ bf w 20 16 ≤ 12 then [(20, 16), (34, 32), (42, 40), (50, 48), (58, 56), (63, 60)]
    else [(20, 16), (34, 32), (44, 40), (52, 48), (58, 56), (63, 60)]
  | 0x30 => [(22, 16), (38, 32), (46, 40), (127, 64), (191, 128), (255, 192)]
  | 0x31 => [(20, 16), (102, 32), (383, 128)]
  | 0x32 => [(18, 16), (22, 21), (102, 32), (383, 128)]
  | 0x33 => [(18, 16), (55, 32), (127, 64), (191, 128)]
  | 0x34 => [(18, 16), (55, 32), (127, 64), (191, 128)]
  | 0x40 => [(21, 16), (54, 32), (319, 64)]
  | 0x41 => [(21, 16), (47, 32), (62, 56), (319, 64)]
  | 0x42 => [(22, 16), (255, 64)]
  | 0x43 => [(19, 16), (47, 32), (62, 56), (207, 64)]
  | 0x55 => [(30, 16), (35, 32), (63, 48), (319, 64)]
  | 0x56 => [(30, 16), (35, 32), (63, 48), (319, 64)]
  | 0x60 => [(22, 16), (34, 32), (63, 40)]
  | 0x61 => [(22, 16), (447, 64)]
  | 0x70 => [(36, 32), (127, 64)]
  | 0x71 => [(35, 32), (127, 64)]
  | 0x72 => [(34, 32), (39, 36), (42, 40), (127, 64)]
  | 0x73 => [(35, 32), (63, 40)]
  | 0x74 => [(17, 16), (34, 32), (63, 40)]
  | 0x75 => [(17, 16), (34, 32), (63, 48)]
  | 0x76 => [(16, 16), (47, 32)]
  | 0x77 => [(18, 16), (39, 32)]
  | 0x78 => [(16, 16), (35, 32), (127, 64)]
  | 0x79 => [(35, 32), (127, 64)]
  | 0x7A => [(20, 16), (43, 32)] ++ (if bf w 20 18 = 0 then [] else [(64 * bf w 20 18 + 63, 64)])
  | _ => if 0x50 ≤ op ∧ op ≤ 0x54 then [(30, 16), (35, 32), (63, 48), (255, 64)] else []

/-- No reserved bit of an instruction of n words is set (R257). -/
def reservedZero (op w : Nat) : Bool :=
  let named := bitsNamed ((9, 0) :: (if opHasRc op then [(12, 10)] else []) ++ opFields op w)
  decide (Nat.lor w named = named)

/-! ## Operand kinds (R258) -/

/-- SOFS. -/
def sofsOf (v : Nat) : Option Sofs :=
  if v / 2 ^ 23 % 2 = 0 then some (.imm (BitVec.ofNat 23 v))
  else if v % 2 ^ 23 / 256 = 0 then some (.preg (BitVec.ofNat 8 v)) else none

/-- IDX. -/
def idxOf (v : Nat) : Option Idx :=
  if v / 2 ^ 27 % 2 = 0 then (if v / 2 ^ 24 = 0 then some (.imm (BitVec.ofNat 24 v)) else none)
  else if v % 2 ^ 27 / 16 = 0 then some (.ctr (Fin.ofNat 16 v)) else none

/-- SOP, with the values of the entries of the REQS capability list. -/
def sopOf (caps : List W32) (v : Nat) : Option Sop :=
  let k := v / 2 ^ 60 % 16
  let b := v % 2 ^ 60
  if k = 0 then (if b < 2 ^ 32 then some (.imm (BitVec.ofNat 32 b)) else none)
  else if k = 1 then (if b < 256 then some (.preg (BitVec.ofNat 8 b)) else none)
  else if k = 2 then (if b < 16 then some (.ctr (Fin.ofNat 16 b)) else none)
  else if k = 3 then
    let width := bf b 5 0
    let lsb := bf b 12 8
    if Nat.lor b (bitsNamed [(20, 16), (12, 8), (5, 0)]) ≠ bitsNamed [(20, 16), (12, 8), (5, 0)] then none
    else if width = 0 ∨ 32 < width ∨ 32 < lsb + width then none
    else (caps[bf b 20 16]?).map fun w => .cap (BitVec.ofNat 32 (fld w (lsb + width - 1) lsb))
  else if k = 4 then (if b < 2 then some (.flg (decide (b = 1))) else none)
  else none

/-- The SOP fields of an opcode: the lowest bit of each. -/
def opSops (op w : Nat) : List Nat :=
  match op with
  | 0x30 => [64, 128, 192] | 0x31 => [128, 192, 256, 320] | 0x32 => [128, 192, 256, 320]
  | 0x33 => [64, 128] | 0x34 => [64, 128]
  | 0x40 => [64, 128, 192, 256] | 0x41 => [64, 128, 192, 256] | 0x42 => [64, 128, 192] | 0x43 => [64, 128]
  | 0x55 => [64, 128, 192, 256] | 0x56 => [64, 128, 192, 256]
  | 0x61 => [64, 128, 192, 256, 320, 384]
  | 0x70 => [64] | 0x71 => [64] | 0x72 => [64] | 0x78 => [64] | 0x79 => [64]
  | 0x7A => [64, 128, 192, 256].take (bf w 20 18)
  | _ => if 0x50 ≤ op ∧ op ≤ 0x54 then [64, 128, 192] else []

/-- The SOFS fields of an opcode. -/
def opSofs (op w : Nat) : List Nat :=
  match op with
  | 0x11 => [32] | 0x12 => [32, 64, 96, 128] | 0x13 => [32, 64]
  | 0x21 => if bf w 31 30 = 0 then [32, 64, 96, 128, 160] else [32]
  | 0x24 => if bf w 63 63 = 1 then [32] else []
  | 0x33 => [32] | 0x34 => [32] | 0x60 => [40]
  | _ => []

/-- The fields that name a parameter register directly. -/
def opPregs (op w : Nat) : List Nat :=
  match op with
  | 0x21 => if bf w 31 30 = 0 ∧ bf w 201 200 ≠ 0 then [192] else []
  | 0x24 => if bf w 17 16 = 0 ∨ bf w 17 16 = 3 then [64] else []
  | _ => []

/-- The lowest bit of every field of an instruction that names a parameter register; the register is the field's low byte (R233). -/
def insnPregs (op w : Nat) : List Nat :=
  opPregs op w ++ ((opSops op w).filter fun b => bf w (b + 63) (b + 60) = 1) ++ (opSofs op w).filter fun b => bf w (b + 23) (b + 23) = 1

/-- The lowest bit of every capability operand of an instruction. -/
def insnCapAt (op w : Nat) : List Nat := (opSops op w).filter fun b => bf w (b + 63) (b + 60) = 3

/-- The capability operands of an instruction: index, lsb, width. -/
def insnCaps (op w : Nat) : List (Nat × Nat × Nat) :=
  (insnCapAt op w).map fun b => (bf w (b + 20) (b + 16), bf w (b + 12) (b + 8), bf w (b + 5) b)

/-- The fields of an instruction that carry a format code: the lowest of their four bits. -/
def insnFmts (op : Nat) : List Nat :=
  if op = 0x10 then [58, 54] else if op = 0x12 ∨ op = 0x13 then [18] else if 0x50 ≤ op ∧ op ≤ 0x56 then [24] else []

/-! ## Enumerations -/

/-- WF (R263). -/
def wfOf : Nat → Option Wf
  | 0 => some .f32w | 1 => some .f16w | 2 => some .f16x | 3 => some .i32 | 4 => some .i16 | 5 => some .u32 | _ => none

/-- OP codes (R263). -/
def laneOpOf (n : Nat) : Option LaneOp :=
  if n = 0x1F then some .none
  else [LaneOp.add, .sub, .mul, .fma, .fms, .max, .min, .abs, .neg, .and, .or, .xor, .shl, .shr, .sel, .copy, .transp,
    .rcp, .rsqrt, .sqrt, .exp2, .log2, .div, .exp, .log, .tanh, .erf][n]?

/-- Broadcast codes (R264). -/
def bcastOf : Nat → Option Bcast
  | 0 => some .full | 1 => some .rowb | 2 => some .colb | _ => none

/-- RED (R263). -/
def redOf : Nat → Option RedKind
  | 0 => some .none | 1 => some .sum | 2 => some .sumsq | 3 => some .max | 4 => some .min | 5 => some .argmax | 6 => some .meanvar | _ => none

/-- Mask operations (R264). -/
def maskOpOf : Nat → Option MaskOp
  | 0 => some .cmpEq | 1 => some .cmpNe | 2 => some .cmpLt | 3 => some .cmpLe | 4 => some .cmpGt | 5 => some .cmpGe | 6 => some .unord
  | 8 => some .and | 9 => some .or | 10 => some .xor | 11 => some .andn | 12 => some .not | 13 => some .set | 14 => some .clr
  | 15 => some .firstn | _ => none

/-- Space codes (R259). -/
def spaceOf : Nat → Option Space
  | 0 => some .cva | 1 => some .own | 2 => some .peer | _ => none

/-- AOP (R271). -/
def aopOf : Nat → Option Aop
  | 0 => some .addI32 | 1 => some .addI64 | 2 => some .faddF32 | 3 => some .maxI32 | 4 => some .minI32 | 5 => some .maxF32 | 6 => some .minF32
  | _ => none

/-- ROP (R274). -/
def ropOf : Nat → Option Rop
  | 0 => some .sum | 1 => some .max | 2 => some .min | _ => none

/-- A one-bit space choice of a field of two bits. -/
def ownOf : Nat → Option Bool
  | 0 => some false | 1 => some true | _ => none

/-- REL (R276). -/
def relOf : Nat → Option Rel
  | 0 => some .eq | 1 => some .ne | 2 => some .lt | 3 => some .le | 4 => some .gt | 5 => some .ge | _ => none

/-- SCOPE (R276). -/
def scopeOf : Nat → Option FScope
  | 0 => some .local | 1 => some .dma | 2 => some .device | 3 => some .fabric | _ => none

/-! ## The instructions -/

/-- A SOP field of an instruction. -/
def sopAt (caps : List W32) (w b : Nat) : Option Sop := sopOf caps (bf w (b + 63) b)

/-- A SOFS field of an instruction. -/
def sofsAt (w b : Nat) : Option Sofs := sofsOf (bf w (b + 23) b)

/-- An IDX field of an instruction. -/
def idxAt (w b : Nat) : Option Idx := idxOf (bf w (b + 27) b)

/-- Matrix class (R262). COUNT of MSTREAM is kept as encoded. -/
def matrixOf (op w : Nat) : Option CoreInsn :=
  match op with
  | 0x10 => do
    let df ← (if bf w 63 62 = 0 then some Dflow.ws else if bf w 63 62 = 1 then some .is else if bf w 63 62 = 2 then some .os else none)
    return .mmode ⟨df, ← Fmt.ofCode (bf w 61 58), ← Fmt.ofCode (bf w 57 54), ← Rc.ofBits (bf w 53 51), bf w 50 50 = 1, bf w 49 49 = 1⟩
  | 0x11 => return .mload ⟨← sofsAt w 32, BitVec.ofNat 9 (bf w 72 64), BitVec.ofNat 7 (bf w 86 80), ← idxAt w 96, ← idxAt w 128⟩
  | 0x12 => do
    return .mstream
      { swap := bf w 16 16 = 1, add := bf w 17 17 = 1, fmtO := ← Fmt.ofCode (bf w 21 18), rdesc := ← sofsAt w 32, cdesc := ← sofsAt w 64,
        odesc := ← sofsAt w 96, pdesc := ← sofsAt w 128, count := ← idxAt w 160, kofs := ← idxAt w 192, rofs := ← idxAt w 224,
        orow := ← idxAt w 256, mt := BitVec.ofNat 7 (bf w 294 288), nt := BitVec.ofNat 7 (bf w 302 296) }
  | 0x13 => return .mdrain ⟨bf w 17 17 = 1, ← Fmt.ofCode (bf w 21 18), ← sofsAt w 32, ← sofsAt w 64, ← idxAt w 96⟩
  | _ => none

/-- Vector class (R264). -/
def vectorOf (op w : Nat) : Option CoreInsn :=
  let r5 (hi lo : Nat) : Fin 32 := Fin.ofNat 32 (bf w hi lo)
  let r3 (hi lo : Nat) : Fin 8 := Fin.ofNat 8 (bf w hi lo)
  match op with
  | 0x20 => do
    return .vop ⟨← laneOpOf (bf w 20 16), bf w 21 21 = 1, ← wfOf (bf w 24 22), r5 36 32, r5 44 40, ← bcastOf (bf w 46 45), r5 52 48,
      ← bcastOf (bf w 54 53), r5 60 56, ← bcastOf (bf w 62 61), r3 66 64, r3 70 68⟩
  | 0x21 => do
    let rc ← Rc.ofBits (bf w 12 10)
    if bf w 31 30 = 0 then
      return .vtens
        { rc := rc, rax := bf w 29 29 = 1, red := ← redOf (bf w 28 26), op1 := ← laneOpOf (bf w 20 16), op2 := ← laneOpOf (bf w 25 21),
          ddesc := ← sofsAt w 32, s0 := ← sofsAt w 64, s1 := ← sofsAt w 96, s2 := ← sofsAt w 128, rdesc := ← sofsAt w 160,
          mask := r3 186 184, wf := ← wfOf (bf w 190 188), sp := BitVec.ofNat 8 (bf w 199 192), spos := Fin.ofNat 4 (bf w 201 200),
          nod := bf w 202 202 = 1, unbiased := bf w 203 203 = 1 }
    else
      let o : VtensLsOp := { rc := rc, pair := bf w 16 16 = 1, mask := bf w 17 17 = 1, tdesc := ← sofsAt w 32, tr := r5 60 56,
                             i0 := Fin.ofNat 16 (bf w 67 64), i1 := Fin.ofNat 16 (bf w 71 68), i2 := Fin.ofNat 16 (bf w 75 72),
                             i3 := Fin.ofNat 16 (bf w 79 76), wf := ← wfOf (bf w 82 80) }
      if bf w 31 30 = 1 then return .vtensLd o else if bf w 31 30 = 2 then return .vtensSt o else none
  | 0x22 => do return .vred ⟨← redOf (bf w 18 16), bf w 19 19 = 1, bf w 20 20 = 1, r5 36 32, r5 44 40, r3 50 48, ← wfOf (bf w 53 51)⟩
  | 0x23 => do
    return .vcvt ⟨← Rc.ofBits (bf w 12 10), bf w 16 16 = 1, r5 36 32, r5 44 40, r3 50 48, ← wfOf (bf w 53 51), ← wfOf (bf w 58 56)⟩
  | 0x24 => do
    if bf w 17 16 = 0 then (if bf w 18 18 = 1 then none else return .vseed ⟨bf w 19 19 = 1, BitVec.ofNat 8 (bf w 71 64)⟩)
    else
      let form := if bf w 17 16 = 1 then RngForm.bits else if bf w 17 16 = 2 then .uniform else .bern
      let dd ← (if bf w 63 63 = 1 then sofsAt w 32 else some (.imm 0))
      return .vdraw ⟨form, bf w 18 18 = 1, r5 36 32, bf w 63 63 = 1, dd, BitVec.ofNat 8 (bf w 71 64), r3 74 72⟩
  | 0x25 => do
    let op ← maskOpOf (bf w 20 16)
    let wf ← (if bf w 20 16 < 7 then wfOf (bf w 58 56) else some .f32w)
    return .vmask ⟨op, r3 34 32, r5 44 40, r5 52 48, wf, Fin.ofNat 16 (bf w 63 60)⟩
  | _ => none

/-- The fields that every collective shares (R274). -/
def collOf (caps : List W32) (two : Bool) (w : Nat) : Option CollOp := do
  return { grp := Fin.ofNat 64 (bf w 21 16), rop := ← ropOf (bf w 23 22), fmt := ← Fmt.ofCode (bf w 27 24), cg := Fin.ofNat 8 (bf w 30 28),
           srcOwn := ← ownOf (bf w 33 32), dstOwn := ← ownOf (bf w 35 34), ctag := BitVec.ofNat 16 (bf w 63 48), src := ← sopAt caps w 64,
           dst := ← sopAt caps w 128, count := ← sopAt caps w 192, extra := ← (if two then sopAt caps w 256 else some (.imm 0)) }

/-- Data movement, fabric, collective and update classes (R266, R271, R274, R275). -/
def moveOf (caps : List W32) (op w : Nat) : Option CoreInsn :=
  let cg : Fin 8 := Fin.ofNat 8 (bf w 18 16)
  let s := sopAt caps w
  match op with
  | 0x30 => do
    return .dcopy ⟨cg, ← spaceOf (bf w 20 19), ← spaceOf (bf w 22 21), BitVec.ofNat 7 (bf w 38 32), BitVec.ofNat 7 (bf w 46 40),
      ← s 64, ← s 128, ← s 192⟩
  | 0x31 => do
    return .dgather ⟨cg, ← spaceOf (bf w 20 19), BitVec.ofNat 32 (bf w 63 32), BitVec.ofNat 32 (bf w 95 64), BitVec.ofNat 7 (bf w 102 96),
      ← s 128, ← s 192, ← s 256, ← s 320⟩
  | 0x32 => do
    return .dscatter ⟨cg, ← spaceOf (bf w 22 21), BitVec.ofNat 32 (bf w 63 32), BitVec.ofNat 32 (bf w 95 64), BitVec.ofNat 7 (bf w 102 96),
      ← s 192, ← s 128, ← s 256, ← s 320⟩
  | 0x33 => return .dstash ⟨cg, ← sofsAt w 32, ← s 64, ← s 128⟩
  | 0x34 => return .dunstash ⟨cg, ← sofsAt w 32, ← s 64, ← s 128⟩
  | 0x40 => do
    return .xput ⟨cg, ← ownOf (bf w 20 19), bf w 21 21 = 1, BitVec.ofNat 23 (bf w 54 32), ← s 64, ← s 128, ← s 192, ← s 256⟩
  | 0x41 => do
    return .xget ⟨cg, ← ownOf (bf w 20 19), bf w 21 21 = 1, BitVec.ofNat 16 (bf w 47 32), BitVec.ofNat 7 (bf w 62 56), ← s 64, ← s 128,
      ← s 192, ← s 256⟩
  | 0x42 => return .xatom ⟨cg, ← aopOf (bf w 22 19), ← s 64, ← s 128, ← s 192⟩
  | 0x43 => do
    return .xmsg ⟨cg, bf w 19 19 = 1, BitVec.ofNat 16 (bf w 47 32), BitVec.ofNat 7 (bf w 62 56), ← s 64, ← s 128, BitVec.ofNat 16 (bf w 207 192)⟩
  | 0x50 => return .callr (← collOf caps false w)
  | 0x51 => return .crscat (← collOf caps false w)
  | 0x52 => return .cagath (← collOf caps false w)
  | 0x53 => return .cbcast (← collOf caps false w)
  | 0x54 => return .ca2a (← collOf caps false w)
  | 0x55 => return .ca2av (← collOf caps true w)
  | 0x56 => return .cperm (← collOf caps true w)
  | 0x60 => do
    if h : bf w 22 19 < 5 then return .urecipe ⟨cg, ⟨bf w 22 19, h⟩, Fin.ofNat 8 (bf w 34 32), ← sofsAt w 40⟩ else none
  | 0x61 => do
    return .uapply ⟨← Rc.ofBits (bf w 12 10), cg, Fin.ofNat 8 (bf w 21 19), bf w 22 22 = 1, ← s 64, ← s 128, ← s 192, ← s 256, ← s 320, ← s 384⟩
  | _ => none

/-- Control class (R276). -/
def controlOf (caps : List W32) (op w : Nat) : Option CoreInsn :=
  let c4 (hi lo : Nat) : Fin 16 := Fin.ofNat 16 (bf w hi lo)
  let k3 : Fin 8 := Fin.ofNat 8 (bf w 34 32)
  let s := sopAt caps w
  match op with
  | 0x70 => return .cset (c4 35 32) (bf w 36 36 = 1) (← s 64)
  | 0x71 => return .cinc (c4 35 32) (← s 64)
  | 0x72 => return .ccmp k3 (c4 39 36) (← relOf (bf w 42 40)) (← s 64)
  | 0x73 => some (.loop (c4 35 32) (BitVec.ofNat 24 (bf w 63 40)))
  | 0x74 => some (.br (if bf w 16 16 = 1 then some (k3, decide (bf w 17 17 = 1)) else none) (BitVec.ofNat 24 (bf w 63 40)))
  | 0x75 =>
    let b := BitVec.ofNat 16 (bf w 63 48)
    some (.beat (match bf w 17 16 with | 0 => .fall | 1 => .goto b | 2 => .ifK k3 b | _ => .fin))
  | 0x76 => some (.waitarr (if bf w 16 16 = 1 then none else some (BitVec.ofNat 16 (bf w 47 32))))
  | 0x77 => return .fence (← scopeOf (bf w 18 16)) (BitVec.ofNat 8 (bf w 39 32))
  | 0x78 => return .signal (bf w 16 16 = 1) (c4 35 32) (← s 64)
  | 0x79 => return .wait (c4 35 32) (← s 64)
  | 0x7A => do
    if 4 < bf w 20 18 then none
    else
      let args ← (opSops 0x7A w).mapM s
      return .gcall ⟨bf w 16 16 = 1, if bf w 17 17 = 1 then some (c4 43 40) else none, BitVec.ofNat 8 (bf w 39 32), args⟩
  | _ => none

/-- The fields of an opcode that take one of a few codes: the lowest bit of each, and whether its code is one of them. -/
def opEnums (op w : Nat) : List FieldCheck :=
  let fld (b n : Nat) : Nat := w / 2 ^ b % 2 ^ n
  let wf (b : Nat) : FieldCheck := (b, (wfOf (fld b 3)).isSome)
  let rc (b : Nat) : FieldCheck := (b, (Rc.ofBits (fld b 3)).isSome)
  let bc (b : Nat) : FieldCheck := (b, (bcastOf (fld b 2)).isSome)
  let two (b : Nat) : FieldCheck := (b, decide (fld b 2 < 2))
  let three (b : Nat) : FieldCheck := (b, decide (fld b 2 < 3))
  match op with
  | 0x10 => [rc 51, three 62]
  | 0x20 => [(16, (laneOpOf (fld 16 5)).isSome), wf 22, bc 45, bc 53, bc 61]
  | 0x21 =>
    if fld 30 2 = 0 then [rc 10, (16, (laneOpOf (fld 16 5)).isSome), (21, (laneOpOf (fld 21 5)).isSome), (26, (redOf (fld 26 3)).isSome), wf 188]
    else [rc 10, three 30, wf 80]
  | 0x22 => [(16, (redOf (fld 16 3)).isSome), wf 51]
  | 0x23 => [rc 10, wf 51, wf 56]
  | 0x24 => [(18, !(fld 16 2 = 0 && fld 18 1 = 1))]
  | 0x25 => [(16, (maskOpOf (fld 16 5)).isSome)] ++ if fld 16 5 < 7 then [wf 56] else []
  | 0x30 => [three 19, three 21]
  | 0x31 => [three 19]
  | 0x32 => [three 21]
  | 0x40 => [two 19]
  | 0x41 => [two 19]
  | 0x42 => [(19, (aopOf (fld 19 4)).isSome)]
  | 0x60 => [(19, decide (fld 19 4 < 5))]
  | 0x61 => [rc 10]
  | 0x72 => [(40, (relOf (fld 40 3)).isSome)]
  | 0x77 => [(16, (scopeOf (fld 16 3)).isSome)]
  | 0x7A => [(18, decide (fld 18 3 < 5))]
  | _ => if 0x50 ≤ op ∧ op ≤ 0x56 then [three 22, two 32, two 34] else []

/-- Decode an instruction of a valid opcode and width, or none: BAD_CODE (R257). -/
def insnOf (caps : List W32) (op w : Nat) : Option CoreInsn :=
  if !reservedZero op w then none
  else
    let i := if op < 0x20 then matrixOf op w else if op < 0x30 then vectorOf op w else if op < 0x70 then moveOf caps op w else controlOf caps op w
    i.bind fun i => if i.codeOk then some i else none

/-- The first of the checks that fails. -/
def firstFail (cs : List FieldCheck) : Option Nat := (cs.find? fun c => !c.2).map (·.1)

/-- The byte within an instruction of the field for which insnOf refuses it: a reserved bit, an operand of no kind, a code of no
meaning, a value out of its range; 0 where none of these alone is at fault (R244, R257). -/
def insnFault (caps : List W32) (op w : Nat) : Nat :=
  let named := bitsNamed ((9, 0) :: (if opHasRc op then [(12, 10)] else []) ++ opFields op w)
  let bit : Option Nat := ((List.range 512).find? fun b => w.testBit b && !named.testBit b)
    |>.or (firstFail (opEnums op w))
    |>.or (firstFail ((opSofs op w).map fun b => (b, (sofsAt w b).isSome)))
    |>.or (firstFail ((opSops op w).map fun b => (b, (sopAt caps w b).isSome)))
    |>.or (firstFail ((match op with | 0x11 => [96, 128] | 0x12 => [160, 192, 224, 256] | 0x13 => [96] | _ => []).map fun b => (b, (idxAt w b).isSome)))
    |>.or (let i := if op < 0x20 then matrixOf op w else if op < 0x30 then vectorOf op w else if op < 0x70 then moveOf caps op w else controlOf caps op w
      i.bind fun i => firstFail i.fieldChecks)
  bit.getD 0 / 8

/-! ## The Gig scalar subset (R281, R282) -/

/-- The second source: RB, or IMM where I is 1. -/
def gigSrc (w : Nat) : GSrc := if bf w 23 23 = 1 then .imm (BitVec.ofNat 32 (bf w 63 32)) else .reg (Fin.ofNat 32 (bf w 22 18))

/-- The memory operand: RA, the second source, SZ and BLK. -/
def gigMem (w : Nat) : GMem :=
  { ra := Fin.ofNat 32 (bf w 17 13), src := gigSrc w, sz := Fin.ofNat 4 (bf w 25 24), blk := bf w 26 26 = 1 }

/-- The instruction that OP names, its fields read as they stand (R282). -/
def gigOp (l : Fin 96) (w : Nat) : Option Instr :=
  let rd := Fin.ofNat 32 (bf w 12 8)
  let ra := Fin.ofNat 32 (bf w 17 13)
  let b := gigSrc w
  let imm := BitVec.ofNat 32 (bf w 63 32)
  let br := fun op : GBr => Instr.gigBranch l op ra (if bf w 23 23 = 1 then none else some (Fin.ofNat 32 (bf w 22 18))) imm
  match bf w 7 0 with
  | 0x01 => some (.addSubAndOrXor l .add rd ra b)
  | 0x02 => some (.addSubAndOrXor l .sub rd ra b)
  | 0x03 => some (.addSubAndOrXor l .and rd ra b)
  | 0x04 => some (.addSubAndOrXor l .or rd ra b)
  | 0x05 => some (.addSubAndOrXor l .xor rd ra b)
  | 0x06 => some (.shlShrSra l .shl rd ra b)
  | 0x07 => some (.shlShrSra l .shr rd ra b)
  | 0x08 => some (.shlShrSra l .sra rd ra b)
  | 0x09 => some (.sltSltu l true rd ra b)
  | 0x0A => some (.sltSltu l false rd ra b)
  | 0x0B => some (.mul l rd ra b)
  | 0x0C => some (.divRem l .div rd ra b)
  | 0x0D => some (.divRem l .divu rd ra b)
  | 0x0E => some (.divRem l .rem rd ra b)
  | 0x0F => some (.divRem l .remu rd ra b)
  | 0x10 => some (.lih l rd imm)
  | 0x11 => some (.ldlStl l false rd (gigMem w))
  | 0x12 => some (.ldlStl l true rd (gigMem w))
  | 0x13 => some (.ldsSts l false rd (gigMem w))
  | 0x14 => some (.ldsSts l true rd (gigMem w))
  | 0x15 => some (.ldp l rd (BitVec.ofNat 8 (bf w 39 32)))
  | 0x16 => some (.ldcap l rd (BitVec.ofNat 12 (bf w 43 32)))
  | 0x18 => some (br .beq)
  | 0x19 => some (br .bne)
  | 0x1A => some (br .blt)
  | 0x1B => some (br .bge)
  | 0x1C => some (br .bltu)
  | 0x1D => some (br .bgeu)
  | 0x1E => some (br .j)
  | 0x20 => some (.popf l rd)
  | 0x21 => some (.waitf l)
  | 0x22 => some (.mflush l)
  | 0x23 => some (.ret l)
  | 0x24 => some (.trap l)
  | _ => none

/-- The 8 B word of a scalar instruction, decoded to the Gig's command on a core, or none where the word is invalid: an unknown OP, a
reserved bit, a block access of another operation or past G31, or a POPF to another register than G8, G16 or G24 (R281, R282). -/
def gigInstr (l : Fin 96) (w : Nat) : Option Instr :=
  if bf w 31 27 ≠ 0 then none
  else match gigOp l w with
    | some (.ldlStl l st rd m) => if m.illegal rd false then none else some (.ldlStl l st rd m)
    | some (.ldsSts l st rd m) => if m.illegal rd true then none else some (.ldsSts l st rd m)
    | some (.popf l rd) => if popfOk rd then some (.popf l rd) else none
    | other => if bf w 26 26 = 1 then none else other

/-- A branch at index i of a routine of n instructions has its target in the routine; no other instruction has a target. -/
def gigTargetIn (i n : Nat) : Instr → Bool
  | .gigBranch _ _ _ _ imm => decide (0 ≤ (i : Int) + imm.toInt ∧ (i : Int) + imm.toInt < (n : Int))
  | _ => true

/-- One scalar instruction at index i of a routine of n instructions is valid (R244, R281). -/
def gigOk (i n w : Nat) : Bool := match gigInstr 0 w with | some g => gigTargetIn i n g | none => false

/-- The byte within the word of the field that makes a scalar instruction invalid: OP, the reserved bits, RD of a pop or of a block
access, BLK, or IMM as a target. -/
def gigFault (w : Nat) : Nat :=
  if (gigOp 0 w).isNone then 0
  else if bf w 31 27 ≠ 0 then 3
  else match gigInstr 0 w, gigOp 0 w with
    | some _, _ => 4
    | none, some (.popf _ _) => 1
    | none, some (.ldsSts _ _ _ _) => 1
    | none, _ => 3

/-- A scalar instruction is POPF. -/
def gigPopfCode (w : Nat) : Bool := bf w 7 0 = 0x20

/-- The parameter register an LDP names. -/
def gigPreg (w : Nat) : Option Nat := if bf w 7 0 = 0x15 then some (bf w 39 32) else none

end Sys2Proof.Machine
end

