-- ==== Sys2Proof/Machine/Sha.lean ====
section
/-! DEFINITION. SHA-384, which the spec names for every digest and describes nowhere (R246, R481, R482): the standard's function
(PRESUMED, log entry 12), its constants taken from the roots of primes that define them. -/

namespace Sys2Proof.Machine

/-- The largest number whose k-th power is at most n, built from its bits below 2^b upwards of acc. -/
def rootFrom (k n : Nat) : Nat → Nat → Nat
  | 0, acc => acc
  | b + 1, acc => rootFrom k n b (if (acc + 2 ^ b) ^ k ≤ n then acc + 2 ^ b else acc)

/-- The first 64 bits of the fraction of the k-th root of p, a number below 2^(8 k). -/
def rootFraction (k p : Nat) : W64 := BitVec.ofNat 64 (rootFrom k (p * 2 ^ (64 * k)) 72 0)

/-- The first 80 primes. -/
def digestPrimes : List Nat := (List.range 410).filter fun p => decide (2 ≤ p) && (List.range p).all fun d => decide (d < 2) || decide (p % d ≠ 0)

/-- One constant for each round: the cube roots. -/
def roundWords : List W64 := digestPrimes.map (rootFraction 3)

/-- A word turned right. -/
def W64.turn (w : W64) (n : Nat) : W64 := w.rotateRight n

/-- The chaining value, which is also the working state of a block. -/
structure Chain where
  w0 : W64
  w1 : W64
  w2 : W64
  w3 : W64
  w4 : W64
  w5 : W64
  w6 : W64
  w7 : W64
  deriving DecidableEq, Repr

/-- The chaining value of eight words. -/
def Chain.ofFn (f : Nat → W64) : Chain := ⟨f 0, f 1, f 2, f 3, f 4, f 5, f 6, f 7⟩

/-- The words of a chaining value. -/
def Chain.words (c : Chain) : List W64 := [c.w0, c.w1, c.w2, c.w3, c.w4, c.w5, c.w6, c.w7]

/-- The first chaining value: the square roots of the ninth to the sixteenth prime. -/
def Chain.first : Chain := .ofFn fun i => rootFraction 2 (digestPrimes.getD (8 + i) 0)

/-- One round: m is the round's constant and message word together. -/
def Chain.round (m : W64) (c : Chain) : Chain :=
  let choose := c.w6 ^^^ (c.w4 &&& (c.w5 ^^^ c.w6))
  let most := (c.w0 &&& (c.w1 ||| c.w2)) ||| (c.w1 &&& c.w2)
  let into := m + c.w7 + choose + (W64.turn c.w4 14 ^^^ W64.turn c.w4 18 ^^^ W64.turn c.w4 41)
  { w0 := into + most + (W64.turn c.w0 28 ^^^ W64.turn c.w0 34 ^^^ W64.turn c.w0 39)
    w1 := c.w0, w2 := c.w1, w3 := c.w2, w4 := c.w3 + into, w5 := c.w4, w6 := c.w5, w7 := c.w6 }

/-- The word that enters a window of sixteen message words, oldest first. -/
def nextWord (win : List W64) : W64 :=
  let old := win.getD 1 0
  let new := win.getD 14 0
  win.getD 0 0 + win.getD 9 0 + (W64.turn old 1 ^^^ W64.turn old 8 ^^^ old >>> 7) + (W64.turn new 19 ^^^ W64.turn new 61 ^^^ new >>> 6)

/-- The rounds of a block, the window moving on by a word at each. -/
def rounds : List W64 → List W64 → Chain → Chain
  | [], _, c => c
  | k :: ks, win, c => rounds ks (win.tail ++ [nextWord win]) (c.round (k + win.getD 0 0))

/-- Fold blocks of 128 bytes into a chaining value. -/
def absorb : Nat → List Byte → Chain → Chain
  | 0, _, c => c
  | n + 1, bs, c =>
    let win := (List.range 16).map fun i => BitVec.ofNat 64 (ofBytesBE (slice (8 * i) 8 bs))
    let out := (rounds roundWords win c).words
    absorb n (bs.drop 128) (.ofFn fun i => c.words.getD i 0 + out.getD i 0)

/-- A message made up to whole blocks: a one bit, zeros, and its length in bits in the last 16 bytes, most significant first. -/
def wholeBlocks (bs : List Byte) : List Byte :=
  let blocks := ceilDiv (bs.length + 17) 128
  bs ++ 0x80#8 :: List.replicate (128 * blocks - bs.length - 17) 0 ++ (bytesLE 16 (8 * bs.length)).reverse

/-- SHA-384 of a byte string, 48 bytes. -/
def sha384 (bs : List Byte) : List Byte :=
  let m := wholeBlocks bs
  (absorb (m.length / 128) m Chain.first).words.flatMap (fun w => (bytesLE 8 w.toNat).reverse) |>.take 48

end Sys2Proof.Machine
end

