-- ==== Sys2Proof/Machine/Translate.lean ====
section
/-! DEFINITION. The translator: an Ethaqua module's image is checked in the order of R244 and becomes a translation (R225 to
R249). -/

namespace Sys2Proof.Machine

/-- A refusal: its code and DETAIL (R244). -/
abbrev TErr := Nat × Nat

/-- A little-endian field of an image. -/
def leAt (bs : List Byte) (o n : Nat) : Nat := ofBytesLE (slice o n bs)

/-- A reserved field of n bytes at o that is not zero: its offset. -/
def firstSet (bs : List Byte) (o n : Nat) : Option Nat := if (slice o n bs).all (· = 0) then none else some o

/-- Refuse with a code and DETAIL when a test fails. -/
def need (ok : Bool) (code detail : Nat) : Except TErr Unit := if ok then .ok () else .error (code, detail)

/-- Refuse with the first offender of a list of optional offenders. -/
def needNone (code : Nat) (o : Option Nat) : Except TErr Unit :=
  match o with
  | none => .ok ()
  | some d => .error (code, d)

/-! ## Header and sections (R225 to R227) -/

/-- A section of the table: KIND, COUNT, OFFSET, LENGTH, CRC, and the offset of its entry. -/
structure Sect where
  kind : Nat
  count : Nat
  off : Nat
  len : Nat
  crc : Nat
  entry : Nat
  deriving DecidableEq, Repr

/-- Section kinds, as their four characters read little-endian. -/
def kCode : Nat := 0x45444F43
/-- GIGR. -/
def kGigr : Nat := 0x52474947
/-- PARM. -/
def kParm : Nat := 0x4D524150
/-- CNST. -/
def kCnst : Nat := 0x54534E43
/-- REQS. -/
def kReqs : Nat := 0x53514552
/-- VARN. -/
def kVarn : Nat := 0x4E524156
/-- SYMB. -/
def kSymb : Nat := 0x424D5953

/-- Entry i of the section table. -/
def sectAt (bs : List Byte) (i : Nat) : Sect :=
  let e := 64 + 32 * i
  ⟨leAt bs e 4, leAt bs (e + 4) 4, leAt bs (e + 8) 8, leAt bs (e + 16) 8, leAt bs (e + 24) 4, e⟩

/-- What the translation is for: the image with MODULE_LEN, whether it is a 1.x module, its sections, and the surroundings:
the partition's logical cores, capability copy, beat, scratch window. -/
structure TEnv where
  bs : List Byte
  v1 : Bool
  sects : List Sect
  cores : List Nat
  cap : Nat → W32
  beatLog : Nat
  budget : Nat
  winLo : Nat
  winHi : Nat

/-- A section by kind. -/
def TEnv.sect (t : TEnv) (k : Nat) : Option Sect := t.sects.find? fun s => s.kind = k

/-- The bytes of a section, none when it is absent. -/
def TEnv.body (t : TEnv) (k : Nat) : List Byte :=
  match t.sect k with
  | some s => slice s.off s.len t.bs
  | none => []

/-- Offset of a section. -/
def TEnv.base (t : TEnv) (k : Nat) : Nat := ((t.sect k).map (·.off)).getD 0

/-- COUNT of a section. -/
def TEnv.count (t : TEnv) (k : Nat) : Nat := ((t.sect k).map (·.count)).getD 0

/-- BAD_MAGIC, BAD_VERSION, TOO_LARGE, BAD_HEADER, the HDR_CRC part of BAD_CRC, the placement of the sections, and their
CRCs, in order (R225, R226, R244, R249). srcLen is SRC_LEN of the entry. -/
def checkHeader (bs : List Byte) (srcLen : Nat) : Except TErr (Bool × List Sect) := do
  need (leAt bs 0 4 = 0x444D5145) 0x0101 0
  let major := leAt bs 4 1
  let minor := leAt bs 5 1
  need (major = 2 || major = 1) 0x0102 4
  need (if major = 2 then minor = 0 else minor ≤ 3) 0x0102 5
  let v1 := decide (major = 1)
  let mlen := leAt bs 16 8
  need (mlen ≤ 0x10000000) 0x0114 16
  let sc := leAt bs 12 2
  needNone 0x0103 (firstSet bs 6 2)
  need (leAt bs 8 4 = 64 + 32 * sc) 0x0103 8
  need ((if v1 then 3 else 4) ≤ sc && sc ≤ 7) 0x0103 12
  needNone 0x0103 (firstSet bs 14 2)
  need (mlen = srcLen && 64 + 32 * sc ≤ mlen) 0x0103 16
  needNone 0x0103 (firstSet bs 56 4)
  let hdr := slice 0 (64 + 32 * sc) bs
  let hcrc := leAt bs 60 4
  need ((v1 && hcrc = 0) || hcrc = (crc32 (hdr.take 60 ++ bytesLE 4 0 ++ hdr.drop 64)).toNat) 0x0104 60
  let ss := (List.range sc).map (sectAt bs)
  let misplaced (s : Sect) : Bool := decide (s.off < 64 + 32 * sc) || decide (mlen < s.off + s.len) ||
    ss.any fun u => u.entry ≠ s.entry && u.len ≠ 0 && s.len ≠ 0 && decide (s.off < u.off + u.len) && decide (u.off < s.off + s.len)
  needNone 0x0105 ((ss.find? misplaced).map fun s => s.entry + 8)
  needNone 0x0104 ((ss.find? fun s => (crc32 (slice s.off s.len bs)).toNat ≠ s.crc).map fun s => s.entry + 24)
  return (v1, ss)

/-- Defects of REQS: the offset within it of the offending field (R235). -/
def reqsDefect (b : List Byte) : Option Nat :=
  let n := leAt b 10 2
  let sh := leAt b 2 2
  if 2 < leAt b 0 1 then some 0
  else if leAt b 1 1 ≠ 0 then some 1
  else if 512 < sh ∧ sh ≠ 0xFFFF then some 2
  else if 0x8000 ≤ leAt b 4 2 then some 4
  else if leAt b 6 2 = 0 ∨ 96 < leAt b 6 2 then some 6
  else if leAt b 8 1 < 10 ∨ 17 < leAt b 8 1 then some 8
  else if leAt b 9 1 < leAt b 8 1 ∨ 17 < leAt b 9 1 then some 9
  else if 24 < n then some 10
  else match firstSet b 12 52 with
    | some i => some i
    | none => ((List.range n).find? fun i => let o := leAt b (64 + 2 * i) 2; decide (o < 0x400) || decide (0x45C < o) || decide (o % 4 ≠ 0)).map
        fun i => 64 + 2 * i

/-- The rest of BAD_SECTION: the section table's rules, KINDs, counts, PARM's and REQS's lengths (R226, R227, R233, R235,
R249). -/
def TEnv.checkSections (t : TEnv) : Except TErr Unit := do
  needNone 0x0105 ((t.sects.find? fun s => s.off % 64 ≠ 0).map fun s => s.entry + 8)
  needNone 0x0105 (t.sects.findSome? fun s => firstSet t.bs (s.entry + 28) 4)
  let kinds := if t.v1 then [kCode, kParm, kReqs, kVarn, kSymb] else [kCode, kGigr, kParm, kCnst, kReqs, kVarn, kSymb]
  needNone 0x0105 ((t.sects.find? fun s => s.kind ∉ kinds).map (·.entry))
  needNone 0x0105 ((t.sects.find? fun s => t.sects.any fun u => decide (u.entry < s.entry) && decide (u.kind = s.kind)).map (·.entry))
  let must := if t.v1 then [kCode, kParm, kReqs] else [kCode, kParm, kReqs, kVarn]
  need (must.all fun k => (t.sect k).isSome) 0x0105 0
  let cnt (k lo hi : Nat) : Except TErr Unit :=
    match t.sect k with
    | none => .ok ()
    | some s => need (lo ≤ s.count && s.count ≤ hi) 0x0105 (s.entry + 4)
  cnt kCode 1 8
  cnt kGigr 1 256
  cnt kParm 0 256
  cnt kReqs 1 1
  match t.sect kParm with
  | some s => need (s.len = 16 * s.count) 0x0105 (s.entry + 16)
  | none => .ok ()
  let b := t.body kReqs
  need (64 ≤ b.length && b.length = 64 + 2 * leAt b 10 2) 0x0105 (t.base kReqs + 10)
  needNone 0x0105 ((reqsDefect b).map (t.base kReqs + ·))

/-- The capability list of REQS: entry offsets (R235). -/
def TEnv.capList (t : TEnv) : List Nat := let b := t.body kReqs; (List.range (leAt b 10 2)).map fun i => leAt b (64 + 2 * i) 2

/-- The values of the list's entries. -/
def TEnv.capVals (t : TEnv) : List W32 := t.capList.map t.cap

/-- REQ_UNMET (R235). -/
def TEnv.checkReqs (t : TEnv) : Except TErr Unit := do
  let b := t.body kReqs
  need (leAt b 6 2 ≤ t.cores.length) 0x0106 (t.base kReqs + 6)
  need (leAt b 8 1 ≤ t.beatLog) 0x0106 (t.base kReqs + 8)
  need (t.beatLog ≤ leAt b 9 1) 0x0106 (t.base kReqs + 9)

/-! ## CODE as it is laid out (R228, R229) -/

/-- An instruction as it lies in the image: offset, opcode, bits. -/
structure RawInsn where
  off : Nat
  op : Nat
  w : Nat
  deriving DecidableEq, Repr

/-- A declaration as it lies in the image. -/
structure RawDecl where
  off : Nat
  tag : Nat
  lsrc : Nat
  preg : Nat
  len : Nat
  deriving DecidableEq, Repr

/-- A block as it lies in the image: stream, id, offset, BUDGET, INSN_COUNT, DECL_COUNT, what could be read, and the offset of
what could not. -/
structure RawBlk where
  stream : Nat
  id : Nat
  off : Nat
  budget : Nat
  insns : List RawInsn
  decls : List RawDecl
  bad : Option Nat
  deriving DecidableEq, Repr

/-- Read n instructions from a byte list that begins at offset off; the offset of an opcode or NW that is invalid, or
by which an instruction runs out of the block (R257). -/
def rawInsns : Nat → Nat → List Byte → List RawInsn × Option Nat
  | 0, _, _ => ([], none)
  | n + 1, off, bs =>
    let op := leAt bs 0 1
    match opNw op with
    | none => ([], some off)
    | some nw =>
      if leAt bs 0 2 / 256 % 4 ≠ nw ∨ bs.length < 16 * (nw + 1) then ([], some (off + 1))
      else
        let r := rawInsns n (off + 16 * (nw + 1)) (bs.drop (16 * (nw + 1)))
        (⟨off, op, ofBytesLE (bs.take (16 * (nw + 1)))⟩ :: r.1, r.2)

/-- Read a block of CODE: b is CODE's bytes, base its offset in the image. -/
def rawBlock (b : List Byte) (base stream id o len : Nat) : RawBlk :=
  let k := slice o len b
  let at_ := base + o
  if b.length < o + len ∨ len < 32 then ⟨stream, id, at_, 0, [], [], some at_⟩
  else
    let nd := leAt k 8 2
    let dofs := leAt k 12 4
    let iofs := leAt k 16 4
    let hd : Option Nat :=
      if leAt k 3 1 ≠ 0 then some at_
      else if leAt k 7 1 ≠ 0 ∨ leAt k 4 3 = 0 then some (at_ + 4)
      else if nd ≠ 0 ∧ len < dofs + 8 * nd then some (at_ + 12)
      else if iofs % 16 ≠ 0 ∨ len < iofs then some (at_ + 16)
      else match firstSet k 10 2 with
        | some i => some (at_ + i)
        | none => (firstSet k 20 12).map (at_ + ·)
    let ds := (List.range nd).map fun i =>
      let d := dofs + 8 * i
      (⟨at_ + d, leAt k d 2, leAt k (d + 2) 1, leAt k (d + 3) 1, leAt k (d + 4) 4⟩ : RawDecl)
    let r := rawInsns (leAt k 4 3) (at_ + iofs) (k.drop iofs)
    ⟨stream, id, at_, leAt k 0 3, r.1, if len < dofs + 8 * nd then [] else ds, match hd with | some d => some d | none => r.2⟩

/-- A stream as it lies in the image: SLOT_MASK, blocks, and the offset of a defect of its tables. -/
structure RawStream where
  mask : Nat
  blks : List RawBlk
  bad : Option Nat
  deriving DecidableEq, Repr

/-- Read stream i of CODE. -/
def TEnv.rawStream (t : TEnv) (i : Nat) : RawStream :=
  let b := t.body kCode
  let base := t.base kCode
  let e := 32 * i
  let n := leAt b (e + 4) 4
  let tab := leAt b (e + 8) 8
  let entry := [(1, 3), (16, 16)].findSome? fun f => (firstSet b (e + f.1) f.2).map (base + ·)
  let bad : Option Nat :=
    if b.length < e + 32 then some (base + e)
    else if n = 0 ∨ 65536 < n then some (base + e + 4)
    else if b.length < tab + 16 * n then some (base + e + 8)
    else none
  if bad.isSome then ⟨leAt b e 1, [], bad⟩
  else
    let tabBad := (List.range n).findSome? fun j =>
      let o := leAt b (tab + 16 * j) 8
      let len := leAt b (tab + 16 * j + 8) 4
      if o % 64 ≠ 0 ∨ b.length < o then some (base + tab + 16 * j)
      else if len < 32 ∨ b.length < o + len then some (base + tab + 16 * j + 8)
      else (firstSet b (tab + 16 * j + 12) 4).map (base + ·)
    ⟨leAt b e 1, (List.range n).map fun j => rawBlock b base i j (leAt b (tab + 16 * j) 8) (leAt b (tab + 16 * j + 8) 4), entry.or tabBad⟩

/-- Every stream. -/
def TEnv.raws (t : TEnv) : List RawStream := (List.range (t.count kCode)).map t.rawStream

/-- Every block that could be found. -/
def rawBlks (ss : List RawStream) : List RawBlk := ss.flatMap (·.blks)

/-- Every instruction that could be read. -/
def rawAll (ss : List RawStream) : List RawInsn := (rawBlks ss).flatMap (·.insns)

/-! ## FORMAT, CAP (R103, R131, R139, R235, R249) -/

/-- Formats of a 1.x module (R249). -/
def v1Fmts : List Nat := [0, 1, 2, 3, 4, 8, 9, 0xA, 0xB, 0xD, 0xE]

/-- The fields by which an instruction names a format or a use of one, and whether it is its unit's, whatever its other fields hold: FORMAT is judged
before BAD_CODE (R103, R131, R139, R180, R181, R244, R274). A reserved WF or OP is no format; BAD_CODE refuses it. -/
def fieldsFmt (op w : Nat) : List FieldCheck :=
  let fmt (hi lo : Nat) (ok : Fmt → Bool) : Bool := (Fmt.ofCode (bf w hi lo)).any ok
  let use (o : Nat) (f : Nat) : Bool := match laneOpOf o, wfOf f with | some o, some f => o.inWf f | _, _ => true
  match op with
  | 0x10 => [(58, fmt 61 58 fun _ => true), (54, fmt 57 54 fun _ => true), (54, fmt 61 58 fun a => fmt 57 54 (mxaPair a)),
      (50, bf w 50 50 = 0 || fmt 61 58 Fmt.scaled), (49, bf w 49 49 = 0 || fmt 57 54 Fmt.scaled)]
  | 0x12 => [(18, fmt 21 18 fun o => mxaOut .i8 o || mxaOut .f16w o)]
  | 0x13 => [(18, fmt 21 18 fun o => mxaOut .i8 o || mxaOut .f16w o)]
  | 0x20 => [(22, use (bf w 20 16) (bf w 24 22))]
  | 0x21 => if bf w 31 30 = 0 then [(188, use (bf w 20 16) (bf w 190 188) && use (bf w 25 21) (bf w 190 188))] else []
  | 0x23 => [(51, (wfOf (bf w 53 51)).all fun s => s.wide = (bf w 16 16 = 1)), (56, (wfOf (bf w 58 56)).all fun d => d.wide != (bf w 16 16 = 1))]
  | _ => if 0x50 ≤ op ∧ op ≤ 0x56 then [(24, fmt 27 24 collFmt)] else []

/-- The byte of the image at which an instruction names a format that its module's version or its unit does not support. -/
def TEnv.insnFmtBad (t : TEnv) (r : RawInsn) : Option Nat :=
  (firstFail ((insnFmts r.op).map (fun b => (b, !t.v1 || decide (bf r.w (b + 3) b ∈ v1Fmts))) ++ fieldsFmt r.op r.w)).map fun b => r.off + b / 8

/-- CAP: the byte at which a capability operand names an entry outside the list (R235, R244). -/
def TEnv.insnCapBad (t : TEnv) (r : RawInsn) : Option Nat :=
  ((insnCapAt r.op r.w).find? fun b => decide (t.capList.length ≤ bf r.w (b + 20) (b + 16))).map fun b => r.off + (b + 16) / 8

/-! ## Paths through a block (R134, R138, R139, R262) -/

/-- Successors of an instruction. -/
def CoreInsn.succs (i : CoreInsn) (pc : Nat) : List Nat :=
  match i with
  | .br none t => [t.toNat]
  | .br _ t => [pc + 1, t.toNat]
  | .loop _ t => [pc + 1, t.toNat]
  | .beat _ => []
  | _ => [pc + 1]

/-- A place on a path: the instruction, the mode in force, whether a tile load is outstanding. -/
structure PathSt where
  pc : Nat
  mode : Option MmodeOp
  load : Bool
  deriving DecidableEq, Repr

/-- What one instruction breaks at a place: 0x0107 FORMAT or 0x0108 BAD_CODE, and the byte of the field within the instruction. -/
def CoreInsn.breaks (i : CoreInsn) (s : PathSt) : Option (Nat × Nat) :=
  let code (cs : List FieldCheck) : Option (Nat × Nat) := (firstFail cs).map fun b => (0x0108, b / 8)
  match i, s.mode with
  | .mload _, _ => code [(0, !s.load)]
  | .mstream o, some m =>
    if m.df ≠ .os then
      (if !mxaOut m.fmtR o.fmtO then some (0x0107, 2) else code [(64, o.cdesc.isZero), (288, decide (o.mt = 0)), (296, decide (o.nt = 0))])
    else code [(96, o.odesc.isZero), (128, o.pdesc.isZero)]
  | .mdrain o, some m => if m.df = .os ∧ !mxaOut m.fmtR o.fmtO then some (0x0107, 2) else none
  | _, _ => none

/-- The place after one instruction, but for its index. -/
def CoreInsn.after (i : CoreInsn) (s : PathSt) : PathSt :=
  match i with
  | .mmode o => { s with mode := some o }
  | .mload _ => { s with load := true }
  | .mstream o => { s with load := s.load && !o.swap }
  | _ => s

/-- Walk every path of a block: the first break found, with the index of its instruction and the byte of the field. -/
def pathWalk (is : List CoreInsn) : Nat → List PathSt → List PathSt → Option (Nat × Nat × Nat)
  | 0, _, _ => none
  | _, [], _ => none
  | fuel + 1, s :: work, seen =>
    match is[s.pc]? with
    | none => pathWalk is fuel work seen
    | some i =>
      match i.breaks s with
      | some c => some (c.1, s.pc, c.2)
      | none =>
        let nexts := (i.succs s.pc).map fun p => { i.after s with pc := p }
        let new := (nexts.filter fun x => x ∉ seen ∧ x ∉ work ∧ x ≠ s).eraseDups
        pathWalk is fuel (work ++ new) (s :: seen)

/-- The break of a block's paths. -/
def pathBreak (is : List CoreInsn) : Option (Nat × Nat × Nat) :=
  pathWalk is (2 * (is.length + 1) * (is.length + 1)) [⟨0, none, false⟩] []

/-! ## PARM (R233) -/

/-- The parameter definitions. -/
def TEnv.parms (t : TEnv) : List ParmDef :=
  let b := t.body kParm
  (List.range (t.count kParm)).map fun i => ⟨leAt b (16 * i) 1, leAt b (16 * i + 1) 1, leAt b (16 * i + 2) 1, BitVec.ofNat 64 (leAt b (16 * i + 8) 8)⟩

/-- A value satisfies a KIND. -/
def parmKindOk (kind v : Nat) : Bool :=
  if kind = 0 then true else if kind = 1 then decide (v < 2 ^ 32) else if kind = 2 then decide (v < 2 ^ 48) else if kind = 3 then decide (v < 0x800000) else false

/-- The first offender of PARM's own entries. -/
def TEnv.parmDefect (t : TEnv) : Option Nat :=
  let b := t.body kParm
  let ps := t.parms
  (List.range ps.length).findSome? fun i =>
    let e := 16 * i
    let o := t.base kParm + e
    if (ps.take i).any (fun q => q.reg = leAt b e 1) || (t.v1 && decide (128 ≤ leAt b e 1)) then some o
    else if 4 ≤ leAt b (e + 1) 1 then some (o + 1)
    else if 4 ≤ leAt b (e + 2) 1 then some (o + 2)
    else match firstSet b (e + 3) 5 with
      | some j => some (t.base kParm + j)
      | none => if parmKindOk (leAt b (e + 1) 1) (leAt b (e + 8) 8) then none else some (o + 8)

/-- A register that may be named. -/
def TEnv.declared (t : TEnv) (r : Nat) : Bool := (!t.v1 || decide (r < 128)) && (t.parms.any fun q => q.reg = r)

/-! ## Blocks decoded -/

/-- A block decoded: its place, declarations, instructions. -/
structure DecBlk where
  raw : RawBlk
  insns : List CoreInsn
  deriving DecidableEq, Repr

/-- Decode a block; the offset of an instruction that cannot be. -/
def TEnv.decBlk (t : TEnv) (r : RawBlk) : Except TErr DecBlk :=
  match r.bad with
  | some d => .error (0x0108, d)
  | none =>
    match r.insns.find? fun i => (insnOf t.capVals i.op i.w).isNone with
    | some i => .error (0x0108, i.off + insnFault t.capVals i.op i.w)
    | none => .ok ⟨r, r.insns.filterMap fun i => insnOf t.capVals i.op i.w⟩

/-- Offset of instruction i of a block. -/
def DecBlk.at_ (d : DecBlk) (i : Nat) : Nat := ((d.raw.insns[i]?).map (·.off)).getD d.raw.off

/-- The structural rules of R231 on one block of a stream of n blocks: BEAT last and only last, branch targets, block
identifiers. The offset of the offending field: the opcode, NEXT of a BEAT that falls through, b, or T. -/
def DecBlk.shapeBad (d : DecBlk) (n : Nat) : Option Nat :=
  let last := d.insns.length - 1
  let falls := decide (n ≤ d.raw.id + 1)
  (List.range d.insns.length).findSome? fun i =>
    ((d.insns[i]?).bind fun x =>
      let own : List FieldCheck := match x with
        | .beat .fall => [(0, i = last), (16, !falls)]
        | .beat (.goto b) => [(0, i = last), (48, decide (b.toNat < n))]
        | .beat (.ifK _ b) => [(0, i = last), (48, decide (b.toNat < n)), (16, !falls)]
        | .beat .fin => [(0, i = last)]
        | .br _ x => [(0, i ≠ last), (40, decide (x.toNat < d.insns.length))]
        | .loop _ x => [(0, i ≠ last), (40, decide (x.toNat < d.insns.length))]
        | _ => [(0, i ≠ last)]
      firstFail own).map fun b => d.at_ i + b / 8

/-- A reserved field or value of a declaration: the field's offset (R230). -/
def RawDecl.bad (d : RawDecl) : Option Nat :=
  if 3 ≤ d.lsrc then some (d.off + 2)
  else if decide (d.lsrc = 0) = decide (d.len = 0) then some (d.off + 4)
  else none

/-- The byte of a SOFS that names a parameter register whose KIND is not SOFS (R258). -/
def TEnv.sofsBad (t : TEnv) (r : RawInsn) : Option Nat :=
  ((opSofs r.op r.w).find? fun b => bf r.w (b + 23) (b + 23) = 1 && (t.parms.any fun q => q.reg = bf r.w (b + 7) b && q.kind ≠ 3)).map
    fun b => r.off + b / 8

/-- The BAD_CODE stage over the decoded streams (R228, R231, R257, R262). -/
def TEnv.checkCode (t : TEnv) (ss : List RawStream) : Except TErr (List (Nat × List DecBlk)) := do
  needNone 0x0108 (ss.findSome? (·.bad))
  let masks := ss.map (·.mask)
  needNone 0x0108 (((List.range ss.length).find? fun i => (masks.take i).any fun m => Nat.land m (masks.getD i 0) ≠ 0).map fun i => t.base kCode + 32 * i)
  needNone 0x0108 (((List.range ss.length).find? fun i => ((ss[i]?).map (·.blks.length)) ≠ ((ss.head?).map (·.blks.length))).map fun i => t.base kCode + 32 * i + 4)
  let ds ← ss.mapM fun s => do
    let bs ← s.blks.mapM t.decBlk
    return (s.mask, bs)
  let all := ds.flatMap (·.2)
  needNone 0x0108 ((rawAll ss).findSome? t.sofsBad)
  needNone 0x0108 (all.findSome? fun d => d.raw.decls.findSome? RawDecl.bad)
  needNone 0x0108 (ds.findSome? fun s => s.2.findSome? fun d => d.shapeBad s.2.length)
  needNone 0x0108 (all.findSome? fun d => (pathBreak d.insns).bind fun x => if x.1 = 0x0108 then some (d.at_ x.2.1 + x.2.2) else none)
  return ds

/-! ## TAGS (R230, R231, R274, R409) -/

/-- The tags that the translator adds for an instruction. -/
def CoreInsn.addedTags : CoreInsn → List Nat
  | .callr o => [o.ctag.toNat] | .crscat o => [o.ctag.toNat] | .cagath o => [o.ctag.toNat] | .cbcast o => [o.ctag.toNat]
  | .ca2a o => [o.ctag.toNat] | .cperm o => [o.ctag.toNat] | .ca2av o => [o.ctag.toNat, o.ctag.toNat + 1]
  | _ => []

/-- All local tags of a block, declared and added. -/
def DecBlk.tags (d : DecBlk) : List Nat := d.raw.decls.map (·.tag) ++ d.insns.flatMap CoreInsn.addedTags

/-- The TAGS stage on one block. -/
def DecBlk.tagBad (d : DecBlk) : Option Nat :=
  let declTwice := (List.range d.raw.decls.length).find? fun i =>
    (d.raw.decls.take i).any fun x => some x.tag = (d.raw.decls[i]?).map (·.tag)
  match declTwice with
  | some i => (d.raw.decls[i]?).map (·.off)
  | none =>
    match (List.range d.insns.length).find? fun i =>
      let added := ((d.insns.drop i).head?.map CoreInsn.addedTags).getD []
      let before := d.raw.decls.map (·.tag) ++ (d.insns.take i).flatMap CoreInsn.addedTags
      added.any fun x => decide (65535 < x) || decide (x ∈ before) with
    | some i => some (d.at_ i + 6)
    | none => (List.range d.insns.length).findSome? fun i =>
      match (d.insns[i]? : Option CoreInsn) with
      | some (CoreInsn.waitarr (some x)) => if x.toNat ∈ d.tags then none else some (d.at_ i + 4)
      | some (.xget o) => if o.tag.toNat ∈ d.tags then none else some (d.at_ i + 4)
      | _ => none

/-- The TAGS stage: and the count of R231's last rule. -/
def TEnv.checkTags (t : TEnv) (ds : List (Nat × List DecBlk)) : Except TErr Unit := do
  needNone 0x010A ((ds.flatMap (·.2)).findSome? fun d => if 4096 < d.raw.decls.length then some (d.raw.off + 8) else none)
  needNone 0x010A (ds.findSome? fun s => s.2.findSome? DecBlk.tagBad)
  let perStream (s : Nat × List DecBlk) : Nat :=
    (s.2.foldl (fun m d => max m d.tags.length) 0) * (t.cores.filter fun l => s.1.testBit (l % 8)).length
  need ((ds.map perStream).sum ≤ 4096) 0x010A 0

/-! ## GIGR, VARN, CNST (R232, R234, R236, R281) -/

/-- The routines: offset in the image, and their instructions. -/
def TEnv.routines (t : TEnv) : List (Nat × Nat × List Nat) :=
  let b := t.body kGigr
  (List.range (t.count kGigr)).map fun i =>
    let o := leAt b (16 * i) 8
    let n := leAt b (16 * i + 8) 4
    (o, n, (List.range (min n (b.length - o) / 8)).map fun j => leAt b (o + 8 * j) 8)

/-- The first offender of GIGR. -/
def TEnv.gigDefect (t : TEnv) : Option Nat :=
  let b := t.body kGigr
  let base := t.base kGigr
  let rs := t.routines
  if (t.sect kGigr).isNone then none
  else if b.length < 16 * rs.length then (t.sect kGigr).map fun s => s.entry + 16
  else (List.range rs.length).findSome? fun i =>
    match rs[i]? with
    | none => none
    | some r =>
      if b.length < r.1 ∨ r.1 < 16 * rs.length then some (base + 16 * i)
      else if r.2.1 % 8 ≠ 0 ∨ r.2.1 = 0 ∨ b.length < r.1 + r.2.1 then some (base + 16 * i + 8)
      else match firstSet b (16 * i + 12) 4 with
        | some j => some (base + j)
        | none => ((List.range r.2.2.length).find? fun j => !gigOk j r.2.2.length (r.2.2.getD j 0)).map fun j =>
            base + r.1 + 8 * j + gigFault (r.2.2.getD j 0)

/-- A GCALL names a routine that the table does not hold. -/
def TEnv.gcallBad (t : TEnv) (ds : List (Nat × List DecBlk)) : Option Nat :=
  ds.findSome? fun s => s.2.findSome? fun d => (List.range d.insns.length).findSome? fun i =>
    match (d.insns[i]? : Option CoreInsn) with
    | some (CoreInsn.gcall o) => if o.routine.toNat < t.count kGigr then none else some (d.at_ i + 4)
    | _ => none

/-- The variance class of an instruction: 1 ORDER, 2 FRG (R236, R261). -/
def TEnv.varClass (t : TEnv) (i : CoreInsn) : Option Nat :=
  match i with
  | .vdraw o => if o.frg then some 2 else none
  | .xatom o => if o.aop = .faddF32 then some 1 else none
  | .callr _ => some 1
  | .crscat _ => some 1
  | .gcall o => match (t.routines)[o.routine.toNat]? with
    | some r => if r.2.2.any gigPopfCode then some 1 else none
    | none => none
  | _ => none

/-- Every marked instruction: stream, class, block, index. -/
def TEnv.marks (t : TEnv) (ds : List (Nat × List DecBlk)) : List (Nat × Nat × Nat × Nat) :=
  (List.range ds.length).flatMap fun s => ((ds[s]?).map (·.2)).getD [] |>.flatMap fun d =>
    (List.range d.insns.length).filterMap fun i => ((d.insns[i]?).bind t.varClass).map fun c => (s, c, d.raw.id, i)

/-- The VARIANCE stage; a 1.x module's table is built from the marks (R236, R249). -/
def TEnv.checkVarn (t : TEnv) (ds : List (Nat × List DecBlk)) : Except TErr Unit :=
  let b := t.body kVarn
  let n := t.count kVarn
  if t.v1 then .ok ()
  else if b.length ≠ 8 * n then .error (0x010B, ((t.sect kVarn).map (·.entry + 16)).getD 0)
  else
    let es := (List.range n).map fun i => (leAt b (8 * i) 1, leAt b (8 * i + 1) 1, leAt b (8 * i + 2) 2, leAt b (8 * i + 4) 4)
    let ms := t.marks ds
    match (List.range n).find? fun i =>
        let e := es.getD i (0, 0, 0, 0)
        e ∉ ms || e ∈ es.take i || (e.2.1 = 2 && leAt (t.body kReqs) 0 1 ≠ 0) with
    | some i => .error (0x010B, t.base kVarn + 8 * i)
    | none => need (ms.all fun m => m ∈ es) 0x010B 0

/-- Read n constant records from the bytes of CNST: each with its offset in it and the offset in it of a reserved field that is not zero, if any; and
the LENGTH field of a record that does not fit (R234). -/
def cnstRecs : Nat → Nat → List Byte → List (Nat × ConstDef × Option Nat) × Option Nat
  | 0, _, _ => ([], none)
  | n + 1, o, b =>
    let len := leAt b 8 4
    let size := ceilDiv (16 + len) 64 * 64
    if b.length < size then ([], some (o + 8))
    else
      let dirty := [(1, 3), (12, 4), (16 + len, size - 16 - len)].findSome? fun f => firstSet b f.1 f.2
      let r := cnstRecs n (o + size) (b.drop size)
      ((o, ⟨leAt b 0 1, leAt b 4 4, slice 16 len b⟩, dirty) :: r.1, r.2)

/-- The constant records. -/
def TEnv.consts (t : TEnv) : List ConstDef := (cnstRecs (t.count kCnst) 0 (t.body kCnst)).1.map fun r => r.2.1

/-- SHADOW of REQS. -/
def TEnv.shadow (t : TEnv) : Nat := leAt (t.body kReqs) 2 2

/-- The first offender of CNST (R234, R445). -/
def TEnv.cnstDefect (t : TEnv) : Option Nat :=
  if (t.sect kCnst).isNone then none
  else
    let rs := (cnstRecs (t.count kCnst) 0 (t.body kCnst)).1
    let top := if t.shadow = 0xFFFF then t.winHi else t.winHi - min (t.shadow * 4096) (t.winHi - t.winLo)
    let misplaced (r : Nat × ConstDef × Option Nat) : Bool :=
      let c := r.2.1
      decide (c.off % 64 ≠ 0) || decide (0x800000 ≤ c.off) || decide (c.off < t.winLo) || decide (top < c.off + c.data.length) ||
        rs.any fun q => decide (q.1 < r.1) && decide (Nat.land q.2.1.mask c.mask ≠ 0) && decide (q.2.1.off < c.off + c.data.length) &&
          decide (c.off < q.2.1.off + q.2.1.data.length)
    let bad := rs.findSome? fun r => match r.2.2 with
      | some d => some (r.1 + d)
      | none => if misplaced r then some (r.1 + 4) else none
    match bad, (cnstRecs (t.count kCnst) 0 (t.body kCnst)).2 with
    | some d, _ => some (t.base kCnst + d)
    | none, some d => some (t.base kCnst + d)
    | none, none =>
      if (List.range 8).any fun j => 524288 < ((rs.filter fun r => r.2.1.mask.testBit j).map fun r => r.2.1.data.length).sum then some 0 else none

/-- The descriptors of format-carrying kinds that an instruction names by an immediate offset. -/
def insnDescs (op w : Nat) : List Nat :=
  (opSofs op w).filterMap fun b =>
    let used := op ≠ 0x21 || bf w 31 30 ≠ 0 ||
      (if b = 32 then bf w 202 202 = 0 else if b = 160 then bf w 28 26 ≠ 0
       else decide ((b - 64) / 32 < ((laneOpOf (bf w 20 16)).map LaneOp.arity).getD 0) && decide ((b - 64) / 32 + 1 ≠ bf w 201 200))
    if (op = 0x21 ∨ op = 0x24) ∧ used ∧ bf w (b + 23) (b + 23) = 0 then some (bf w (b + 22) b) else none

/-- FORMAT: a descriptor carries format code 0xF. The translator sees a descriptor that a CNST record lays down in a slot of the stream
whose instruction names it by an immediate offset; the byte of the record's FMT (R103, R174, R234; DEDUCED, log entry 89). -/
def TEnv.descFmtBad (t : TEnv) (ss : List RawStream) : Option Nat :=
  let recs := (cnstRecs (t.count kCnst) 0 (t.body kCnst)).1
  ss.findSome? fun s => (s.blks.flatMap (·.insns)).findSome? fun i => (insnDescs i.op i.w).findSome? fun d =>
    recs.findSome? fun r =>
      if Nat.land r.2.1.mask s.mask ≠ 0 ∧ r.2.1.off ≤ d ∧ d + 4 ≤ r.2.1.off + r.2.1.data.length ∧ leAt r.2.1.data (d - r.2.1.off + 3) 1 % 16 = 15
      then some (t.base kCnst + r.1 + 16 + (d - r.2.1.off) + 3) else none

/-! ## OVERLAP (R157, R267, R410) -/

/-- Two ranges of n and m bytes meet. -/
def meets (a n b m : Nat) : Bool := decide (a < b + m) && decide (b < a + n)

/-- A static overlap of one instruction: both ranges from immediate operands alone. -/
def CoreInsn.staticOverlap : CoreInsn → Bool
  | .dcopy o =>
    let same := o.ssp = o.dsp && (o.ssp ≠ .peer || o.sLc = o.dLc)
    match o.src, o.dst, o.len with
    | .imm s, .imm d, .imm n => same && meets (s.signExtend 64).toNat n.toNat (d.signExtend 64).toNat n.toNat
    | _, _, _ => false
  | .callr o => laps .callr o | .crscat o => laps .crscat o | .cagath o => laps .cagath o | .cbcast o => laps .cbcast o
  | .cperm o => laps .cperm o
  | _ => false
where
  /-- The ranges of a collective whose SRC and DST are COUNT elements. -/
  laps (k : CollKind) (o : CollOp) : Bool :=
    match o.src, o.dst, o.count with
    | .imm s, .imm d, .imm n => collOverlap k o (s.signExtend 64).toNat (d.signExtend 64).toNat (o.fmt.rowBytes n.toNat) (o.fmt.rowBytes n.toNat)
    | _, _, _ => false

/-! ## The translation (R244 to R247) -/

/-- A value that keeps its first occurrence of each member. -/
def dedup {α : Type} [DecidableEq α] : List α → List α
  | [] => []
  | x :: xs => x :: (dedup xs).filter (· ≠ x)

/-- The translated block of a decoded one: BUDGET 0 is the largest (R239); the added declarations are Stage declarations. -/
def TEnv.block (t : TEnv) (d : DecBlk) : BlockDef where
  budget := if d.raw.budget = 0 then t.budget else d.raw.budget
  decls := (d.raw.decls.map fun x => ⟨x.tag, x.lsrc, x.preg, x.len, false⟩) ++
    (d.insns.flatMap CoreInsn.addedTags).map fun x => ⟨x, 0, 0, 0, true⟩
  insns := d.insns

/-- The fields recorded with their values (R247): what capability operands name, CAP_BEAT, CAP_BEAT_CYC, CAP_BAYS [3:0], and
CAP_SCR with a CNST section; in increasing offset. -/
def TEnv.recorded (t : TEnv) (ss : List RawStream) : List CapRec :=
  let ops := dedup ((rawAll ss).flatMap fun r => insnCaps r.op r.w)
  let caps := ops.map fun c =>
    let off := t.capList.getD c.1 0
    (⟨off, c.2.1, c.2.2, fld (t.cap off) (c.2.1 + c.2.2 - 1) c.2.1⟩ : CapRec)
  let whole (off w : Nat) : CapRec := ⟨off, 0, w, fld (t.cap off) (w - 1) 0⟩
  let all := caps ++ [whole 0x410 4] ++ (if (t.sect kCnst).isSome then [whole 0x418 32] else []) ++ [whole 0x440 32, whole 0x444 32]
  (List.range 24).flatMap fun i => dedup (all.filter fun r => r.off = 0x400 + 4 * i)

/-- Group slots that collectives of the module name (R401). -/
def grpsOf (ds : List (Nat × List DecBlk)) : List Nat :=
  dedup (ds.flatMap fun s => s.2.flatMap fun d => d.insns.filterMap fun i =>
    match i with
    | .callr o => some o.grp.val | .crscat o => some o.grp.val | .cagath o => some o.grp.val | .cbcast o => some o.grp.val
    | .ca2a o => some o.grp.val | .ca2av o => some o.grp.val | .cperm o => some o.grp.val
    | _ => none)

/-- The translated form: the native stream of each logical core of the partition in increasing order, the Gig code, the recorded values in
increasing offset order (R246). It depends on the version and on the sections but for SYMB, on the size of the partition, the translator
version and the recorded values: on no name, symbol or byte between sections (R225, R226, R237). -/
def TEnv.native (t : TEnv) (tver : Nat) (vals : List Nat) : List Byte :=
  let src := slice 4 2 t.bs :: [kCode, kGigr, kParm, kCnst, kReqs, kVarn].map t.body
  let n := t.cores.length
  (List.range n).flatMap (fun i => Config.nativeStream src n i tver vals) ++ Config.nativeGig src n tver vals ++ Config.nativeCaps vals

/-- Check an image whose header and sections were found, in the order of R244 from BAD_SECTION on, and translate it; MIN_MODE of a 1.x module is
taken as FAST (R249). -/
def TEnv.translate (t : TEnv) (tver capGen : Nat) : Except TErr Module := do
  t.checkSections
  t.checkReqs
  let ss := t.raws
  let b := t.body kReqs
  need (Nat.land (leAt b 4 2) (fld (t.cap 0x41C) 14 0) = leAt b 4 2) 0x0107 (t.base kReqs + 4)
  needNone 0x0107 (if t.v1 && (List.range 15).any (fun j => (leAt b 4 2).testBit j && decide (j ∉ v1Fmts)) then some (t.base kReqs + 4) else none)
  needNone 0x0107 ((rawAll ss).findSome? t.insnFmtBad)
  needNone 0x0107 (t.descFmtBad ss)
  needNone 0x0107 ((rawBlks ss).findSome? fun r => match t.decBlk r with
    | .ok d => (pathBreak d.insns).bind fun x => if x.1 = 0x0107 then some (d.at_ x.2.1 + x.2.2) else none
    | .error _ => none)
  needNone 0x0110 ((rawAll ss).findSome? t.insnCapBad)
  needNone 0x010C t.parmDefect
  needNone 0x010C ((rawAll ss).findSome? fun r => ((insnPregs r.op r.w).find? fun p => !t.declared (bf r.w (p + 7) p)).map fun p => r.off + p / 8)
  needNone 0x010C (((rawBlks ss).flatMap (·.decls)).find? (fun d => d.lsrc = 1 && !t.declared d.preg) |>.map (·.off + 3))
  needNone 0x010C (t.routines.findSome? fun r => ((List.range r.2.2.length).find? fun j => (gigPreg (r.2.2.getD j 0)).any fun p => !t.declared p).map
    fun j => t.base kGigr + r.1 + 8 * j + 4)
  let ds ← t.checkCode ss
  needNone 0x0109 ((rawBlks ss).find? (fun r => t.budget < r.budget) |>.map (·.off))
  t.checkTags ds
  t.checkVarn ds
  needNone 0x010E t.gigDefect
  needNone 0x010E (t.gcallBad ds)
  needNone 0x010D t.cnstDefect
  -- two ranges overlap: no single field is at fault
  need (ds.all fun s => s.2.all fun d => d.insns.all fun x => !x.staticOverlap) 0x010F 0
  let recs := t.recorded ss
  let native := t.native tver (recs.map (·.value))
  return { digest := sha384 t.bs
           xlt := sha384 native
           capGen := capGen
           caps := recs
           minMode := if t.v1 then 0 else leAt b 0 1
           shadow := t.shadow
           streams := ds.map fun s => ⟨s.1, s.2.map t.block⟩
           routines := t.routines.map fun r => r.2.2.map (BitVec.ofNat 64)
           parms := t.parms
           consts := t.consts
           grps := grpsOf ds
           bytes := native.length }

end Sys2Proof.Machine
end

