-- ==== Sys2Proof/Machine/Modules.lean ====
section
/-! DEFINITION. Measurement extends (R481 to R484), the service of LOAD_MODULE and UNLOAD_MODULE (R242 to R248) and the acceptance
of LAUNCH (R250 to R256). -/

namespace Sys2Proof.Machine

/-! ## Measurement slots (R481) -/

/-- Measurement slot i: 48 bytes. -/
def Chaise.slot (c : Chaise) (i : Nat) : List Byte := tget (fun _ => List.replicate 48 0) c.slots i

/-- SEC_MEAS shows the slots, low byte of each word first (R495). -/
def Pages.showSlot (i : Nat) (d : List Byte) (p : Pages) : Pages :=
  p.wrList (Reg.SEC_MEAS (12 * i)) ((List.range 12).map fun j => BitVec.ofNat 32 (ofBytesLE (slice (4 * j) 4 d)))

/-- A FUSE word as a rule of the device reads it: whether it fails its check, with FUSE_ECC when an injection fires there, and its
value (R492, R529). -/
def Hw.fuseWord (off : Nat) (h : Hw) : Bool × W32 × Hw :=
  let f := h.pg.detect Pg.fuse 0 off none false
  (f.1 || decide (off ∈ h.chaise.fuseBad), h.pg.rd (regKey Pg.fuse off), { h with dev := { h.dev with pg := f.2 } })

/-- FUSE_POLICY.DBG_LOCK and MEAS_ALL: 1 where the word fails its check (R483, R491, R492). -/
def Hw.fusePolicy (h : Hw) : Bool × Bool × Hw :=
  let f := h.fuseWord 0x044
  (f.1 || wbit f.2.1 8, f.1 || wbit f.2.1 0, f.2.2)

/-- A digest of the SHA-384 engine: a parity failure has it computed again (R495). -/
def Hw.hashed (h : Hw) : Hw := { h with dev := (h.dev.detect Pg.sec 0 0 none false).2 }

/-- Extend a slot with a digest, and log the extend while the log has room (R481). -/
def Hw.extend (i : Nat) (d : List Byte) (h0 : Hw) : Hw :=
  let h := h0.hashed
  let c := h.chaise
  let v := sha384 (c.slot i ++ d)
  let room := decide (c.mel.length < 1024)
  let c1 := { c with
    slots := tset (fun _ => List.replicate 48 0) c.slots i v
    mel := if room then c.mel ++ [⟨i, d, Config.melDesc i c.mel.length⟩] else c.mel }
  ({ h with chaise := c1 } : Hw).onPg fun p =>
    let p1 := (p.showSlot i v).count Reg.SEC_EXT_LO 1
    if room then p1.wr Reg.SEC_MEL_CNT (BitVec.ofNat 32 (c.mel.length + 1)) else p1.setb Reg.SEC_STAT 29 true

/-- ASCII text as bytes. -/
def asciiOf (s : String) : List Byte := s.toList.map fun c => BitVec.ofNat 8 c.toNat

/-! ## The host-side DMA through a context's translation (R306, R314) -/

/-- Read a CVA range as a reader that no Bay serves: none where it fails translation or reads poison; the flag tells the
two apart (true: translation). -/
def Hw.cvaRead (r : Reader) (c a n : Nat) (h : Hw) : Except Bool (List Byte) × Hw :=
  let t := h.dev.translate r 0xFF c a n false
  match t.1 with
  | .error _ => (.error true, { h with dev := t.2 })
  | .ok segs =>
    let x := t.2.readSegs r (h.pg.ctxId c) segs
    (match x.1 with | none => .error false | some bs => .ok bs, { h with dev := x.2 })

/-- Write a CVA range so: false where it fails translation, with nothing written. -/
def Hw.cvaWrite (r : Reader) (c a : Nat) (bs : List Byte) (h : Hw) : Bool × Hw :=
  let t := h.dev.translate r 0xFF c a bs.length true
  match t.1 with
  | .error _ => (false, { h with dev := t.2 })
  | .ok segs => (true, { h with dev := t.2.writeSegs r (h.pg.ctxId c) segs bs })

/-! ## LOAD_MODULE (R242 to R248) -/

/-- DEV_STATE.STATE (R100). -/
def Pages.devState (p : Pages) : Nat := p.get Reg.DEV_STATE 3 0

/-- Update the LOAD_MODULE entries that the Chaise has to serve. -/
def Hw.modLoads (f : List LoadReq → List LoadReq) (h : Hw) : Hw := { h with hif := { h.hif with loads := f h.hif.loads } }

/-- The result buffer's every byte can be reached and none is poisoned (R244). -/
def Hw.resReach (c a : Nat) (h : Hw) : Bool × Hw :=
  let t := h.dev.translate .chaise 0xFF c a 128 true
  match t.1 with
  | .error _ => (false, { h with dev := t.2 })
  | .ok segs =>
    (segs.all fun s => (rangeFrom (s.1 / 64) ((s.1 + s.2 - 1) / 64 - s.1 / 64 + 1)).all fun l => !t.2.mem.poisoned l, { h with dev := t.2 })

/-- The Chaise executes nothing: halted (R492), or stopped with its PLL (R510). -/
def Hw.chaiseDead (h : Hw) : Bool := h.pg.get Reg.CMP_STAT 31 29 = 5 || h.chaise.stopped

/-- The Chaise, running, begins the oldest LOAD_MODULE: it reads the image once (R243). -/
def Hw.loadBegin (h : Hw) : Hw :=
  match h.hif.loads with
  | [] => h
  | r :: rest =>
    if r.begun || h.chaiseDead then h
    else
      let go (r1 : LoadReq) (h : Hw) : Hw := h.modLoads fun _ => { r1 with begun := true, capGen := h.pg.rd Reg.CAP_GEN } :: rest
      if h.pg.devState ≠ 2 then go { r with err := 0x0115 } h
      else
        let x := h.cvaRead .chaise r.ctx r.src r.len
        match x.1 with
        | .error _ => go { r with err := 0x0113 } x.2
        | .ok bs =>
          let y := x.2.resReach r.ctx r.res
          go { r with image := some bs, err := if y.1 then 0 else 0x0113 } y.2

/-- LOAD_MODULE: the entry reaches the Chaise (R242, R243). -/
def Hw.loadModule (q : Nat) (h : Hw) : Hw :=
  h.startEntry q 1 fun e h =>
    (h.modLoads fun l => l ++ [⟨e.ctx, h.pg.ctxGen e.ctx, e.q, e.cookie, e.f 1 1, e.f 8 8, e.f 16 8, e.f 24 8, none, 0, 0, 0, false⟩]).loadBegin

/-- What a context's copy of the capability table, its partition and its scratch window give the translator (R243). -/
def Hw.tenv (c : Nat) (bs : List Byte) (v1 : Bool) (sects : List Sect) (h : Hw) : TEnv where
  bs := bs
  v1 := v1
  sects := sects
  cores := h.pg.partCores (h.pg.ctxPart c)
  cap := h.pg.ctxCap c
  beatLog := h.pg.get Reg.BEAT_LEN 4 0
  budget := (h.pg.rd Reg.CAP_BEAT_CYC).toNat - h.pg.get Reg.BEAT_GUARD 31 16
  winLo := h.pg.get (Reg.CTX_SCR c) 7 0 * 65536
  winHi := h.pg.get (Reg.CTX_SCR c) 15 8 * 65536

/-- Every recorded field still has its value (R245, R252). -/
def Pages.capsSame (p : Pages) (c : Nat) (m : Module) : Bool :=
  m.caps.all fun r => fld (p.ctxCap c r.off) (r.lsb + r.width - 1) r.lsb = r.value

/-- A cache hit of R245: the context's entry for the same image with every recorded value unchanged. -/
def Hw.cacheHit (c : Nat) (dig : List Byte) (h : Hw) : Option (Nat × Module) :=
  (h.ctx c).cache.find? fun e => e.2.digest = dig && h.pg.capsSame c e.2

/-- Bytes of every cached translation, with the translator tables at the head of the cache (R485). -/
def Hw.cacheBytes (h : Hw) : Nat :=
  leAt h.chaise.image 20 4 + (h.ctxList.flatMap fun c => (h.ctx c).cache.map fun e => e.2.bytes).sum

/-- CMP_XC_USED, in MiB. -/
def Hw.showCache (h : Hw) : Hw := h.onPg (Pages.wr Reg.CMP_XC_USED (BitVec.ofNat 32 (ceilDiv h.cacheBytes 1048576 % 65536)))

/-- CTX_HANDLES. -/
def Hw.showHandles (c : Nat) (h : Hw) : Hw :=
  h.onPg (Pages.wr (Reg.CTX_HANDLES c) (BitVec.ofNat 32 (((h.ctx c).handles.map fun e => 2 ^ e.1).sum % 65536)))

/-- The lowest free handle. -/
def Ctx.freeHandle (x : Ctx) : Option Nat := (List.range 16).find? fun i => x.handles.all fun e => e.1 ≠ i

/-- The lowest free number of a cache entry. -/
def Ctx.freeEntry (x : Ctx) : Nat := ((List.range 17).find? fun i => x.cache.all fun e => e.1 ≠ i).getD 16

/-- What a served LOAD_MODULE comes to: a refusal, or a translation with the number of a cache entry it hits. -/
def Hw.loadVerdict (r : LoadReq) (dig : List Byte) (bs : List Byte) (unstable : Bool) (h : Hw) : Except TErr (Module × Option Nat) := do
  let hd ← checkHeader bs r.len
  match (if r.flags / 2 % 2 = 1 then none else h.cacheHit r.ctx dig) with
  | some e =>
    if (h.ctx r.ctx).freeHandle.isNone then Except.error (0x0111, 0) else return (e.2, some e.1)
  | none =>
    let m ← (h.tenv r.ctx bs hd.1 hd.2).translate (h.pg.rd Reg.CMP_TVER).toNat (h.pg.rd Reg.CAP_GEN).toNat
    if unstable then Except.error (0x0116, 0)
    else if (h.ctx r.ctx).freeHandle.isNone then Except.error (0x0111, 0)
    else if h.pg.get Reg.CMP_XC_SIZE 15 0 * 1048576 < h.cacheBytes + m.bytes then Except.error (0x0112, 0)
    else return (m, none)

/-- The result buffer of R248. -/
def resultBuffer (src xlt : List Byte) (code detail capGen handle rflags us tver : Nat) : List Byte :=
  (src ++ List.replicate 48 0).take 48 ++ (xlt ++ List.replicate 48 0).take 48 ++ bytesLE 2 code ++ bytesLE 2 0 ++ bytesLE 4 detail ++
    bytesLE 4 capGen ++ bytesLE 1 handle ++ bytesLE 1 rflags ++ bytesLE 2 0 ++ bytesLE 4 us ++ bytesLE 4 tver ++ bytesLE 8 0

/-- The entry being served has its result: buffer, completion, then the next entry is begun; an entry whose context has been
torn down meanwhile gives none, and a READ_FAULT has no result buffer to write where the buffer itself is out of reach (R243, R244,
R248, R460). -/
def Hw.loadFinish (r : LoadReq) (us : Nat) (dig : List Byte) (v : Except TErr (Module × Option Nat)) (h : Hw) : Hw :=
  let h0 := h.modLoads (List.drop 1)
  if h.pg.ctxSt r.ctx ≠ 1 ∨ h.pg.ctxGen r.ctx ≠ r.gen then h0.loadBegin
  else
    let tver := (h.pg.rd Reg.CMP_TVER).toNat
    let done : Hw := match v with
      | .error e =>
        let ok := if e.1 = 0x0113 then h0.resReach r.ctx r.res else (true, h0)
        let w := ok.2.cvaWrite .chaise r.ctx r.res (resultBuffer dig [] e.1 e.2 (h.pg.rd Reg.CAP_GEN).toNat 0xFF 0 us tver)
        ((if ok.1 then w.2 else ok.2).onPg (Pages.wr (Reg.CTX_REFUSE r.ctx) (BitVec.ofNat 32 e.1))).completeFull r.sq r.cookie 1 e.1 0xFF
          e.2 0 0
      | .ok (m, hit) =>
        let hd := ((h.ctx r.ctx).freeHandle).getD 0
        let n := hit.getD (h.ctx r.ctx).freeEntry
        let h1 := h0.modCtx r.ctx fun x =>
          { x with handles := x.handles ++ [(hd, n)], cache := if hit.isSome then x.cache else x.cache ++ [(n, m)] }
        let pol := h1.fusePolicy
        let meas := r.flags % 2 = 1 || pol.2.1
        let h2 := if meas then pol.2.2.extend 16 m.xlt else pol.2.2
        let w := h2.cvaWrite .chaise r.ctx r.res
          (resultBuffer m.digest m.xlt 0 0 m.capGen hd (hit.isSome.toNat + 2 * meas.toNat) us tver)
        ((w.2.showHandles r.ctx).showCache).completeFull r.sq r.cookie 1 0 hd 0 0 0
    done.loadBegin

/-- LOAD_MODULE_DONE: the service of the oldest entry ends, us microseconds after it began (R243, R244, R248). A CAP_GEN that has
moved has it translated again, three times at most. -/
def Hw.loadDone (us : Nat) (h : Hw) : Hw :=
  match h.hif.loads with
  | [] => h
  | r :: rest =>
    if !r.begun then h.loadBegin
    else match r.image with
      | none => h.loadFinish r us [] (.error (r.err, 0))
      | some bs =>
        let dig := sha384 bs
        if r.err ≠ 0 then h.loadFinish r us dig (.error (r.err, 0))
        else
          let moved := decide (r.capGen ≠ h.pg.rd Reg.CAP_GEN)
          let v := h.hashed.loadVerdict r dig bs (moved && decide (2 ≤ r.tries))
          let again := moved && decide (r.tries < 2) && (match v with | .ok (_, none) => true | _ => false)
          if again then h.modLoads fun _ => { r with tries := r.tries + 1, capGen := h.pg.rd Reg.CAP_GEN } :: rest
          else h.hashed.loadFinish r us dig v

/-- UNLOAD_MODULE (R242, R245): refused with BUSY, and a handle that is free with NO_MODULE. -/
def Hw.unloadModule (q : Nat) (h : Hw) : Hw :=
  h.startEntry q 3 fun e h =>
    let hd := e.f 2 1
    let refuse (code : Nat) : Hw := (h.onPg (Pages.wr (Reg.CTX_REFUSE e.ctx) (BitVec.ofNat 32 code))).complete e.q e.cookie 3 code
    match (h.ctx e.ctx).handles.find? fun x => x.1 = hd with
    | none => refuse 0x0201
    | some x =>
      if (h.ctx e.ctx).launch.any fun l => l.handle = hd then refuse 0x0207
      else
        let h1 := h.modCtx e.ctx fun y =>
          let hs := y.handles.filter fun z => z.1 ≠ hd
          { y with handles := hs, cache := if hs.any (fun z => z.2 = x.2) then y.cache else y.cache.filter fun z => z.1 ≠ x.2 }
        ((h1.showHandles e.ctx).showCache).complete e.q e.cookie 3 0

/-! ## LAUNCH (R250 to R256) -/

/-- Patches of a list: register and value, and whether every reserved byte is zero. -/
def patchList (n : Nat) (bs : List Byte) : List (Nat × Nat) × Bool :=
  ((List.range n).map fun i => (leAt bs (16 * i) 1, leAt bs (16 * i + 8) 8), (List.range n).all fun i => (firstSet bs (16 * i + 1) 7).isNone)

/-- The device promises EXACT: a fixed P-state and the cap off (R59). -/
def Hw.fixedPower (h : Hw) : Bool := !h.power.pend && !h.pg.bit Reg.PWR_CAP 31

/-- Checks of R252 before the patch list is read: the refusal code, if any. V is the current beat. -/
def Hw.launchPre (e : SqEntry) (mode : Nat) (slip : Bool) (h : Hw) : Option Nat :=
  let x := h.ctx e.ctx
  let g := e.f 3 1
  if h.pg.devState ≠ 2 || (h.pg.isDareder && e.ctx ≠ 0) then some 0x020B
  else if x.launch.isSome then some 0x0207
  else match x.modOf (e.f 2 1) with
    | none => some 0x0201
    | some m =>
      if e.f 32 8 ≠ 0 ∧ e.f 32 8 ≠ ofBytesLE (m.digest.take 8) then some 0x0208
      else if m.capGen ≠ (h.pg.rd Reg.CAP_GEN).toNat ∧ !h.pg.capsSame e.ctx m then some 0x0202
      else if g ≠ 0xFF ∧ !(decide (g < 64) && h.grpMember g) then some 0x0209
      else if ((m.streams.head?).map (·.blocks.length)).getD 0 ≤ e.f 26 2 ∨ e.f 1 1 % 4 = 3 then some 0x020A
      else if mode = 2 ∧ (!h.fixedPower ∨ slip) then some 0x0205
      else none

/-- Checks of the patches (R252): BAD_PATCH, then PATCH_MISSING. -/
def patchCode (m : Module) (ps : List (Nat × Nat)) : Option Nat :=
  if ps.any fun q => !(m.parms.any fun d => d.reg = q.1 && d.flags ≠ 0 && parmKindOk d.kind q.2) then some 0x0203
  else if m.parms.any fun d => d.flags / 2 % 2 = 1 && !(ps.any fun q => q.1 = d.reg) then some 0x0204
  else none

/-- Write a constant record into the scratch of the cores it names (R234, R253). -/
def Hw.writeConst (c : Nat) (k : ConstDef) (h : Hw) : Hw :=
  ((h.pg.partCores (h.pg.ctxPart c)).filter fun l => k.mask.testBit (l % 8)).foldl (fun h l => h.scrInbound l k.off k.data) h

/-- Accept a launch: from here it counts as accepted, and it is prepared (R253). -/
def Hw.acceptLaunch (e : SqEntry) (m : Module) (mode : Nat) (slip : Bool) (ps : List (Nat × Nat)) (h : Hw) : Hw :=
  let v := h.pg.beatNum.toNat
  let preg : Tbl W64 := (m.parms.map fun d => (d.reg, d.dflt)).foldl (fun t x => tset (fun _ => 0) t x.1 x.2) []
  let preg := ps.foldl (fun t x => tset (fun _ => 0) t x.1 (BitVec.ofNat 64 x.2)) preg
  let l : Launch :=
    { handle := e.f 2 1, mode := mode, slip := slip, group := e.f 3 1, start := if e.f 8 6 = 0 then v + 4 else e.f 8 6, entry := e.f 26 2,
      cookie := e.cookie, sq := e.q, running := false, beats := 0, last := 0, cur := none, prev := none, hist := [], conf := 0, slips := 0, hold := 0,
      resumeAt := none, abortPend := [], abort := none, ended := false, finalConf := false, halted := false, exc := false, excVote := false,
      fenced := false, pool := if m.shadow = 0xFFFF then h.pg.get Reg.BEAT_SHADOW_DEF 9 0 else m.shadow }
  let h1 := h.modCtx e.ctx fun x => { x with launch := some l, preg := preg, decls := [], rounds := [] }
  ((m.consts.foldl (fun h k => h.writeConst e.ctx k) h1).showCtx e.ctx)

/-- A launch whose checks reach its group slot reads the slot, and its parity with it: a slot that fails is not configured (R427, GRP_PAR). -/
def Hw.launchGroup (e : SqEntry) (pre : Option Nat) (h : Hw) : Option Nat × Hw :=
  if e.f 3 1 < 64 ∧ pre.all (fun c => c = 0x0209 || c = 0x020A || c = 0x0205) then
    let h1 := h.grpRead (e.f 3 1)
    (if h1.grpMember (e.f 3 1) then pre else some 0x0209, h1)
  else (pre, h)

/-- LAUNCH: the checks in order; the first failure refuses the launch, which changes nothing but CTX_REFUSE (R252). -/
def Hw.launchCmd (q : Nat) (h : Hw) : Hw :=
  h.startEntry q 2 fun e h =>
    let refuse (code : Nat) (h : Hw) : Hw := (h.onPg (Pages.wr (Reg.CTX_REFUSE e.ctx) (BitVec.ofNat 32 code))).complete e.q e.cookie 2 code
    let m? := (h.ctx e.ctx).modOf (e.f 2 1)
    let mode := max (e.f 1 1 % 4) ((m?.map (·.minMode)).getD 0)
    let slip := if e.f 1 1 / 4 % 2 = 1 then decide (e.f 1 1 / 8 % 2 = 1) else h.pg.bit Reg.BEAT_OVR_CTRL 0
    let k := h.launchGroup e (h.launchPre e mode slip)
    let h := k.2
    match k.1, m? with
    | some code, _ => refuse code h
    | none, none => refuse 0x0201 h
    | none, some m =>
      let n := e.f 24 2
      let r := if n = 0 then (Except.ok [], h) else if 256 < n then (Except.error true, h) else h.cvaRead .host e.ctx (e.f 16 8) (16 * n)
      match r.1 with
      | .error _ => refuse 0x020C r.2
      | .ok bs =>
        let ps := patchList n bs
        if !ps.2 then refuse 0x020C r.2
        else match patchCode m ps.1 with
          | some code => refuse code r.2
          | none =>
            let st := e.f 8 6
            if (st ≠ 0 ∧ st < h.pg.beatNum.toNat + 4) ∨ (st = 0 ∧ e.f 3 1 ≠ 0xFF) then refuse 0x0206 r.2
            else r.2.acceptLaunch e m mode slip ps.1

end Sys2Proof.Machine
end

