-- ==== Sys2Proof/Machine/HostIf.lean ====
section
/-! DEFINITION. The host interface: doorbells, the other submission entries, messages to the host, queue configuration (R449 to
R459, R469), the journal's replay (R64). -/

namespace Sys2Proof.Machine

/-! ## Doorbells (R60, R61, R450) -/

/-- A context's doorbells are boundary-visible (R61). -/
def Hw.dbSync (c : Nat) (h : Hw) : Bool := (h.launched c && decide (1 ≤ h.mode c)) || h.pg.bit (Reg.CTX_DBSYNC c) 0

/-- A doorbell value is bad for its queue: the index is not below 2^LOG2N, or a head would pass the device's tail (R450). -/
def Pages.dbBad (p : Pages) (q : Nat) (w : W32) : Bool :=
  let n := p.ringLen q
  let hd := p.get (Reg.Q_HEAD q) 15 0
  let i := fld w 15 0
  decide (n ≤ i) ||
    (decide (p.get (Reg.Q_CTRL q) 29 28 ≠ 0) && decide ((p.get (Reg.Q_TAIL q) 15 0 + n - hd) % n < (i + n - hd) % n))

/-- A doorbell value takes effect: the tail of an SQ; the head of the others, with ARM. -/
def Pages.dbApply (q : Nat) (w : W32) (p : Pages) : Pages :=
  if p.get (Reg.Q_CTRL q) 29 28 = 0 then p.put (Reg.Q_TAIL q) 15 0 (fld w 15 0)
  else (p.put (Reg.Q_HEAD q) 15 0 (fld w 15 0)).setb (Reg.Q_STAT q) 27 (wbit w 31)

/-- Journal target and payload of a doorbell: its 64 B, of which the first four hold the value (R63). -/
def dbPayload (w : W32) : List Byte := bytesLE 4 w.toNat ++ List.replicate 60 0

/-- A doorbell becomes visible: it is judged, takes effect, and is journalled (R61, R62, R450). -/
def Hw.dbVisible (q : Nat) (w : W32) (h : Hw) : Hw :=
  if !h.pg.bit (Reg.Q_CTRL q) 31 then h
  else
    match h.pg.qOwner q with
    | none => h
    | some c =>
      let bad := h.holds Pg.hif 1 q (h.pg.dbBad q w)
      if bad.1 then
        bad.2.onPg fun p => ((p.setb (Reg.Q_STAT q) 31 true).sat Reg.HIF_DB_BAD_CNT 1).raise Pg.hif 1 q (p.ctxId c)
      else (bad.2.onPg (Pages.dbApply q w)).journal c 3 q (dbPayload w)

/-- DOORBELL: a 32-bit write waits until it is visible; one for a context under replay is a live input and is ignored (R64,
R450). -/
def Hw.doorbell (q : Nat) (w : W32) (h : Hw) : Hw :=
  if (h.pg.qOwner q).any h.pg.jIgnores then h.onPg (Pages.sat Reg.JRNL_LIVE_DROP 1)
  else h.modQueue q fun x => { x with pend := x.pend ++ [w] }

/-- The oldest doorbell of a queue becomes visible. -/
def Hw.dbNext (q : Nat) (h : Hw) : Hw :=
  match (h.queue q).pend with
  | [] => h
  | w :: rest => (h.modQueue q fun x => { x with pend := rest }).dbVisible q w

/-- DOORBELL_VISIBLE: within 200 ns, unless the context's doorbells wait for the boundary (R61, R450). -/
def Hw.doorbellVisible (q : Nat) (h : Hw) : Hw := if (h.pg.qOwner q).any h.dbSync then h else h.dbNext q

/-- At a boundary every waiting doorbell of a boundary-visible context becomes visible, in order of arrival (R60). -/
def Hw.dbBoundary (h : Hw) : Hw :=
  (h.hif.queues.map (·.1)).foldl (fun h q => if (h.pg.qOwner q).any h.dbSync then iter (Hw.dbNext q) (h.queue q).pend.length h else h) h

/-! ## ABORT, HCOPY, SEND, NOP (R452 to R454, R456) -/

/-- What a started ABORT does (R454). -/
def Hw.abortGo (e : SqEntry) (h : Hw) : Hw :=
  match (h.ctx e.ctx).launch with
  | none => h.complete e.q e.cookie 4 2
  | some l => if l.abort.isSome then h.complete e.q e.cookie 4 2
    else h.modLaunch e.ctx fun l => { l with abortPend := l.abortPend ++ [(e.q, e.cookie)] }

/-- The ring index of the first visible ABORT that is not started, behind an entry that still waits (R452). -/
def Hw.abortAt (q : Nat) (h : Hw) : Option Nat :=
  let n := h.pg.ringLen q
  let hd := h.pg.get (Reg.Q_HEAD q) 15 0
  match h.pg.qOwner q with
  | none => none
  | some c =>
    if !h.sqRuns q c then none
    else ((List.range ((h.pg.get (Reg.Q_TAIL q) 15 0 + n - hd) % n)).map fun i => (hd + i) % n).find? fun i =>
      !((h.queue q).early.any (·.1 = i)) && decide ((h.sqRead q c i).f 0 1 = 4)

/-- ABORT: the first visible one starts, whatever stands before it in the ring (R452, R454). -/
def Hw.abortCmd (q : Nat) (h : Hw) : Hw :=
  match h.abortAt q with
  | none => h.startEntry q 4 Hw.abortGo
  | some i =>
    match h.pg.qOwner q with
    | none => h
    | some c => h.startAt i (h.sqRead q c i) Hw.abortGo

/-- The host's answer to a DMA: a failed translation counts in HIF_ATS_FAIL_CNT. -/
def Hw.hostAns (a : HostAns) (h : Hw) : Bool × Hw :=
  match a with
  | .ok => (true, h)
  | .atsFail => (false, h.onPg (Pages.sat Reg.HIF_ATS_FAIL_CNT 1))
  | .urCa => (false, h)

/-- HCOPY (R452): both ends are checked before a byte moves; a copy into context memory is an external input (R62). -/
def Hw.hcopy (q : Nat) (a : HostAns) (h : Hw) : Hw :=
  h.startEntry q 5 fun e h =>
    let n := e.f 24 8
    let bus := e.f 8 8
    let cva := e.f 16 8
    let fin (st : Nat) (h : Hw) : Hw := h.complete e.q e.cookie 5 st
    if n = 0 ∨ 2 ^ 32 ≤ n then fin 0x0301 h
    else
      let t := h.dev.translate .host 0xFF e.ctx cva n (e.f 1 1 % 2 = 0)
      let h1 : Hw := { h with dev := t.2 }
      match t.1 with
      | .error _ => fin 0x0302 h1
      | .ok segs =>
        let x := h1.hostAns a
        if !x.1 then fin 0x0303 x.2
        else if e.f 1 1 % 2 = 0 then
          let bs := x.2.dev.mem.hostRead (h.pg.ctxFunc e.ctx) bus n
          let h2 := x.2.onPg (Pages.hostRx n)
          if h2.pg.jIgnores e.ctx then fin 0 (h2.onPg (Pages.sat Reg.JRNL_LIVE_DROP 1))
          else fin 0 ((h2.onDev (Dev.writeSegs .host (h2.pg.ctxId e.ctx) segs bs)).journal e.ctx 1 cva bs)
        else
          let r := x.2.dev.readSegs .host (x.2.pg.ctxId e.ctx) segs
          match r.1 with
          | none => fin 0x0304 { x.2 with dev := r.2 }
          | some bs => fin 0 (({ x.2 with dev := r.2 } : Hw).onMem (Mem.hostWrite (h.pg.ctxFunc e.ctx) bus bs) |>.onPg (Pages.hostTx n))

/-- SEND: the payload is read and injected as a MSG packet with QUEUE set (R456). -/
def Hw.sendCmd (q : Nat) (a : HostAns) (h : Hw) : Hw :=
  h.startEntry q 6 fun e h =>
    let n := e.f 20 2
    if 4096 < n then h.complete e.q e.cookie 6 0x0301
    else
      let x := h.hostAns a
      if !x.1 then x.2.complete e.q e.cookie 6 0x0303
      else
        let bs := x.2.dev.mem.hostRead (h.pg.ctxFunc e.ctx) (e.f 8 8) n
        let h1 := x.2.onPg (Pages.hostRx n)
        let k := h1.pg.mkPacket (e.f 16 2) 0x08 6 e.ctx (h1.pg.ctxGen e.ctx) (512 + e.f 18 2 % 16384 * 1024) 0 (e.f 22 2) true true (crc64 bs) bs 0xFF
        (h1.inject k).complete e.q e.cookie 6 0

/-- NOP. -/
def Hw.nopCmd (q : Nat) (h : Hw) : Hw := h.startEntry q 7 fun e h => h.complete e.q e.cookie 7 0

/-! ## Message-receive queues (R456 to R459) -/

/-- Bytes that a staged message takes. -/
def Staged.size (s : Staged) : Nat := 32 + s.payload.length

/-- Staging in use, in bytes: of one queue, and of all. -/
def Queue.stagedBytes (x : Queue) : Nat := (x.staged.map Staged.size).sum

/-- HIF_STAGE, and the queue's count of staged messages. -/
def Hw.showStage (q : Nat) (h : Hw) : Hw :=
  let kib := ceilDiv (h.hif.queues.map fun e => e.2.stagedBytes).sum 1024
  h.onPg fun p => ((p.put Reg.HIF_STAGE 31 16 kib).maxFld Reg.HIF_STAGE 15 0 kib).put (Reg.Q_STAT q) 7 0 (min 255 (h.queue q).staged.length)

/-- A message of an MRQ is dropped: counted, with a MSG_DROP event (R457). -/
def Hw.mrqDrop (q : Nat) (h : Hw) : Hw :=
  let h1 := h.onPg (Pages.sat (Reg.Q_DROP q) 1)
  match h1.pg.qOwner q with
  | some c => h1.event 5 c (bytesLE 4 q ++ bytesLE 4 (h1.pg.rd (Reg.Q_DROP q)).toNat)
  | none => h1

/-- Slots of a message: ceil((32 + LEN) / 2^LOG2SLOT). -/
def Pages.mrqSlots (p : Pages) (q n : Nat) : Nat := ceilDiv (32 + n) (2 ^ p.get (Reg.Q_CTRL q) 12 8)

/-- The header of R458. -/
def mrqHead (src len status score tag beat ph : Nat) : List Byte :=
  bytesLE 2 src ++ bytesLE 2 len ++ bytesLE 1 status ++ bytesLE 1 score ++ bytesLE 2 tag ++ bytesLE 6 beat ++ List.replicate 17 0 ++ bytesLE 1 ph

/-- Write a message whole into consecutive slots at the tail; a ring access that fails disables the queue (R457, R458, R467). -/
def Hw.mrqWrite (q : Nat) (m : Staged) (h : Hw) : Hw :=
  let t := h.pg.get (Reg.Q_TAIL q) 15 0
  let size := 2 ^ h.pg.get (Reg.Q_CTRL q) 12 8
  let n := h.pg.ringLen q
  let bus := h.pg.slotBus q size t
  let r := h.ringReach q bus
  if !r.1 then r.2
  else
    let k := h.pg.mrqSlots q m.payload.length
    let bs := mrqHead m.src m.payload.length 0 m.score m.tag m.beat (if (h.queue q).wraps then 0 else 1) ++ m.payload
    let h1 := (List.range k).foldl (fun g i => g.busWrite q (h.pg.slotBus q size ((t + i) % n)) (slice (size * i) size bs)) r.2
    let h2 := if n ≤ t + k then h1.modQueue q fun x => { x with wraps := !x.wraps } else h1
    h2.onPg fun p => (p.put (Reg.Q_TAIL q) 15 0 ((t + k) % n)).qSignal q

/-- The next staged message fits, and none is being written. -/
def Hw.mrqReady (q : Nat) (m : Staged) (h : Hw) : Bool :=
  (h.queue q).writing.isNone && decide (h.pg.mrqSlots q m.payload.length ≤ h.pg.ringFree q)

/-- HOST_MSG: a MSG with QUEUE set is written to its MRQ, staged, or dropped (R456, R457). whole tells that its last slot is written
before the next command; otherwise the message is still being written. -/
def Hw.hostTake (whole : Bool) (k : Packet) (h : Hw) : Hw :=
  let q := k.addr / 1024 % 16384
  if !(h.pg.qIs q 2 && decide (h.pg.qOwner q = some k.ctx)) || h.pg.ctxSt k.ctx ≠ 1 then h.onPg (Pages.sat Reg.HIF_MSG_DROP 1)
  else
    let inside := h.pg.inInstance (((h.ctx k.ctx).launch.map (·.group)).getD 0xFF) k.src
    if !inside && h.pg.jIgnores k.ctx then h.onPg (Pages.sat Reg.JRNL_LIVE_DROP 1)
    else
    let h2 := if inside then h else h.journal k.ctx 2 k.addr k.payload
    let m : Staged := ⟨k.src, k.score, k.tag % 65536, h2.pg.beatNum.toNat, k.payload, h2.pg.fbc.toNat⟩
    if (h2.queue q).staged.isEmpty && h2.mrqReady q m then
      (if whole then h2.mrqWrite q m else h2.modQueue q fun x => { x with writing := some m })
    else if 16384 < (h2.queue q).stagedBytes + m.size ∨ 262144 < (h2.hif.queues.map fun e => e.2.stagedBytes).sum + m.size then h2.mrqDrop q
    else (h2.modQueue q fun x => { x with staged := x.staged ++ [m] }).showStage q

/-- The same as a packet command. -/
def Hw.hostMsg (src : PktSrc) (whole : Bool) (h : Hw) : Hw := h.onPacket (fun k => k.opc = 0x08 && k.addr / 512 % 2 = 1) src (Hw.hostTake whole)

/-- MRQ_STAGE_TIMEOUT: the oldest staged message is older than Q_TMO and is dropped whole (R457). -/
def Hw.mrqTimeout (q : Nat) (h : Hw) : Hw :=
  match (h.queue q).staged with
  | [] => h
  | _ :: rest => ((h.modQueue q fun x => { x with staged := rest }).mrqDrop q).showStage q

/-- MRQ_SLOTS_FREE, while the queue's context is BOUND (R460): a message being written is finished; else the oldest staged one is written once its slots are free; a staging
entry that fails its parity check is dropped (R457, R467). -/
def Hw.mrqSlotsFree (q : Nat) (h : Hw) : Hw :=
  if !h.pg.qIs q 2 || !((h.pg.qOwner q).any fun c => h.pg.ctxSt c = 1) then h
  else match (h.queue q).writing with
    | some m => (h.modQueue q fun x => { x with writing := none }).mrqWrite q m
    | none =>
      match (h.queue q).staged with
      | [] => h
      | m :: rest =>
        if !h.mrqReady q m then h
        else
          let f := h.pg.detect Pg.hif 3 q ((h.pg.qOwner q).bind h.pg.ctxId) false
          let h1 := ({ h with dev := { h.dev with pg := f.2 } } : Hw).modQueue q fun x => { x with staged := rest }
          (if f.1 then h1.mrqDrop q else h1.mrqWrite q m).showStage q

/-! ## Queue configuration (R459, R469) -/

/-- RESET of an MRQ: staged messages dropped, a message being written truncated (R459). -/
def Hw.mrqReset (q : Nat) (h : Hw) : Hw :=
  let x := h.queue q
  let h1 := x.staged.foldl (fun h _ => h.mrqDrop q) h
  let h2 := (h1.modQueue q fun _ => { Queue.reset with pend := [] }).onPg fun p => (p.put (Reg.Q_HEAD q) 15 0 0).put (Reg.Q_TAIL q) 15 0 0
  let h3 := match x.writing with
    | none => h2
    | some m =>
      let r := h2.ringReach q (h2.pg.slotBus q 1 0)
      (if r.1 then r.2.busWrite q (h2.pg.slotBus q 1 0) (mrqHead m.src 0 1 m.score m.tag m.beat 1) else r.2).onPg (Pages.sat (Reg.Q_TRUNC q) 1)
  h3.showStage q

/-- MSI-X vectors of a function: 64 on the PF, 8 on a VF (R441). -/
def msixCount (func : Nat) : Nat := if func = 0 then 64 else 8

/-- A write that enables a queue passes the checks of R469. -/
def Pages.qEnableOk (p : Pages) (q : Nat) (w : W32) : Bool :=
  match p.qOwner q with
  | none => false
  | some c =>
    let cq := p.get (Reg.Q_PAIR q) 13 0
    decide (4 ≤ fld w 20 16) && decide (fld w 20 16 ≤ 16) &&
      (fld w 29 28 ≠ 2 || (decide (8 ≤ fld w 12 8) && decide (fld w 12 8 ≤ 12))) &&
      decide (fld w 7 0 < msixCount (p.ctxFunc c)) &&
      (fld w 29 28 ≠ 0 || (p.qIs cq 1 && decide (p.qOwner cq = some c)))

/-- A write of Q_CTRL: RESET, then the configuration; a queue that is disabled loses its staged messages' room no sooner than its
reset. Answers false where the write is refused (R459, R469). -/
def Hw.qCtrlWrite (q : Nat) (w : W32) (h : Hw) : Bool × Hw :=
  let old := h.pg.rd (Reg.Q_CTRL q)
  let isMrq := decide (fld old 29 28 = 2)
  if wbit w 30 && wbit old 31 && !isMrq then (false, h)
  else if wbit w 31 && !wbit old 31 && !h.pg.qEnableOk q w then (false, h)
  else
    let h1 :=
      if !wbit w 30 then h
      else if isMrq then h.mrqReset q
      else (h.modQueue q fun _ => Queue.reset).onPg fun p => (p.put (Reg.Q_HEAD q) 15 0 0).put (Reg.Q_TAIL q) 15 0 0
    (true, h1.onPg (Pages.wr (Reg.Q_CTRL q) (w &&& 0xB01F1FFF#32)))

/-- Disable a queue with its staged messages dropped, as a teardown and a warm reset do (R460, R513). -/
def Hw.qDisable (q : Nat) (h : Hw) : Hw :=
  let n := (h.queue q).staged.length
  ((h.modQueue q fun x => { x with staged := [], pend := [], waiting := [], inflight := [], early := [] }).onPg fun p =>
    (p.setb (Reg.Q_CTRL q) 31 false).sat (Reg.Q_DROP q) n).showStage q

/-! ## Replay of the Input Journal (R64) -/

/-- Read n bytes of the ring from an offset. -/
def Hw.jRead (off n : Nat) (h : Hw) : List Byte × Hw :=
  let size := 2 ^ h.pg.get Reg.JRNL_SIZE 5 0
  let base := (h.pg.rd64 Reg.JRNL_BASE_LO).toNat
  let o := off % size
  let k := min n (size - o)
  let r := h.dev.read .chaise none (base + o) k
  let s := if k < n then r.2.read .chaise none base (n - k) else (some [], r.2)
  ((r.1.getD (List.replicate k 0)) ++ (s.1.getD []), { h with dev := s.2 })

/-- Read the record at an offset: none past the head, or where the record fails its CRC; the offset past it. -/
def Hw.jFetch (off : Nat) (h : Hw) : Option (Option JRec × Nat) × Hw :=
  let size := 2 ^ h.pg.get Reg.JRNL_SIZE 5 0
  let head := (h.pg.rd64 Reg.JRNL_HEAD_LO).toNat
  if off % size = head % size then (none, h)
  else
    let a := h.jRead off 32
    let n := min 4096 (leAt a.1 16 4)
    let b := a.2.jRead (off + 32) n
    let next := (off + 32 + ceilDiv n 32 * 32) % size
    let ok := leAt a.1 24 4 = (crc32 (a.1.take 24 ++ bytesLE 4 0 ++ a.1.drop 28 ++ b.1)).toNat
    let r : JRec := ⟨leAt a.1 6 1, leAt a.1 7 1, leAt a.1 8 8, leAt a.1 0 6, leAt a.1 20 4, b.1, next⟩
    let bad := b.2.holds Pg.jrnl 2 off (!ok)
    if !bad.1 then (some (some r, next), bad.2)
    else (some (none, next), bad.2.onPg fun p => p.raise Pg.jrnl 2 off (p.ctxId r.ctx))

/-- Apply a journal record to its context: a host write, a message to the FIFO or MRQ its address names, a doorbell. -/
def Hw.jApply (r : JRec) (h : Hw) : Hw :=
  if r.kind = 1 then (h.cvaWrite .host r.ctx r.target r.payload).2
  else if r.kind = 3 then
    let w : W32 := BitVec.ofNat 32 (leAt r.payload 0 4)
    let q := r.target % 16384
    if h.pg.bit (Reg.Q_CTRL q) 31 && decide (h.pg.qOwner q = some r.ctx) && !h.pg.dbBad q w then h.onPg (Pages.dbApply q w) else h
  else if r.kind = 2 then
    if r.target / 512 % 2 = 1 then
      let q := r.target / 1024 % 16384
      let m : Staged := ⟨0, 0xFF, 0, h.pg.beatNum.toNat, r.payload, h.pg.fbc.toNat⟩
      if !(h.pg.qIs q 2 && decide (h.pg.qOwner q = some r.ctx)) then h.onPg (Pages.sat Reg.HIF_MSG_DROP 1)
      else if (h.queue q).staged.isEmpty && h.mrqReady q m then h.mrqWrite q m
      else (h.modQueue q fun x => { x with staged := x.staged ++ [m] }).showStage q
    else match h.pg.coreAt r.ctx (r.target % 128) with
      | none => h
      | some l =>
        let ci := h.ciOf l r.ctx
        let x := CV.fifoArrive ci none (h.coreCtx l = some r.ctx) 0 0 0 r.payload { pg := h.pg, core := h.core ci.n }
        { h with dev := { h.dev with pg := x.2.pg } }.setCore ci.n x.2.core
  else h

/-- The beat at whose start a record is applied: BEAT + JRNL_REPLAY_OFS. -/
def Pages.jDue (p : Pages) (r : JRec) : Nat := (BitVec.ofNat 48 (r.beat + (p.rd64 Reg.JRNL_REPLAY_OFS_LO).toNat)).toNat

/-- Apply, from JRNL_TAIL on, the records that are due by beat n; one whose beat has passed raises REPLAY_LATE and loses EXACT of its
context (R59, R64). fuel bounds the records. -/
def Hw.jReplay (n : Nat) : Nat → Hw → Hw
  | 0, h => h
  | fuel + 1, h =>
    let f := h.jFetch (h.pg.rd64 Reg.JRNL_TAIL_LO).toNat
    match f.1 with
    | none => f.2.onPg fun p => (p.setb Reg.JRNL_STAT 3 true).setb Reg.JRNL_STAT 1 false
    | some (none, next) => Hw.jReplay n fuel (f.2.onPg (Pages.wr64 Reg.JRNL_TAIL_LO (BitVec.ofNat 64 next)))
    | some (some r, next) =>
      let due := f.2.pg.jDue r
      if n < due then f.2
      else
        let late := f.2.holds Pg.jrnl 1 0 (decide (due < n))
        let h1 := if late.1 then (late.2.onPg fun p => p.raise Pg.jrnl 1 0 (p.ctxId r.ctx)).exactLost r.ctx else late.2
        Hw.jReplay n fuel ((h1.jApply r).onPg (Pages.wr64 Reg.JRNL_TAIL_LO (BitVec.ofNat 64 next)))

/-- As many records as the ring can hold, and one. -/
def Pages.jFuel (p : Pages) : Nat := 2 ^ p.get Reg.JRNL_SIZE 5 0 / 32 + 1

/-- At a boundary that starts beat n, replay applies what is due. -/
def Hw.jBoundary (n : Nat) (h : Hw) : Hw :=
  if h.pg.bit Reg.JRNL_STAT 1 && h.pg.enabled Pg.jrnl then h.jReplay n h.pg.jFuel else h

/-- JRNL_REPLAY_START: replay begins at JRNL_TAIL; records whose beat has passed are applied at once (R64). -/
def Hw.jStart (h : Hw) : Hw :=
  let h1 := h.onPg (Pages.setb Reg.JRNL_STAT 1 true)
  h1.jReplay h1.pg.beatNum.toNat h1.pg.jFuel

end Sys2Proof.Machine
end

