-- ==== Sys2Proof/Machine/Tenants.lean ====
section
/-! DEFINITION. Contexts and partitions as the PF driver changes them: BIND, teardown, FLR, scratch windows, slot tables, the zero
engine, far-tier lending and CXL.mem (R443 to R447, R460 to R465, R511). -/

namespace Sys2Proof.Machine

/-! ## BIND (R444) -/

/-- A context is TEARING. -/
def Pages.anyTearing (p : Pages) : Bool := (List.range 256).any fun c => p.ctxSt c = 2

/-- The function bound to a context has the context in SRIOV_CTX; 0xFF none (R468). -/
def Pages.setFuncCtx (f c : Nat) (p : Pages) : Pages := p.put (Reg.SRIOV_CTX (f / 4)) (8 * (f % 4) + 7) (8 * (f % 4)) c

/-- The context bound to a function. -/
def Pages.funcCtx (p : Pages) (f : Nat) : Nat := p.get (Reg.SRIOV_CTX (f / 4)) (8 * (f % 4) + 7) (8 * (f % 4))

/-- BIND must be refused (R444, R460). -/
def Hw.bindBad (c f part gen : Nat) (h : Hw) : Bool :=
  h.pg.ctxSt c ≠ 0 || (h.pg.partBays part).isEmpty || h.pg.funcCtx f ≠ 0xFF || (h.ctx c).lastGen = some gen ||
    (List.range 256).any fun x => h.pg.ctxSt x = 2 && (h.pg.ctxPart x = part || h.pg.ctxFunc x = f)

/-- Offsets that a BIND keeps: the fields that the PF writes, and the page's identity (R470). -/
def bindKeeps (off : Nat) : Bool := off = 0x044 || off = 0x048 || off = 0x04C

/-- Return a page's registers to their reset values, but for the keys that keep says. -/
def Pages.resetPage (pg : Nat) (keep : Nat → Bool) (p : Pages) : Pages :=
  { p with regs := tdrop (fun k => decide (k / 1024 = pg) && !keep (k % 1024 * 4)) p.regs }

/-- BIND: the context is BOUND to a function, a partition and a generation (R444, R470). -/
def Hw.bind (c f part gen : Nat) (h : Hw) : Hw :=
  let h1 := h.onPg fun p =>
    (((p.resetPage (Pg.ctx c) bindKeeps).wr (Reg.CTX_STATE c) (BitVec.ofNat 32 (2 ^ 29 + gen * 2 ^ 24 + part * 65536 + f * 256 + c))).setFuncCtx f c)
  h1.modCtx c fun x => { Ctx.reset with lastGen := x.lastGen }

/-! ## Teardown (R460) -/

/-- Queues of a context's range. -/
def Pages.ctxQueues (p : Pages) (c : Nat) : List Nat := rangeFrom (p.get (Reg.CTX_QRANGE c) 29 16) (p.get (Reg.CTX_QRANGE c) 9 0)

/-- Step 1: TEARING, BUSY; entries not started are discarded, nothing more is posted. -/
def Hw.tearBegin (c : Nat) (h : Hw) : Hw :=
  let qs := h.pg.ctxQueues c
  let h1 := h.onPg fun p =>
    qs.foldl (fun p q => if p.qIs q 0 then p.put (Reg.Q_TAIL q) 15 0 (p.get (Reg.Q_HEAD q) 15 0) else p)
      ((p.put (Reg.CTX_STATE c) 31 29 2).setb Reg.HIF_CTX_STAT 31 true)
  let h2 := qs.foldl (fun h q => h.modQueue q fun x => { x with pend := [], waiting := [], early := [] }) h1
  h2.modCtx c fun x => { x with tear := 1, lastGen := some (h.pg.ctxGen c) }

/-- Step 2, at the boundary B: the generation moves on; what the context has in the units, the fabric, the FIFOs and the translation
caches is gone. Its launch has ended with the boundary's vote. -/
def Hw.tearLatch (c : Nat) (h : Hw) : Hw :=
  if (h.ctx c).tear ≠ 1 then h
  else
    let part := h.pg.ctxPart c
    let cores := h.pg.partCores part
    let h1 := (h.stopUnits c).onPg fun p => p.put (Reg.CTX_STATE c) 27 24 (p.ctxGen c + 1)
    let h2 := cores.foldl (fun h l =>
      let ci := h.ciOf l c
      (if (h.core ci.n).owner = some c then h.onCv ci (CV.fifoFlush ci) else h).modOwned ci.n c Core.dropLaunch) h1
    let h3 := h2.onMem fun m => { m with tlb := m.tlb.filter (·.ctx ≠ c), walks := m.walks.filter (·.ctx ≠ c) }
    h3.modCtx c fun x => { x with tear := 2, launch := none, decls := [], rounds := [], held := [], unacked := [] }

/-- Steps 3 and 4 (TEARDOWN_DRAIN_END): host DMA has drained or is cancelled; WCB entries with bytes of the context flush; handles,
cache entries, SUU slots and queues are freed. -/
def Hw.tearDrain (c : Nat) (h : Hw) : Hw :=
  if (h.ctx c).tear ≠ 2 then h
  else
    let h1 := h.onDev (Dev.wcbFlushAll fun e => c ∈ e.ctxs)
    let h2 := (h1.suuClear fun _ r => r.ctx = c)
    let h3 := (h2.pg.ctxQueues c).foldl (fun h q => h.qDisable q) h2
    ((h3.modCtx c fun x => { x with tear := 3, handles := [], cache := [] }).showHandles c).showCache

/-- Zero a context's scratch window on a physical core. -/
def Core.zeroWin (lo hi : Nat) (c : Core) : Core :=
  { c with scr := tdrop (fun o => decide (lo ≤ o) && decide (o < hi)) c.scr,
           scrFlips := tdrop (fun l => decide (lo ≤ 64 * l) && decide (64 * l < hi)) c.scrFlips }

/-- Steps 5 and 6 (TEARDOWN_DONE): the scratch window is zeroed, the context is FREE, TEARDOWN_DONE is posted. -/
def Hw.tearDone (c : Nat) (h : Hw) : Hw :=
  if (h.ctx c).tear ≠ 3 then h
  else
    let lo := h.pg.get (Reg.CTX_SCR c) 7 0 * 65536
    let hi := h.pg.get (Reg.CTX_SCR c) 15 8 * 65536
    let f := h.pg.ctxFunc c
    let cores := h.pg.partCores (h.pg.ctxPart c)
    let h1 := cores.foldl (fun h l => if h.reach l then h.modCore (h.pg.physOf l) (Core.zeroWin lo hi) else h) h
    let h2 : Hw := { h1 with parks := tdrop (fun k => k % 256 = c) h1.parks }
    let h3 := (h2.modCtx c fun x => { Ctx.reset with lastGen := x.lastGen }).devEvent 4 c []
    let h4 := h3.onPg fun p =>
      let p1 := (p.wr (Reg.CTX_STATE c) (BitVec.ofNat 32 (p.ctxGen c * 2 ^ 24 + c))).setFuncCtx f 0xFF
      let p2 := p1.setb Reg.HIF_CTX_STAT 31 p1.anyTearing
      if h.hif.flr = some f then p2.setb Reg.SRIOV_FLR 31 false else p2
    { h4 with hif := { h4.hif with flr := if h.hif.flr = some f then none else h4.hif.flr } }

/-- A write of HIF_CTX_CMD: BIND, TEARDOWN; the outcome is in HIF_CTX_STAT (R444, R460). -/
def Hw.ctxCmd (w : W32) (h : Hw) : Hw :=
  let c := fld w 7 0
  let f := fld w 15 8
  let part := fld w 19 16
  let gen := fld w 27 24
  let stat (bad : Bool) (h : Hw) : Hw := h.onPg fun p => (p.setb Reg.HIF_CTX_STAT 24 bad).put Reg.HIF_CTX_STAT 7 0 c
  if fld w 31 28 = 1 then (if h.bindBad c f part gen then stat true h else stat false (h.bind c f part gen))
  else if fld w 31 28 = 2 then
    (if c = 0 ∨ h.pg.ctxSt c ≠ 1 ∨ h.pg.anyTearing then stat true h else stat false (h.tearBegin c))
  else stat true h

/-- FLR of a function (R460, R512). -/
def Hw.flr (f : Nat) (h : Hw) : Hw :=
  let c := h.pg.funcCtx f
  let go := decide (c ≠ 0xFF) && decide (c ≠ 0) && decide (h.pg.ctxSt c = 1)
  let on := go || (decide (c ≠ 0xFF) && decide (h.pg.ctxSt c = 2))
  let h1 := h.onPg fun p => ((p.put Reg.SRIOV_FLR 7 0 f).setb Reg.SRIOV_FLR 31 on).sat Reg.RST_FLR_CNT 1
  let h2 := if go then h1.tearBegin c else h1
  { h2 with hif := { h2.hif with flr := if on then some f else none } }

/-- HOT_RESET: an FLR of every function, and the link retrains (R511). -/
def Hw.hotReset (h : Hw) : Hw :=
  let h1 := (List.range (h.pg.get Reg.SRIOV_NUMVF 7 0 + 1)).foldl (fun h f => h.flr f) h
  h1.onPg fun p => (p.put Reg.HIF_LINK 1 0 0).capSet (Pages.setb Reg.CAP_HOST 8 false) [Reg.CAP_HOST]

/-! ## What the PF writes (R443, R445 to R447) -/

/-- HIF_BAY_PART: refused while a context bound to the old or new partition of a moved Bay is not FREE, or for a partition number
above 11 (R443). DEDUCED (log entry 51): context 0, which R444 binds for ever, stops a move only while it has a launch; a
move that changes the Bay count of its CTX copy is a change of a capability entry, so CAP_GEN steps (R22, R23, R25). -/
def Hw.bayPartWrite (i : Nat) (w : W32) (h : Hw) : Bool × Hw :=
  let moved := (List.range (if i = 0 then 8 else 4)).filter fun j =>
    decide (fld w (4 * j + 3) (4 * j) ≠ h.pg.get (if i = 0 then Reg.HIF_BAY_PART0 else Reg.HIF_BAY_PART1) (4 * j + 3) (4 * j))
  let parts := moved.flatMap fun j =>
    [fld w (4 * j + 3) (4 * j), h.pg.get (if i = 0 then Reg.HIF_BAY_PART0 else Reg.HIF_BAY_PART1) (4 * j + 3) (4 * j)]
  if (moved.any fun j => decide (11 < fld w (4 * j + 3) (4 * j))) || (List.range 256).any fun c =>
      (if c = 0 then h.launched 0 else h.pg.ctxSt c ≠ 0) && decide (h.pg.ctxPart c ∈ parts)
  then (false, h)
  else
    let h1 := h.onPg (Pages.wr (if i = 0 then Reg.HIF_BAY_PART0 else Reg.HIF_BAY_PART1) (if i = 0 then w else w &&& 0xFFFF#32))
    (true, if h1.pg.ctxCap 0 0x410 = h.pg.ctxCap 0 0x410 then h1 else h1.onPg Pages.capBump)

/-- HIF_PART_SLOTLEN: 1 to 64, refused while a context of the partition has a launch (R446). -/
def Hw.slotLenWrite (part : Nat) (w : W32) (h : Hw) : Bool × Hw :=
  if h.partLaunch part ∨ fld w 6 0 = 0 ∨ 64 < fld w 6 0 then (false, h) else (true, h.onPg (Pages.wr (Reg.HIF_PART_SLOTLEN part) (w &&& 0x7F#32)))

/-- HIF_SLOT (R446). -/
def Hw.slotWrite (i : Nat) (w : W32) (h : Hw) : Bool × Hw :=
  if h.partLaunch (i / 16) then (false, h) else (true, h.onPg (Pages.wr (Reg.HIF_SLOT i) w))

/-- SHAREs of a path: over the partitions, and for the far tier HIF_LEND_RES (R447). -/
def Pages.shares (p : Pages) (r : Nat) : Nat :=
  ((List.range 12).map fun part => p.get (Reg.HIF_RES (4 * part + r)) 7 0).sum + (if r = 1 then p.get Reg.HIF_LEND_RES 7 0 else 0)

/-- HIF_RES and HIF_LEND_RES: refused when the shares of the path would sum to more than 256 (R447). -/
def Hw.resWrite (key r : Nat) (w : W32) (h : Hw) : Bool × Hw :=
  let p := h.pg.wr key (w &&& 0xFFFFFF#32)
  if 256 < p.shares r then (false, h) else (true, h.onPg fun _ => p)

/-- Contexts of a partition other than c that are not FREE. -/
def Pages.partMates (p : Pages) (c : Nat) : List Nat :=
  (List.range 256).filter fun x => x ≠ c && p.ctxSt x ≠ 0 && p.ctxPart x = p.ctxPart c

/-- CTX_SCR (R23, R445): refused with a launch, outside LO < HI ≤ 128, or when the window meets another of the partition; a change
raises CAP_GEN. -/
def Hw.ctxScrWrite (c : Nat) (w : W32) (h : Hw) : Bool × Hw :=
  let lo := fld w 7 0
  let hi := fld w 15 8
  if h.launched c || decide (hi ≤ lo) || decide (128 < hi) || (h.pg.ctxSt c ≠ 0 && (h.pg.partMates c).any fun x =>
      decide (lo < h.pg.get (Reg.CTX_SCR x) 15 8) && decide (h.pg.get (Reg.CTX_SCR x) 7 0 < hi)) then (false, h)
  else (true, h.onPg (Pages.capSet (Pages.wr (Reg.CTX_SCR c) (w &&& 0xFFFF#32)) [Reg.CTX_SCR c]))

/-- CTX_QRANGE (R445, R449): refused with a launch, above 512 queues or past the last, or when it meets another range. -/
def Hw.ctxQrangeWrite (c : Nat) (w : W32) (h : Hw) : Bool × Hw :=
  let f := fld w 29 16
  let n := fld w 9 0
  if h.launched c || decide (512 < n) || decide (16384 < f + n) || (List.range 256).any fun x =>
      x ≠ c && decide (n ≠ 0) && decide (f < h.pg.get (Reg.CTX_QRANGE x) 29 16 + h.pg.get (Reg.CTX_QRANGE x) 9 0) &&
        decide (h.pg.get (Reg.CTX_QRANGE x) 29 16 < f + n) && decide (h.pg.get (Reg.CTX_QRANGE x) 9 0 ≠ 0) then (false, h)
  else (true, h.onPg (Pages.wr (Reg.CTX_QRANGE c) (w &&& 0x3FFF03FF#32)))

/-! ## The zero engine (R463) -/

/-- Write zeros over n bytes of the tiers from a, whole lines (R463). -/
def Dev.zeroLines (a n : Nat) (d : Dev) : Dev :=
  (List.range (n / 64)).foldl (fun d i => d.writeLine .host (a / 64 + i) (List.replicate 64 0)) d

/-- HIF_ZERO_CMD.GO: refused while BUSY; a range that is not whole 64 KiB units of the usable tiers sets FAULT. -/
def Hw.zeroGo (w : W32) (h : Hw) : Bool × Hw :=
  if h.pg.bit Reg.HIF_ZERO_STAT 31 then (false, h)
  else if !wbit w 0 then (true, h)
  else
    let a := (h.pg.rd64 Reg.HIF_ZERO_ADDR_LO).toNat
    let n := (h.pg.rd Reg.HIF_ZERO_LEN).toNat * 65536
    let r := h.pg.rangeRegion a n
    if a % 65536 ≠ 0 ∨ (n ≠ 0 ∧ r ≠ .near ∧ r ≠ .far) then (true, h.onPg (Pages.wr Reg.HIF_ZERO_STAT 2))
    else (true, { (h.onPg (Pages.wr Reg.HIF_ZERO_STAT 0x80000000#32)) with hif := { h.hif with zero := some (a, n) } })

/-- ZERO_DONE. -/
def Hw.zeroDone (h : Hw) : Hw :=
  match h.hif.zero with
  | none => h
  | some (a, n) =>
    let h1 := (h.onDev (Dev.zeroLines a n)).onPg (Pages.setb Reg.HIF_ZERO_STAT 31 false)
    { h1 with hif := { h1.hif with zero := none } }

/-! ## Lending (R464, R465) -/

/-- State and range of lending region j: device address and bytes. -/
def Pages.lendSt (p : Pages) (j : Nat) : Nat := p.get (Reg.LEND_STAT j) 2 0
/-- Its range: device address and bytes. -/
def Pages.lendRange (p : Pages) (j : Nat) : Nat × Nat :=
  (ftBase + p.get (Reg.LEND_BASE j) 11 0 * 0x10000000, p.get (Reg.LEND_SIZE j) 11 0 * 0x10000000)

/-- A LEND event to HIF_EQ: region and LEND_STAT (R455). -/
def Hw.lendEvent (j : Nat) (h : Hw) : Hw := h.devEvent 6 0 (bytesLE 4 j ++ bytesLE 4 (h.pg.rd (Reg.LEND_STAT j)).toNat)

/-- CAP_FT_LENT as the regions that are lent make it (R23, R464). -/
def Pages.showLent (p : Pages) : Pages :=
  let n := ((List.range 8).map fun j => if 2 ≤ p.lendSt j then (p.lendRange j).2 else 0).sum
  p.capSet (Pages.wr64 Reg.CAP_FT_LENT_LO (BitVec.ofNat 64 n)) [Reg.CAP_FT_LENT_LO, Reg.CAP_FT_LENT_HI]

/-- LEND_FREE: a RELEASING region becomes FREE once zeroing has ended. -/
def Hw.lendFree (j : Nat) (h : Hw) : Hw :=
  if h.pg.lendSt j ≠ 3 then h
  else
    let r := h.pg.lendRange j
    let h1 := if j ∈ h.hif.zeroLend then h.onDev (Dev.zeroLines r.1 r.2) else h
    let h2 := h1.onPg fun p => (p.wr (Reg.LEND_STAT j) 0).showLent
    ({ h2 with hif := { h2.hif with zeroLend := sdel h2.hif.zeroLend j } } : Hw).lendEvent j

/-- A write of LEND_CTRL: CREATE and RELEASE (R464). -/
def Hw.lendCtrl (j : Nat) (w : W32) (h : Hw) : Bool × Hw :=
  let r := h.pg.lendRange j
  if fld w 1 0 = 1 then
    let bad := h.pg.lendSt j ≠ 0 || decide (r.2 = 0) || h.pg.rangeRegion r.1 r.2 ≠ .far || (List.range 8).any fun k =>
      k ≠ j && h.pg.lendSt k ≠ 0 && decide (r.1 < (h.pg.lendRange k).1 + (h.pg.lendRange k).2) && decide ((h.pg.lendRange k).1 < r.1 + r.2)
    if bad then (false, h) else (true, h.onPg (Pages.wr (Reg.LEND_STAT j) 1))
  else if fld w 1 0 = 2 then
    if h.pg.lendSt j ≠ 2 || h.pg.bit (Reg.LEND_STAT j) 8 then (false, h)
    else
      let h1 := h.onPg (Pages.wr (Reg.LEND_STAT j) 3)
      if wbit w 4 then (true, { h1 with hif := { h1.hif with zeroLend := sadd h1.hif.zeroLend j } }) else (true, h1.lendFree j)
  else if fld w 1 0 = 3 then (false, h)
  else (true, h)

/-- LEND_ACTIVATE: earlier transfers have finished. -/
def Hw.lendActivate (j : Nat) (h : Hw) : Hw :=
  if h.pg.lendSt j ≠ 1 then h else (h.onPg fun p => (p.wr (Reg.LEND_STAT j) 2).showLent).lendEvent j

/-- HDM_COMMIT: decoder j with its interleave ways, base DPA and size; it commits on an ACTIVE region that it matches, or reports an
error (R442, R464). -/
def Hw.hdmCommit (j ways dpa size : Nat) (h : Hw) : Hw :=
  let r := h.pg.lendRange j
  let ok := decide (h.pg.lendSt j = 2) && decide (ways = 1) && decide (size = r.2) && decide (ftBase + dpa = r.1)
  let h1 : Hw := { h with hif := { h.hif with hdmErr := if ok then sdel h.hif.hdmErr j else sadd h.hif.hdmErr j } }
  if ok then h1.onPg (Pages.setb (Reg.LEND_STAT j) 8 true) else h1

/-- HDM_DECODER_UNCOMMIT. -/
def Hw.hdmUncommit (j : Nat) (h : Hw) : Hw :=
  ({ h with hif := { h.hif with hdmErr := sdel h.hif.hdmErr j } } : Hw).onPg (Pages.setb (Reg.LEND_STAT j) 8 false)

/-- A DPA range lies in a COMMITTED region. -/
def Pages.committed (p : Pages) (dpa n : Nat) : Bool :=
  (List.range 8).any fun j => p.bit (Reg.LEND_STAT j) 8 && decide ((p.lendRange j).1 ≤ ftBase + dpa) &&
    decide (ftBase + dpa + n ≤ (p.lendRange j).1 + (p.lendRange j).2)

/-- Return data for a CXL.mem read. -/
def Hw.cxlAnswer (dpa : Nat) (bs : List Byte) (poison : Bool) (h : Hw) : Hw :=
  { h with hif := { h.hif with cxlRsp := (dpa, bs, poison) :: h.hif.cxlRsp } }

/-- CXL_MEM_READ of a 64 B line: data, or the poison indication (R289, R465). -/
def Hw.cxlRead (dpa : Nat) (h : Hw) : Hw :=
  let a := dpa / 64 * 64
  if !h.pg.bit Reg.HIF_LINK 1 then h
  else if !h.pg.committed a 64 then (h.onPg (Pages.sat Reg.HIF_ATS_FAIL_CNT 1)).cxlAnswer a (List.replicate 64 0) true
  else
    let r := h.dev.tierRead .host none (ftBase + a) 64
    let h1 : Hw := { h with dev := r.2 }
    match r.1 with
    | some bs => h1.cxlAnswer a bs false
    | none => h1.cxlAnswer a (List.replicate 64 0) true

/-- CXL_MEM_WRITE of up to 64 B within a line. -/
def Hw.cxlWrite (dpa : Nat) (bs : List Byte) (h : Hw) : Hw :=
  let b := bs.take (64 - dpa % 64)
  if !h.pg.bit Reg.HIF_LINK 1 then h
  else if !h.pg.committed dpa b.length then h.onPg (Pages.sat Reg.HIF_ATS_FAIL_CNT 1)
  else h.onDev (Dev.tierWrite .host none (ftBase + dpa) b)

/-- A width that the device trains: ×16, unless PCIE_X8 is strapped, or ×8 (R9, R441, R581). -/
def Pages.hostWidthOk (p : Pages) (width : Nat) : Bool := decide (width = 8) || (decide (width = 16) && !p.bit Reg.DEV_STRAP 6)

/-- HOST_LINK_TRAINED: speed code, width (0 when the link is down), flit mode, CXL.mem (R23, R441, R442). CXL needs 32 or 64 GT/s. A link
that trains to a speed or width that R441 does not list does not come up. -/
def Hw.hostLink (speed width : Nat) (flit cxl : Bool) (h : Hw) : Hw :=
  let up := h.pg.hostWidthOk width && decide (1 ≤ speed ∧ speed ≤ 6)
  let speed := if up then speed else 0
  let width := if up then width else 0
  let flit := flit && up
  let mem := cxl && up && decide (5 ≤ speed)
  h.onPg fun p =>
    let p1 := (((((p.put Reg.HIF_LINK 31 28 speed).put Reg.HIF_LINK 20 16 width).setb Reg.HIF_LINK 8 flit).setb Reg.HIF_LINK 1 mem).setb Reg.HIF_LINK 0 up)
    (if up then p1.setb Reg.CLK_STAT 13 true else p1).capSet (fun p => (if up then p.put Reg.CAP_HOST 4 0 width else p).setb Reg.CAP_HOST 8 mem) [Reg.CAP_HOST]

end Sys2Proof.Machine
end

