-- ==== Sys2Proof/Machine/Boot.lean ====
section
/-! DEFINITION. The cold boot that the Chaise runs when RESET_N is released: flash, image, signature status, measurement, memory
training and channel map-out, the translation cache, the capability table, and the write of CAP_VER (R22, R99, R100, R285, R302, R473 to
R485, R514, R536, R546). -/

namespace Sys2Proof.Machine

/-! ## Flash and images (R473 to R476) -/

/-- What an erased flash byte reads as (log entry 3). -/
def flashDefault : Nat → Byte := fun _ => 0xFF

/-- Read the flash. -/
def Chaise.flashAt (c : Chaise) (a n : Nat) : List Byte := tgetList flashDefault c.flash a n

/-- Write the flash. -/
def Chaise.flashPut (a : Nat) (bs : List Byte) (c : Chaise) : Chaise := { c with flash := tsetList flashDefault c.flash a bs }

/-- Write pieces of the flash in order. -/
def Chaise.flashPieces (ps : List (Nat × List Byte)) (c : Chaise) : Chaise := ps.foldl (fun c x => c.flashPut x.1 x.2) c

/-- Base of image slot A (0) or B (1). -/
def slotBase (s : Nat) : Nat := if s = 0 then 0x10000 else 0xC10000

/-- A header's MAGIC, HVER, HCRC, reserved bytes and lengths (R475, R476). -/
def headerOk (hd : List Byte) : Bool :=
  slice 0 4 hd = [0x57, 0x58, 0x46, 0x57] && leAt hd 4 2 = 1 && leAt hd 508 4 = (crc32 (hd.take 508)).toNat &&
    (slice 6 2 hd ++ slice 28 4 hd ++ slice 272 236 hd).all (· = 0) && decide (1 ≤ leAt hd 16 4 ∧ leAt hd 16 4 ≤ 1572864) &&
    decide (1 ≤ leAt hd 20 4 ∧ leAt hd 20 4 ≤ 8388608)

/-- Header, firmware and tables of a slot. -/
def Chaise.hdr (c : Chaise) (s : Nat) : List Byte := c.flashAt (slotBase s) 512
/-- The firmware bytes. -/
def Chaise.firmware (c : Chaise) (s : Nat) : List Byte := c.flashAt (slotBase s + 0x200) (leAt (c.hdr s) 16 4)
/-- The translator tables. -/
def Chaise.tables (c : Chaise) (s : Nat) : List Byte := c.flashAt (slotBase s + 0x200000) (leAt (c.hdr s) 20 4)

/-- A slot is valid (R476). -/
def Chaise.slotOk (c : Chaise) (s : Nat) : Bool :=
  headerOk (c.hdr s) && sha384 (c.firmware s ++ c.tables s) = slice 32 48 (c.hdr s)

/-- The slot that the boot directory prefers; A when MAGIC or CRC is wrong (R474). -/
def Chaise.preferred (c : Chaise) : Nat :=
  let d := c.flashAt 0 16
  if slice 0 4 d = [0x57, 0x58, 0x44, 0x52] ∧ leAt d 12 4 = (crc32 (d.take 12)).toNat ∧ leAt d 4 1 = 1 then 1 else 0

/-- The slot that boots: the preferred one, else the other (R477, R492). -/
def Chaise.bootSlot (c : Chaise) : Option Nat :=
  let s := c.preferred
  if c.slotOk s then some s else if c.slotOk (1 - s) then some (1 - s) else none

/-- A reset ends an update: before it is verified the target slot's header stays erased (R492). -/
def Chaise.endUpdate (c : Chaise) : Chaise :=
  match c.update with
  | some ⟨s, false⟩ => { (c.flashPut (slotBase s) (List.replicate 512 0xFF)) with update := none }
  | _ => { c with update := none }

/-- Bytes of a run of registers. -/
def Pages.regBytes (p : Pages) (k n : Nat) : List Byte := wordsBytes ((List.range n).map fun i => p.rd (k + i))

/-- Signature status of R476: 0 ABSENT, 1 VALID, 2 INVALID, 3 KEY_UNKNOWN. -/
def Hw.sigStatus (hd : List Byte) (h : Hw) : Nat :=
  let key := slice 80 96 hd
  let sig := slice 176 96 hd
  let known := sha384 key = h.pg.regBytes (Reg.FUSE_VKEY_HASH 0) 12 && !(h.chaise.fuseBad.any fun o => decide (0x140 ≤ o) && decide (o < 0x170))
  if sig.all (· = 0) then 0 else if !known then 3 else if Config.ecdsaOk key (sha384 (hd.take 176)) sig then 1 else 2

/-! ## The boot's steps -/

/-- A step begins: BOOT_CODE in DEV_STATE and CMP_STAT (R477). -/
def Pages.bootCode (n : Nat) (p : Pages) : Pages := (p.put Reg.DEV_STATE 15 8 n).put Reg.CMP_STAT 7 0 n

/-- The boot stops with a code of R478. -/
def Pages.bootFail (code : Nat) (p : Pages) : Pages := (p.bootCode code).put Reg.DEV_STATE 3 0 3

/-- STAGE of the Chaise (R494). -/
def Pages.stage (n : Nat) (p : Pages) : Pages := p.put Reg.CMP_STAT 31 29 n

/-- Run a step of the boot, unless an earlier one has stopped it. -/
def bootStep (code : Nat) (f : Hw → Hw) (h : Hw) : Hw := if h.pg.devState = 1 then f (h.onPg (Pages.bootCode code)) else h

/-- SRAM_UE or ROM_PAR during the boot: the Chaise halts (R478, R492). -/
def Hw.chaiseFault (det : Nat) (addr : W32) (h : Hw) : Hw :=
  h.onPg fun p => ((p.raise Pg.cmp det addr.toNat none).bootFail 0x88).stage 5

/-- The device after cold reset: what RESET_N does not clear is kept, namely the flash, host memory, THERMTRIP_N, and OOS unless
CONSENT is set (R507, R514, R536). -/
def Hw.coldState (h : Hw) : Hw :=
  let oos := h.pg.bit Reg.HANG_STAT 31 && !h.pg.bit Reg.HANG_STAT 30
  let z := { Hw.reset with
    chaise := { Chaise.reset with flash := h.chaise.endUpdate.flash }
    power := { Power.reset with tripped := h.power.tripped } }
  ((z.onMem fun m => { m with host := h.dev.mem.host }).onPg fun p => { p with fresh := h.pg.fresh }).onPg (Pages.setb Reg.HANG_STAT 31 oos)

/-- Step 1: PLL, fuses, ROM, slots 0 to 2 (R477, R482, R492). -/
def Hw.boot1 (i : BootIn) (h : Hw) : Hw :=
  let h1 := h.onPg fun p => i.badFuses.foldl (fun p x => (p.wr (regKey Pg.fuse (x.1 % 4096)) x.2).raise Pg.fuse 0 (x.1 % 4096) none)
    (p.wr Reg.CLK_STAT (i.plls.setWidth 32))
  let h2 : Hw := { h1 with chaise := { h1.chaise with fuseBad := i.badFuses.map (·.1 % 4096) } }
  if !wbit i.plls 0 then h2.onPg (Pages.bootFail 0x87)
  else match i.fault with
    | some (true, a) => h2.chaiseFault 2 a
    | _ =>
      let good := Config.romHash = h2.pg.regBytes (Reg.FUSE_ROM_DIGEST 0) 12 && !(h2.chaise.fuseBad.any fun o => decide (0x100 ≤ o) && decide (o < 0x130))
      (((h2.onPg (Pages.setb Reg.SEC_STAT 31 good)).extend 0 Config.romHash).extend 1 (sha384 (h2.pg.regBytes (regKey Pg.fuse 0x040) 104))).extend 2
        (sha384 (h2.pg.regBytes Reg.DEV_STRAP 1))

/-- Step 2: the directory and the slots; with no answer or no valid slot the recovery responder starts (R477 to R479). -/
def Hw.boot2 (i : BootIn) (h : Hw) : Hw :=
  if !i.flashOk then h.onPg fun p => (p.bootFail 0x82).stage 4
  else match h.chaise.bootSlot with
    | none => h.onPg fun p => (p.bootFail 0x81).stage 4
    | some s => ({ h with chaise := { h.chaise with image := h.chaise.hdr s } } : Hw).onPg fun p => p.put Reg.CMP_STAT 8 8 s

/-- The running slot. -/
def Hw.slot (h : Hw) : Nat := h.pg.get Reg.CMP_STAT 8 8

/-- FUSE_MIN_SVN, 0xFFFF_FFFF where the word fails its check (R492). -/
def Hw.minSvn (h : Hw) : Nat := if 0x048 ∈ h.chaise.fuseBad then 0xFFFFFFFF else (h.pg.rd Reg.FUSE_MIN_SVN).toNat

/-- Step 3: signature status, slots 3 to 5, the firmware starts (R476, R477, R482). -/
def Hw.boot3 (i : BootIn) (h : Hw) : Hw :=
  let hd := h.chaise.image
  let st := h.sigStatus hd
  let h1 := h.onPg fun p =>
    ((((((p.put Reg.SEC_STAT 27 26 st).setb Reg.SEC_STAT 28 (decide (leAt hd 12 4 < h.minSvn))).wr Reg.SEC_IMG_SVN (BitVec.ofNat 32 (leAt hd 12 4))).wr
      Reg.CMP_FW_VER (BitVec.ofNat 32 (leAt hd 8 4))).wr Reg.CMP_TVER (BitVec.ofNat 32 (leAt hd 24 4)))).stage 1
  let h2 := ((h1.extend 3 (sha384 (hd ++ h.chaise.firmware h.slot))).extend 4 (sha384 (bytesLE 1 st ++ slice 12 4 hd ++ slice 80 96 hd))).extend 5
    (sha384 (h.chaise.tables h.slot))
  match i.fault with
  | some (false, a) => h2.chaiseFault 1 a
  | _ => h2

/-- Board area: port configuration record, cache configuration, certificate chain (R473). -/
def Chaise.boardArea (c : Chaise) : List Byte := c.flashAt 0x1000 4096 ++ c.flashAt 0x2000 64 ++ c.flashAt 0x3000 16384
/-- The port configuration record. -/
def Chaise.portRecord (c : Chaise) : List Byte := c.board.take 4096
/-- The certificate-chain area. -/
def Chaise.chainArea (c : Chaise) : List Byte := c.board.drop 4160

/-- The translation cache's size in MiB (R485). -/
def Chaise.cacheMib (c : Chaise) : Nat :=
  let v := leAt c.board 4096 2
  if v % 256 = 0 ∧ 256 ≤ v ∧ v ≤ 8192 then v else 1024

/-- OPE_CTRL of every port from the record; HOLD_OFF on the unused ones, and on S0 of a Dareder (R346, R358). -/
def Hw.loadPorts (h : Hw) : Hw :=
  h.onPg fun p => (List.range 10).foldl (fun p k =>
    (p.wr (Reg.OPE_CTRL k) (BitVec.ofNat 32 (Config.portCtrl h.chaise.portRecord k) &&& 0x0303FFFF#32)).setb (Reg.LINK_CTRL k) 30
      (Config.portUnused h.chaise.portRecord k || (p.isDareder && k = 8))) p

/-- The certificate chain's leaf key is the fused identity key (R489). -/
def Hw.certOk (h : Hw) : Bool :=
  match Config.certLeaf h.chaise.chainArea with
  | some (_, key) => key = h.pg.regBytes (Reg.FUSE_ID_PUB 0) 24
  | none => false

/-- Step 4: PLLs, the board area, the certificate, slot 6, the ports (R477, R489). -/
def Hw.boot4 (i : BootIn) (h : Hw) : Hw :=
  if i.plls ≠ BitVec.allOnes 14 ∨ h.power.tripped then h.onPg (Pages.bootFail 0x87)
  else
    let h1 : Hw := { h with chaise := { h.chaise with board := h.chaise.boardArea } }
    ((h1.onPg (Pages.setb Reg.SEC_STAT 30 h1.certOk)).extend 6 (sha384 (h1.chaise.board.take 4160))).loadPorts

/-! ## Memory (R285, R302) -/

/-- Channels mapped out: the fused repair list, and those that fail training or test (R285). -/
def Pages.mapOut (p : Pages) (bad : List (Fin 256)) : List Nat :=
  let fused := ((p.regBytes Reg.FUSE_NT_REPAIR0 2).map (·.toNat)).filter (· ≠ 0xFF)
  (List.range 256).filter fun c => c ∈ fused || bad.any fun b => b.val = c

/-- R285's limits are exceeded: 4 channels of a stack, 8 of the device. -/
def mapOutOver (out : List Nat) : Bool := decide (8 < out.length) || (List.range 8).any fun s => decide (4 < (out.filter fun c => c / 32 = s).length)

/-- The channel map in force and the registers that show it (R284, R310, R314). -/
def Pages.setChannels (out : List Nat) (p : Pages) : Pages :=
  let good := (List.range 256).filter fun c => c ∉ out
  let top := good.length * 0x30000000
  let p1 := (List.range 64).foldl (fun p k => p.wr (Reg.XL_CHMAP k)
    (BitVec.ofNat 32 (ofBytesLE ((List.range 4).map fun j => BitVec.ofNat 8 (good.getD (4 * k + j) 0))))) p
  let p2 := (List.range 8).foldl (fun p s => p.wr (Reg.NT_CHAN s)
    (BitVec.ofNat 32 (((good.filter fun c => c / 32 = s).map fun c => 2 ^ (c % 32)).sum))) p1
  ((p2.wr Reg.XL_NT_N (BitVec.ofNat 32 good.length)).wr Reg.CAP_NT_CHAN (BitVec.ofNat 32 good.length)).wr64 Reg.CAP_NT_TOP_LO (BitVec.ofNat 64 top)

/-- Rates of R298 that the fitted parts may train at, highest first. -/
def FarFit.rates (f : FarFit) : List Nat := (if f.lp5 then [6400] else [9600, 8533, 7500, 6400]).filter (· ≤ f.top)

/-- Every controller of a set trains at a rate. -/
def FarFit.all (f : FarFit) (cs : List Nat) (r : Nat) : Bool := cs.all fun c => f.trains.any fun t => t.1.val = c && t.2 = r

/-- Controllers that serve the far tier, their rate, and BASE4 (R302). -/
def FarFit.choose (f : FarFit) : Option (List Nat × Nat) :=
  let pop := maskBits f.ctls
  let sets := [pop, [0, 1, 2, 3], [4, 5, 6, 7]].filter fun s => !s.isEmpty && s.all fun c => c ∈ pop
  (sets.filterMap fun s => (f.rates.find? fun r => f.all s r).map fun r => (s, r)).head?

/-- FT_CFG, FT_STAT and XL_FT_POP, and the usable far tier (R22, R299, R302, R312 to R314). -/
def Pages.setFar (f : FarFit) (p : Pages) : Pages :=
  let ch := f.choose
  let cs := (ch.map (·.1)).getD []
  let rate := (ch.map (·.2)).getD 0
  let bytes := cs.length * f.ranks.val * (if f.size.val = 0 then 0 else 2 ^ (33 + f.size.val))
  let p1 := (List.range 8).foldl (fun p c =>
    let pop := wbit f.ctls c
    let inS := decide (c ∈ cs)
    (p.wr (Reg.FT_CFG c) (BitVec.ofNat 32 (if pop then inS.toNat * 2 ^ 31 + f.lp5.toNat * 2 ^ 24 + f.size.val * 2 ^ 20 + f.ranks.val * 2 ^ 16 +
        (if inS then rate else 0) else 0))).wr (Reg.FT_STAT c) (if inS then 2 else if pop then 4 else 0)) p
  (p1.wr Reg.XL_FT_POP (BitVec.ofNat 32 ((decide (cs.head? = some 4)).toNat * 256 + (if cs.isEmpty then 0 else f.ranks.val * 16) + cs.length))).wr64
    Reg.CAP_FT_USE_LO (BitVec.ofNat 64 (bytes * 15 / 16))

/-- CAP_NT_TOP, CAP_NT_CHAN and CAP_FT_USE, the entries that step 5 sets. -/
def memCaps : List Nat := [Reg.CAP_NT_TOP_LO, Reg.CAP_NT_TOP_HI, Reg.CAP_NT_CHAN, Reg.CAP_FT_USE_LO, Reg.CAP_FT_USE_HI]

/-- The far-tier pins once the population is known: a populated controller's package leaves reset and its signals are driven; on any other, FTc_RESET_N
stays low and every other FTc signal undriven (R579). DESIGN CHOICE (log entry 92): before that no FTc signal but FTc_RESET_N is driven. -/
def Hw.farPins (f : FarFit) (h : Hw) : Hw := { h with power := { h.power with ftReset := f.ctls, ftDriven := f.ctls } }

/-- Step 5: near tier, far tier, slot 7 (R285, R302, R477). -/
def Hw.boot5 (i : BootIn) (h : Hw) : Hw :=
  let out := h.pg.mapOut i.badChans
  let h1 := h.onPg fun p => out.foldl (fun p c => p.xlLog 5 0 7 c 0 none) p
  if mapOutOver out then h1.onPg (Pages.bootFail 0x83)
  else
    let h2 := (h1.farPins i.far).onPg (Pages.capSet (fun p => (p.setChannels out).setFar i.far) memCaps)
    h2.extend 7 (sha384 (h2.pg.regBytes (Reg.XL_CHMAP 0) 64 ++ (List.range 8).flatMap fun c => h2.pg.regBytes (Reg.FT_CFG c) 1))

/-- Step 6: the tables are read again into the head of the translation cache (R477, R485). -/
def Hw.boot6 (i : BootIn) (h : Hw) : Hw :=
  let old := h.chaise.tables h.slot
  let h1 : Hw := { h with chaise := h.chaise.flashPieces i.reflash }
  let tbl := h1.chaise.flashAt (slotBase h.slot + 0x200000) (leAt h.chaise.image 20 4)
  let mib := h.chaise.cacheMib
  let base := (h.pg.rd64 Reg.CAP_NT_TOP_LO).toNat - mib * 1048576
  if mib * 1048576 < tbl.length then h1.onPg (Pages.bootFail 0x86)
  else if sha384 tbl ≠ sha384 old then h1.onPg (Pages.bootFail 0x85)
  else
    ((h1.onDev (Dev.tierWrite .init none base tbl)).onPg fun p =>
      (p.wr64 Reg.CMP_XC_BASE_LO (BitVec.ofNat 64 base)).wr Reg.CMP_XC_SIZE (BitVec.ofNat 32 mib)).showCache

/-! ## The capability table (R22, R23) -/

/-- Bays in service. -/
def Pages.baysIn (p : Pages) : List Nat := (List.range 12).filter fun b => !p.bit (Reg.BAY_STAT b) 31

/-- Guard time and cycles of the current beat (R33). -/
def Pages.guardWord (p : Pages) : W32 :=
  let g := p.beatLen * 3 / 100
  BitVec.ofNat 32 (p.cycles g * 65536 + g)

/-- CAP_BEAT, CAP_BEAT_CYC and BEAT_GUARD as BEAT_LEN makes them (R22, R33). -/
def Pages.fillBeat (p : Pages) : Pages :=
  ((p.wr Reg.CAP_BEAT (BitVec.ofNat 32 (p.get Reg.BEAT_LEN 4 0 * 65536 + 0x110A))).wr Reg.CAP_BEAT_CYC (BitVec.ofNat 32 (p.cycles p.beatLen))).wr
    Reg.BEAT_GUARD p.guardWord

/-- Every entry but CAP_VER and CAP_GEN (R22); the pod configuration is kept (R23). -/
def Pages.fillCaps (p : Pages) : Pages :=
  let code := p.get Reg.FUSE_CODE 11 8
  let spares := ((List.range 108).filter fun n => p.coreSt n = 1 && !p.bit (Reg.BAY_STAT (n / 9)) 31).length
  let lent := ((List.range 8).map fun j => if 2 ≤ p.lendSt j then (p.lendRange j).2 else 0).sum
  let p1 := (p.wr Reg.CAP_ROLE (BitVec.ofNat 32 (code * 256 + p.isDareder.toNat))).wr Reg.CAP_AXIS
    (if p.rd Reg.CAP_AXIS = 0 then 0x01010101 else p.rd Reg.CAP_AXIS)
  let p2 := ((p1.wr Reg.CAP_BAYS (BitVec.ofNat 32 (spares * 65536 + 0x9800 + p.baysIn.length))).wr Reg.CAP_CLK
    (if code = 2 then 1300 else 1500)).wr Reg.CAP_SCR 8192
  let p3 := ((p2.wr Reg.CAP_FMT 0x7FFF).wr Reg.CAP_SUU 0x820).wr64 Reg.CAP_FT_LENT_LO (BitVec.ofNat 64 lent)
  let full := ((List.range 10).map fun k => if p.get (Reg.LINK_STAT k) 25 24 = 0 then 2 ^ k else 0).sum
  let p4 := (p3.wr Reg.CAP_PORTS (BitVec.ofNat 32 (full * 65536 + 0x3FF))).wr Reg.CAP_CTX 0x40000100
  ((p4.wr Reg.CAP_GRP 64).wr Reg.CAP_PART 12).fillBeat

/-- Keys of the capability table but CAP_VER and CAP_GEN. -/
def capKeys : List Nat := (rangeFrom (regKey 0 0x404) 22)

/-! ## Step 7 and CAP_VER -/

/-- Pages of the blocks in service, whose ENABLE the boot sets (R81, R477). -/
def Pages.servicePages (p : Pages) : List Nat :=
  [Pg.dev, Pg.beat, Pg.memxl, Pg.wcb, Pg.rtr, Pg.rtab 0, Pg.rtab 1, Pg.hif, Pg.sriov, Pg.cmp, Pg.sec, Pg.fuse, Pg.jrnl, Pg.pwr, Pg.clk, Pg.rst,
    Pg.hang, Pg.therm, Pg.ras, Pg.tele] ++
  (List.range 12).flatMap (fun b => [Pg.bay b, Pg.bcu b]) ++ (List.range 4).map Pg.stg ++
  (List.range 8).flatMap (fun s => [Pg.ntc s, Pg.suu s]) ++
  ((List.range 8).filter fun c => p.bit (Reg.FT_CFG c) 31).map Pg.ftc ++
  (List.range 10).flatMap (fun k => [Pg.ope k, Pg.link k]) ++
  ((List.range 108).filter fun n => decide (p.coreSt n < 2)).flatMap corePages

/-- Set ENABLE of pages; LASER_EN of the ports follows (R81, R343). -/
def Pages.enableAll (pgs : List Nat) (p : Pages) : Pages :=
  (List.range 10).foldl (fun p k => p.laserEn k false) (pgs.foldl (fun p pg => p.setb (Reg.PG_CTRL pg) 0 true) p)

/-- Step 7: blocks are enabled, the cores tested, spares switched in, the capability table filled (R477, R546). -/
def Hw.boot7 (bad : List (Fin 108)) (h : Hw) : Hw :=
  let h1 := h.onPg fun p => p.enableAll p.servicePages
  let h2 := (List.range 108).foldl (fun h n =>
    if bad.any fun b => b.val = n then (h.onPg (Pages.raise (Pg.bay (n / 9)) 3 (n % 9) none)).fence n 4 0 0 else h) h1
  let h3 := (List.range 12).foldl (fun h b => h.spareZeroDone b) h2.autoSwitch
  h3.onPg (Pages.capSet Pages.fillCaps capKeys)

/-- RESET_N_RELEASE: the straps are sampled and the cold-boot sequence runs up to the write of CAP_VER (R7, R477). -/
def Hw.coldBoot (i : BootIn) (h : Hw) : Hw :=
  if !h.power.inReset then h
  else
    let z := h.coldState
    let h0 : Hw := ({ z with power := { z.power with inReset := false }, chaise := z.chaise.flashPieces i.flash } : Hw).onPg
      (Pages.wr Reg.DEV_STRAP (i.straps.setWidth 32))
    bootStep 7 (Hw.boot7 i.badCores) (bootStep 6 (Hw.boot6 i) (bootStep 5 (Hw.boot5 i) (bootStep 4 (Hw.boot4 i) (bootStep 3 (Hw.boot3 i)
      (bootStep 2 (Hw.boot2 i) (bootStep 1 (Hw.boot1 i) h0))))))

/-- Entry into OUT_OF_SERVICE: the latch, DEV_STATE, and teardown of every context but context 0 (R535, R536). -/
def Hw.outOfService (h : Hw) : Hw :=
  let h1 := ({ h with power := { h.power with escalate := false } } : Hw).onPg fun p => (p.put Reg.DEV_STATE 3 0 4).setb Reg.HANG_STAT 31 true
  (List.range 256).foldl (fun h c => if c ≠ 0 ∧ h.pg.ctxSt c = 1 then h.tearBegin c else h) h1

/-- CAP_VER_WRITE, ms after the release or the warm request: READY, or OUT_OF_SERVICE when the OOS latch holds (R100, R477, R536). -/
def Hw.capVer (ms : W16) (h : Hw) : Hw :=
  let code := h.pg.get Reg.DEV_STATE 15 8
  if (code = 7 ∧ h.pg.devState = 1) ∨ (code = 8 ∧ (h.pg.devState = 1 ∨ h.pg.devState = 4)) then
    let h1 := h.onPg fun p =>
      (((((p.capSet (Pages.wr Reg.CAP_VER 0x1802) [Reg.CAP_VER]).bootCode 0x0F).put Reg.DEV_STATE 3 0 (if p.bit Reg.HANG_STAT 31 then 4 else 2)).stage 3).wr Reg.CMP_BOOT_MS
        (ms.setWidth 32))
    if h1.power.escalate then h1.outOfService else h1
  else h

/-- RESET_N_ASSERT: the device is held in cold reset (R514, R516). -/
def Hw.resetAssert (h : Hw) : Hw := h.coldState

/-- VAON_LOSS: the latch of OOS and CONSENT and THERMTRIP_N clear, and the device is without power, as in reset (R507, R536). -/
def Hw.vaonLoss (h : Hw) : Hw :=
  let z := h.coldState
  ({ z with power := Power.reset } : Hw).onPg (Pages.wr Reg.HANG_STAT 0)

end Sys2Proof.Machine
end

