-- ==== Sys2Proof/Machine/Chaise.lean ====
section
/-! DEFINITION. What the Chaise answers and does for others: SPDM, PLDM, firmware update, the opening of the debug lock, the reading of
measurements (R484 to R493). -/

namespace Sys2Proof.Machine

/-! ## Answers -/

/-- The extension firmware runs (R478, R487, R492). -/
def Hw.extUp (h : Hw) : Bool := !h.chaiseDead && decide (1 ≤ h.pg.get Reg.CMP_STAT 31 29 ∧ h.pg.get Reg.CMP_STAT 31 29 ≤ 3)

/-- PLDM Type 0 and Type 5 are served: by the extension firmware, or by the recovery responder (R479). -/
def Hw.pldmUp (h : Hw) : Bool := h.extUp || (!h.chaiseDead && decide (h.pg.get Reg.CMP_STAT 31 29 = 4))

/-- Send an answer. -/
def Hw.answer (r : Reply) (h : Hw) : Hw := { h with chaise := { h.chaise with replies := r :: h.chaise.replies } }

/-- Answer with ERROR, counted in SEC_SPDM_ERR (R487). -/
def Hw.spdmError (code : Nat) (h : Hw) : Hw := (h.answer (.error code)).onPg (Pages.sat Reg.SEC_SPDM_ERR 1)

/-- The signer signs a message; a failed self-check refuses every signature until cold reset (R488, R495). -/
def Hw.sign (msg : List Byte) (h : Hw) : Option (List Byte) × Hw :=
  let f := h.dev.detect Pg.sec 1 0 none false
  let h1 : Hw := { h with dev := f.2, chaise := { h.chaise with signFault := h.chaise.signFault || f.1 } }
  if h1.chaise.signFault then (none, h1)
  else (some (Config.ecdsaSign msg h1.pg.fresh), h1.onPg fun p => p.draw.2)

/-- Sign, and answer with the signature, or with ERROR Unspecified. -/
def Hw.signed (msg : List Byte) (f : List Byte → Hw → Hw) (h : Hw) : Hw :=
  match h.sign msg with
  | (some sig, h1) => f sig h1
  | (none, h1) => h1.spdmError 4

/-! ## SPDM (R484 to R489) -/

/-- The measurement blocks of one snapshot: SPDM index i + 1 is slot i (R482, R484). -/
def Chaise.blocks (c : Chaise) (index : Nat) : List (Nat × List Byte) :=
  if index = 0xFF then (List.range 32).map fun i => (i + 1, c.slot i) else [(index, c.slot (index - 1))]

/-- GET_MEASUREMENTS. -/
def Hw.getMeasurements (index : Nat) (sign : Bool) (nonce : List Byte) (h : Hw) : Hw :=
  if !h.extUp then h
  else if h.pg.devState = 1 then h.spdmError 2
  else if index ≠ 0xFF ∧ (index = 0 ∨ 32 < index) then h.spdmError 1
  else
    let bs := h.chaise.blocks index
    if sign then h.signed (nonce ++ bs.flatMap (·.2)) fun sig h => h.answer (.measurements bs (some sig))
    else h.answer (.measurements bs none)

/-- GET_MEASUREMENT_EXTENSION_LOG. -/
def Hw.getMel (h : Hw) : Hw :=
  if !h.extUp then h else if h.pg.devState = 1 then h.spdmError 2 else h.answer (.mel h.chaise.mel)

/-- The provisioned chain of slot 0, when CERT_OK (R489). -/
def Hw.chain (h : Hw) : Option (List Byte) :=
  if h.pg.bit Reg.SEC_STAT 30 then (Config.certLeaf h.chaise.chainArea).map fun x => h.chaise.chainArea.take x.1 else none

/-- GET_CERTIFICATE. -/
def Hw.getCertificate (slot : Nat) (h : Hw) : Hw :=
  if !h.extUp then h
  else match slot, h.chain with
    | 0, some c => h.answer (.certificate c)
    | _, _ => h.spdmError 1

/-- GET_DIGESTS. -/
def Hw.getDigests (h : Hw) : Hw := if !h.extUp then h else h.answer (.digests (h.chain.map sha384))

/-- CHALLENGE. -/
def Hw.challenge (nonce : List Byte) (h : Hw) : Hw := if !h.extUp then h else h.signed nonce fun sig h => h.answer (.challengeAuth sig)

/-- The sessions open, with SEC_STAT.SESSIONS (R486, R495). -/
def Hw.setSessions (l : List Nat) (h : Hw) : Hw :=
  ({ h with chaise := { h.chaise with sessions := l } } : Hw).onPg fun p => p.put Reg.SEC_STAT 2 0 l.length

/-- KEY_EXCHANGE: at most four sessions at once. -/
def Hw.keyExchange (nonce : List Byte) (h : Hw) : Hw :=
  if !h.extUp then h
  else if 4 ≤ h.chaise.sessions.length then h.spdmError 3
  else h.signed nonce fun sig h =>
    let s := ((List.range 4).find? fun i => i ∉ h.chaise.sessions).getD 0
    (h.setSessions (s :: h.chaise.sessions)).answer (.keyExchange s sig)

/-- IDE_KM in an open session keys the link's IDE stream (R441, R486). -/
def Hw.ideKm (session : Nat) (h : Hw) : Hw :=
  if !h.extUp then h
  else if session ∉ h.chaise.sessions then h.spdmError 5
  else (h.onPg (Pages.setb Reg.HIF_LINK 4 true)).answer .ideKeyed

/-- Any other request: a supported one is answered, and may end a session; another gets ERROR (R486). -/
def Hw.spdmRequest (supported : Bool) (ends : Option Nat) (h : Hw) : Hw :=
  if !h.extUp then h
  else if !supported then h.spdmError 5
  else match ends with
    | some s => (h.setSessions (sdel h.chaise.sessions s)).answer .answered
    | none => h.answer .answered

/-! ## PLDM (R490, R493) -/

/-- Sensors of a die: compute dies 0 and 1, the hub (R505, R520). -/
def dieSensors (d : Nat) : List Nat := if d = 0 then rangeFrom 0 8 else if d = 1 then rangeFrom 8 8 else rangeFrom 16 4

/-- THERM_THR.LEVEL and HYST, clamped to their ranges (R520). -/
def Pages.thrLevel (p : Pages) : Nat := min 100 (max 80 (p.get Reg.THERM_THR 7 0))
/-- HYST. -/
def Pages.thrHyst (p : Pages) : Nat := min 10 (max 1 (p.get Reg.THERM_THR 15 8))

/-- Hottest junction of some sensors, with its sensor: those that have not failed; at the throttle threshold when every one has
(R505). -/
def Pages.hottest (p : Pages) (ss : List Nat) : Int × Nat :=
  let ok := ss.filter fun i => !p.bit (Reg.THERM_SENS i) 31
  match ok with
  | [] => ((p.thrLevel : Int), ss.headD 0)
  | s :: rest => rest.foldl (fun (m : Int × Nat) i =>
      let t := signedOf 8 (p.get (Reg.THERM_SENS i) 7 0)
      if m.1 < t then (t, i) else m) (signedOf 8 (p.get (Reg.THERM_SENS s) 7 0), s)

/-- A numeric sensor's reading (R490, R505). -/
def Pages.pldmSensor (p : Pages) (id : Nat) : Option Int :=
  if id = 1 then some (((List.range 9).map fun i => p.get (Reg.PWR_RAIL i) 31 16 * p.get (Reg.PWR_RAIL i) 15 0).sum / 10000 : Nat)
  else if 2 ≤ id ∧ id ≤ 4 then some (p.hottest (dieSensors (id - 2))).1
  else if 5 ≤ id ∧ id ≤ 12 then some (p.get (Reg.NT_TEMP (id - 5)) 7 0 : Nat)
  else if 13 ≤ id ∧ id ≤ 22 then some (p.get (Reg.OPE_TEMP (id - 13)) 7 0 : Nat)
  else if id = 23 then some ((p.get (Reg.PWR_RAIL 0) 15 0 + p.get (Reg.PWR_RAIL 1) 15 0) / 10 : Nat)
  else none

/-- PLDM_DISCOVERY: the types served. -/
def Hw.pldmDiscovery (h : Hw) : Hw := if !h.pldmUp then h else h.answer (.discovery (if h.extUp then [0, 2, 5] else [0, 5]))

/-- PLDM_SENSOR_READ. -/
def Hw.pldmSensorRead (id : Nat) (h : Hw) : Hw :=
  if !h.extUp then h
  else match h.pg.pldmSensor id with
    | some v => h.answer (.sensor id v)
    | none => h.answer .pldmRefused

/-- Update the Chaise. -/
def Hw.onChaise (f : Chaise → Chaise) (h : Hw) : Hw := { h with chaise := f h.chaise }

/-- PLDM_FW_TRANSFER of up to 4 KiB at an offset of the slot that is not running (slot A in recovery): the first erases the slot's
header (R479, R493). -/
def Hw.fwTransfer (off : Nat) (bs : List Byte) (h : Hw) : Hw :=
  if !h.pldmUp then h
  else if off % 4096 ≠ 0 ∨ 4096 < bs.length ∨ 0xC00000 < off + bs.length then h.answer (.fw false none)
  else
    let s := if h.extUp then 1 - h.slot else 0
    let h1 := if h.chaise.update.isSome then h else h.onChaise fun c => c.flashPut (slotBase s) (List.replicate 512 0xFF)
    (h1.onChaise fun c => { (c.flashPut (slotBase s + off) bs) with update := some ⟨s, false⟩ }).answer (.fw true none)

/-- PLDM_FW_VERIFY: fails only when the written slot is not valid. -/
def Hw.fwVerify (h : Hw) : Hw :=
  if !h.pldmUp then h
  else match h.chaise.update with
    | none => h.answer .pldmRefused
    | some u =>
      let ok := h.chaise.slotOk u.slot
      (h.onChaise fun c => { c with update := some { u with verified := ok } }).answer (.fw ok (some (h.sigStatus (h.chaise.hdr u.slot))))

/-- A boot directory that prefers a slot (R474). -/
def bootDir (slot seq : Nat) : List Byte :=
  let d : List Byte := [0x57, 0x58, 0x44, 0x52] ++ bytesLE 1 slot ++ bytesLE 3 0 ++ bytesLE 4 seq
  d ++ bytesLE 4 (crc32 d).toNat ++ List.replicate 4080 0

/-- SEQ of the directory in the flash. -/
def Chaise.dirSeq (c : Chaise) : Nat :=
  let d := c.flashAt 0 16
  if slice 0 4 d = [0x57, 0x58, 0x44, 0x52] ∧ leAt d 12 4 = (crc32 (d.take 12)).toNat then leAt d 8 4 else 0

/-- PLDM_FW_ACTIVATE: the directory prefers the new slot, with SEQ incremented. -/
def Hw.fwActivate (h : Hw) : Hw :=
  if !h.pldmUp then h
  else match h.chaise.update with
    | some ⟨s, true⟩ => (h.onChaise fun c => { (c.flashPut 0 (bootDir s (c.dirSeq + 1))) with update := none }).answer (.fw true none)
    | _ => h.answer (.fw false none)

/-! ## The debug lock and SEC_MEAS (R484, R491) -/

/-- A write of SEC_DBG_CTRL.OPEN. -/
def Hw.dbgOpen (h : Hw) : Bool × Hw :=
  let f := h.fusePolicy
  let h0 := f.2.2
  if f.1 || decide (h0.pg.devState ≠ 2) || h0.pg.bit Reg.SEC_STAT 25 || h0.anyLaunch then (false, h0)
  else (true, ((h0.extend 8 (sha384 (asciiOf "DBG_OPEN"))).onPg (Pages.setb Reg.SEC_STAT 25 true)).onPg (Pages.setb Reg.SEC_DBG_CTRL 0 true))


end Sys2Proof.Machine
end

