-- ==== Sys2Proof/Machine/Reset.lean ====
section
/-! DEFINITION. Block resets, domain resets, warm reset, their count and escalation, and the hang monitors' actions (R82, R308, R309,
R480, R512, R513, R516, R531 to R536). -/

namespace Sys2Proof.Machine

/-! ## What a reset returns (R82, R512, R513) -/

/-- Offsets of the header that a block or domain reset keeps: PG_ERR_STAT, PG_ERR_CNT, PG_ERR_ADDR, PG_ERR_CTX, PG_ACC_ERR (R82). -/
def hdrKept (off : Nat) : Bool := off = 0x01C || decide (0x02C ≤ off ∧ off ≤ 0x03C)

/-- A register holds RWL fields: its table says so, or it is PG_ERR_INJ or PG_ERR_INJ_MODE (R79). -/
def isRwl (pg off : Nat) : Bool :=
  (off = 0x024 || off = 0x028) || (decide (0x40 ≤ off) && (findRow (pageKind pg) off).any fun r => r.kind = .locked)

/-- What a block or domain reset of a page keeps (R82). -/
def Pages.blockKeeps (p : Pages) (pg off : Nat) : Bool := hdrKept off || (p.bit (Reg.PG_CTRL pg) 2 && isRwl pg off)

/-- Return a page to its reset values but for what keep says; LOCK stays (R82). -/
def Pages.returnPage (keep : Nat → Bool) (pg : Nat) (p : Pages) : Pages :=
  (p.resetPage pg keep).setb (Reg.PG_CTRL pg) 2 (p.bit (Reg.PG_CTRL pg) 2)

/-- A domain reset of a page that keeps some of its registers besides those of R82 (R512). -/
def Pages.domPage (keep : Nat → Bool) (pg : Nat) (p : Pages) : Pages := p.returnPage (fun off => p.blockKeeps pg off || keep off) pg

/-- Nothing beyond R82 is kept. -/
def keepNone (_ : Nat) : Bool := false

/-! ## Counting and escalation (R512, R534) -/

/-- Counter of a domain's resets (R519). -/
def rstCntReg (dom : Nat) : Nat :=
  if dom = 1 then Reg.RST_CORE_CNT else if dom = 2 then Reg.RST_BAY_CNT else if dom = 3 then Reg.RST_PORT_CNT
  else if dom = 4 then Reg.RST_ROUTER_CNT else Reg.RST_WARM_CNT

/-- 600 s in ns (R534). -/
def escWindow : Nat := 600 * 10 ^ 9

/-- Entry k of HANG_ESC holds a counted reset: its domain is not 0. -/
def Pages.escAt (p : Pages) (k : Nat) : Option Nat :=
  if p.get Reg.HANG_ESC_DOM (4 * k + 3) (4 * k) = 0 then none else some (p.rd64 (Reg.HANG_ESC k)).toNat

/-- Counted resets within the last 600 s, as HANG_STAT [25:24] reads. -/
def Pages.escRecent (p : Pages) : Nat :=
  ([0, 1, 2].filter fun k => (p.escAt k).any fun t => decide (p.fbc.toNat - t ≤ escWindow)).length

/-- The history moves on: entry 2 is the newest (R534). -/
def Pages.escPush (dom : Nat) (p : Pages) : Pages :=
  ((((p.wr64 (Reg.HANG_ESC 0) (p.rd64 (Reg.HANG_ESC 1))).wr64 (Reg.HANG_ESC 1) (p.rd64 (Reg.HANG_ESC 2))).wr64 (Reg.HANG_ESC 2)
    p.fbc).wr Reg.HANG_ESC_DOM (BitVec.ofNat 32 (p.get Reg.HANG_ESC_DOM 11 4 + dom * 256)))

/-- The start of a counted reset: its counter, the RESET event, the history, and ESCALATE when the one recorded two earlier lies within
600 s (R512, R534, R540). -/
def Hw.countReset (dom tgt : Nat) (h : Hw) : Hw :=
  let third := (h.pg.escAt 1).any fun t => decide (h.pg.fbc.toNat - t ≤ escWindow)
  let h1 := h.onPg fun p => ((p.sat (rstCntReg dom) 1).tele 5 dom tgt 0).escPush dom
  let r := h1.pg.detect Pg.hang 4 dom none third
  let h2 : Hw := { h1 with dev := { h1.dev with pg := r.2 } }
  if r.1 then ({ h2 with power := { h2.power with escalate := true } } : Hw).onPg (Pages.tele 6 0 0 0) else h2

/-! ## The domains (R512) -/

/-- One physical core: its units, its scratch and its pages; FENCED becomes OFFLINE when off says so (R512, R546). -/
def Hw.coreReset (off : Bool) (n : Nat) (h : Hw) : Hw :=
  let h1 : Hw := { (h.setCore n Core.reset) with parks := tdrop (fun k => k / 256 = n) h.parks }
  h1.onPg fun p =>
    let p1 := (corePages n).foldl (fun p pg => p.domPage keepNone pg) p
    if off && p1.coreSt n = 2 then p1.setCoreSt n 3 else p1

/-- Registers of the Bay page that a BAY reset keeps: the map and the states (R512, R546). -/
def bayKeeps (off : Nat) : Bool := off = 0x040 || off = 0x044 || off = 0x050

/-- A Bay: its page, cores, combine unit, DMA, TLB (R512). -/
def Hw.bayReset (b : Nat) (h : Hw) : Hw :=
  let h1 := ((h.spareZeroDone b).modBay b fun _ => BayX.reset).onPg fun p =>
    ((p.domPage bayKeeps (Pg.bay b)).domPage keepNone (Pg.bcu b)).setb (Reg.BAY_STAT b) 30 false
  let h2 := (List.range 9).foldl (fun h k => h.coreReset false (9 * b + k)) h1
  let h3 : Hw := if b = 0 then { h2 with shdw := ⟨[], []⟩ } else h2
  ({ h3 with bcu := terase h3.bcu b } : Hw).onMem fun m => { m with tlb := m.tlb.filter (·.bay ≠ b), walks := m.walks.filter (·.bay ≠ b) }

/-- Apply an update of one port's link. -/
def Hw.onLv (p : Nat) (f : LV → LV) (h : Hw) : Hw :=
  let v := f { pg := h.pg, lk := h.link p }
  ({ h with dev := { h.dev with pg := v.pg }, links := tset (fun _ => Link.reset) h.links p v.lk } : Hw).partCount (h.link p) v.lk false

/-- A port goes OFF, its pages return to their reset values under a test, and its buffers are discarded (R362, R512). -/
def Hw.portOff (ret : Nat → Pages → Pages) (k : Nat) (h : Hw) : Hw :=
  ((h.onLv k fun v => (((v.dark k 0).onPg fun p => ret (Pg.link k) (ret (Pg.ope k) p)).discardAll k)).landed k).onPg (Pages.laserEn k false)

/-- A port (R512). -/
def Hw.portReset (k : Nat) (h : Hw) : Hw := h.portOff (fun pg p => p.domPage keepNone pg) k

/-- The router drops every packet it holds and returns its credits; every collective is abandoned (R512). -/
def Hw.routerClear (h : Hw) : Hw :=
  let h1 := h.rtr.held.foldl (fun h x => h.giveCredit x.inp { x.pkt with vc := x.vin }) h
  let h2 := h.rtr.local_.foldl (fun h x => h.giveCredit x.2 x.1) h1
  let h3 : Hw := ({ h2 with rtr := { Router.reset with flying := h2.rtr.flying } } : Hw).onPg fun p => { p with mgOut := [] }
  h3.ctxList.foldl (fun h c => h.collAbandon c) h3

/-- RTR registers that a ROUTER reset keeps: bank, epoch and the Dareder's place (R512). -/
def rtrKeeps (off : Nat) : Bool := decide (0x040 ≤ off ∧ off ≤ 0x04C) || decide (0x05C ≤ off ∧ off ≤ 0x070)

/-- In-flight counts of the packets that still travel on the links (R392). -/
def Hw.showFlight (h : Hw) : Hw :=
  h.onPg fun p => [0, 1].foldl (fun p b => p.put (inflightReg b) 15 0 (h.rtr.flying.filter fun f => f.2.1 = b).length) p

/-- The router and the Stage engines; the tables and the group slots are kept (R512). -/
def Hw.routerReset (h : Hw) : Hw :=
  (h.routerClear.onPg fun p => (List.range 4).foldl (fun p a => p.domPage (fun off => decide (0x400 ≤ off)) (Pg.stg a)) (p.domPage rtrKeeps Pg.rtr)).showFlight

/-- A domain reset begins (R512, R534). -/
def Hw.domainReset (dom tgt : Nat) (h : Hw) : Hw :=
  let h0 := h.countReset dom tgt
  let h1 := if dom = 1 then h0.coreReset true tgt else if dom = 2 then h0.bayReset tgt else if dom = 3 then h0.portReset tgt else h0.routerReset
  ({ h1 with power := { h1.power with doms := h1.power.doms ++ [(dom, tgt)] } } : Hw).onPg (Pages.setb Reg.RST_STAT 31 true)

/-- Pages of a domain whose ENABLE its last step sets again (R512). -/
def Pages.domEnable (p : Pages) (dom tgt : Nat) : List Nat :=
  let cores (ns : List Nat) : List Nat := (ns.filter fun n => decide (p.coreSt n < 2)).flatMap corePages
  if dom = 1 then cores [tgt]
  else if dom = 2 then (if p.bit (Reg.BAY_STAT tgt) 31 then [] else [Pg.bay tgt]) ++ [Pg.bcu tgt] ++ cores ((List.range 9).map (9 * tgt + ·))
  else if dom = 3 then [Pg.ope tgt, Pg.link tgt]
  else Pg.rtr :: (List.range 4).map Pg.stg

/-- DOMAIN_RESET_DONE: the oldest domain reset completes, its blocks are enabled, BUSY clears with the last; after the third counted
reset within 600 s the device leaves service (R512, R534). -/
def Hw.domainDone (h : Hw) : Hw :=
  match h.power.doms with
  | [] => h
  | d :: rest =>
    let h1 := ({ h with power := { h.power with doms := rest } } : Hw).onPg fun p =>
      (p.enableAll (p.domEnable d.1 d.2)).setb Reg.RST_STAT 31 (!rest.isEmpty)
    if h1.power.escalate && rest.isEmpty then h1.outOfService else h1

/-! ## Warm reset (R308, R309, R480, R513) -/

/-- Registers that a warm reset keeps besides those of R82: RWL fields, the kept pages, and the configuration that R309, R480, R494,
R513, R546 name. -/
def warmKeeps (pg off : Nat) : Bool :=
  isRwl pg off ||
  match pageKind pg with
  | .sec | .fuse | .cmp | .rst | .pwr | .therm | .hang | .ras | .tele | .rtab => true
  | .dev => decide (0x400 ≤ off) || decide (0x040 ≤ off ∧ off ≤ 0x050) || decide (0x060 ≤ off ∧ off ≤ 0x06C)
  | .memxl => off = 0x040 || off = 0x044 || off = 0x078 || off = 0x07C || decide (0x100 ≤ off)
  | .ntc => off = 0x040
  | .ftc => off = 0x040 || off = 0x044
  | .hif => off = 0x064 || decide (0x100 ≤ off)
  | .ctx => bindKeeps off
  | .rtr => rtrKeeps off
  | .stg => decide (0x400 ≤ off)
  | .bay => bayKeeps off
  | _ => false

/-- Every page but those of contexts and queues. -/
def corePageList : List Nat :=
  [Pg.dev, Pg.beat, Pg.memxl, Pg.wcb, Pg.rtr, Pg.rtab 0, Pg.rtab 1, Pg.hif, Pg.sriov, Pg.cmp, Pg.sec, Pg.fuse, Pg.jrnl, Pg.pwr, Pg.clk, Pg.rst,
    Pg.hang, Pg.therm, Pg.ras, Pg.tele] ++
  (List.range 12).flatMap (fun b => [Pg.bay b, Pg.bcu b]) ++ (List.range 4).map Pg.stg ++
  (List.range 8).flatMap (fun s => [Pg.ntc s, Pg.suu s, Pg.ftc s]) ++
  (List.range 10).flatMap (fun k => [Pg.ope k, Pg.link k]) ++ (List.range 108).flatMap corePages

/-- Every register at its reset value but those that a warm reset keeps; LOCK and the records of R82 are kept. -/
def Pages.warmRegs (p : Pages) : Pages :=
  let lock (k : Nat) : Bool := k % 1024 = 2
  let keeps (k : Nat) : Bool :=
    let pg := k / 1024
    let off := k % 1024 * 4
    pageKind pg ≠ .qcfg && (hdrKept off || warmKeeps pg off)
  { p with
    regs := (p.regs.filterMap fun e =>
      if keeps e.1 then some e
      else if lock e.1 && pageKind (e.1 / 1024) ≠ .qcfg then
        (if wbit e.2 2 then some (e.1, setBit (regReset e.1) 2 true) else none)
      else none)
    snap := []
    mgOut := [] }

/-- The contexts at a warm reset: all but context 0 FREE, with the generation as their last; context 0 stays BOUND (R513). -/
def Hw.warmCtxs (h : Hw) : Hw :=
  let live := (List.range 256).filter fun c => h.pg.ctxSt c ≠ 0 || (h.ctx c).lastGen.isSome
  let h1 : Hw := { h with ctxs := live.foldl (fun t c =>
      tset (fun _ => Ctx.reset) t c { Ctx.reset with lastGen := if c ≠ 0 ∧ h.pg.ctxSt c ≠ 0 then some (h.pg.ctxGen c) else (h.ctx c).lastGen }) [] }
  let st0 := h.pg.rd (Reg.CTX_STATE 0)
  h1.onPg fun p =>
    let p1 := p.warmRegs
    let p2 := live.foldl (fun p c => if c = 0 then p else p.wr (Reg.CTX_STATE c) (BitVec.ofNat 32 (h.pg.ctxGen c * 2 ^ 24 + c))) p1
    (p2.wr (Reg.CTX_STATE 0) st0).setFuncCtx 0 0

/-- Every dirty check line is written back (R308). -/
def Mem.chkClean (m : Mem) : Mem := { m with chk := m.chk.map fun e => (e.1, e.2.1, false) }

/-- The logic is reset while memory stays (R308, R309). -/
def Hw.warmClear (h : Hw) : Hw :=
  let h0 := (h.onDev (Dev.wcbFlushAll fun _ => true)).onMem Mem.chkClean
  let h1 := (List.range 10).foldl (fun h k => h.onLv k fun v => v.dark k 0) h0
  let h2 := h1.warmCtxs
  let h3 := (List.range 10).foldl (fun h k => h.onLv k (LV.discardAll k)) h2
  let h4 := h3.onMem fun m =>
    { m with tlb := [], walks := [], wcb := [], chk := [], storm := [], deadStacks := [], ftScrub := [], win := none, inval := [] }
  { h4 with
    cores := [], parks := [], rtr := Router.reset, colls := [], bcu := [], grpLost := [], suu := Suu.reset
    hif := { Hif.reset with zeroLend := h.hif.zeroLend, cxlRsp := h.hif.cxlRsp }
    shdw := ⟨[], []⟩, bays := []
    chaise := { h.chaise.endUpdate with stopped := false, sessions := [] }
    servo := { Servo.reset with top := h.servo.top }
    power := { h.power with doms := [] }
    pod := { h.pod with pending := none, heard := false, missed := 0, job := none, proven := h.pod.proven && h.pod.job.isNone,
                        stale := h.pod.stale || h.pod.job.isSome } }

/-- Far-tier controllers in service show FT_STAT 2 when they train again, 4 when they do not (R312). -/
def Pages.warmFar (ok : Byte) (p : Pages) : Pages :=
  (List.range 8).foldl (fun p c => if p.bit (Reg.FT_CFG c) 31 then p.wr (Reg.FT_STAT c) (if ok.getLsbD c then 2 else 4) else p) p

/-- The Chaise's warm boot up to the write of CAP_VER (R480). -/
def Hw.warmBoot (i : WarmIn) (h : Hw) : Hw :=
  if i.plls ≠ BitVec.allOnes 14 then h.onPg (Pages.bootFail 0x87)
  else if !i.nearOk then h.onPg (Pages.bootFail 0x84)
  else (h.onPg (Pages.warmFar i.farOk)).loadPorts.onPg fun p => (p.enableAll p.servicePages).capSet Pages.fillCaps capKeys

/-- A warm reset with a cause (R512, R513, R516): it abandons the domain resets in progress; a device whose boot has failed stays so. -/
def Hw.warmReset (cause : Nat) (i : WarmIn) (h : Hw) : Hw :=
  let st := h.pg.devState
  let h1 := (h.countReset 5 0).warmClear.onPg fun p =>
    let p0 := (p.capSet (Pages.wr Reg.CAP_VER 0) [Reg.CAP_VER]).capSet (Pages.setb Reg.CAP_HOST 8 false) [Reg.CAP_HOST]
    let p1 := (p0.put Reg.RST_CAUSE 3 0 cause).setb Reg.RST_STAT 31 false
    let p2 := ((p1.sat Reg.CMP_WARM_CNT 1).wr Reg.CMP_XC_USED 0).put Reg.SEC_STAT 2 0 0
    p2.wr Reg.CLK_STAT (i.plls.setWidth 32)
  if st = 3 then h1
  else
    (h1.onPg fun p => ((p.bootCode 8).put Reg.DEV_STATE 3 0 (if st = 4 then 4 else 1)).stage 2).warmBoot i

/-! ## RST_CMD (R512, R516, R519) -/

/-- A RST_CMD write is refused (R512, R516). -/
def Hw.rstBad (dom tgt : Nat) (h : Hw) : Bool :=
  let p := h.pg
  !h.power.doms.isEmpty || p.get Reg.DEV_STATE 15 8 = 8 || (dom = 5 && p.devState = 1) || dom = 0 || decide (5 < dom) ||
  (dom = 1 && (decide (108 ≤ tgt) || (p.coreSt tgt = 0 && !p.bit (Reg.BAY_STAT (tgt / 9)) 31 && decide (p.partSt (p.bayPart (tgt / 9)) ≠ 0)))) ||
  (dom = 2 && (decide (12 ≤ tgt) || decide (p.partSt (p.bayPart tgt) ≠ 0))) || (dom = 3 && decide (10 ≤ tgt))

/-- A write of RST_CMD: RST_STAT shows the command; a refused one changes nothing else. -/
def Hw.rstCmd (i : WarmIn) (w : W32) (h : Hw) : Bool × Hw :=
  let dom := fld w 31 28
  let tgt := fld w 7 0
  let bad := h.rstBad dom tgt
  let h1 := h.onPg fun p => ((p.setb Reg.RST_STAT 30 bad).put Reg.RST_STAT 27 24 dom).put Reg.RST_STAT 7 0 tgt
  if bad then (false, h1) else (true, if dom = 5 then h1.warmReset 1 i else h1.domainReset dom tgt)

/-- RST_TIMEOUT: a domain reset in progress has not completed in twice its time, so the device performs a warm reset (R512). -/
def Hw.rstTimeout (i : WarmIn) (h : Hw) : Hw :=
  match h.power.doms with
  | [] => h
  | d :: _ =>
    let r := h.pg.detect Pg.rst 0 (d.1 * 2 ^ 28 + d.2) none true
    ({ h with dev := { h.dev with pg := r.2 } } : Hw).warmReset 4 i

/-! ## BLOCK_RESET (R82) -/

/-- BLOCK_RESET of a page has no effect there but a STATE flag (R81), or is refused at this moment: units of a core whose partition is not
IDLE (R162, R201, GIG page). -/
def Pages.blockResetBad (p : Pages) (pg : Nat) : Bool :=
  match pageKind pg with
  | .dev | .fuse | .sec | .cmp | .ras => true
  | .mxa | .tvu | .gig => decide (p.partSt (p.bayPart ((pg - 0x100) / 4 / 9)) ≠ 0)
  | .qcfg | .qdb | .hole | .ctxWindow => true
  | _ => false

/-- A block's own state beyond its registers, as a reset leaves it. -/
def Hw.blockClear (pg : Nat) (h : Hw) : Hw :=
  let n := (pg - 0x100) / 4
  match pageKind pg with
  | .mxa => h.modCore n fun c => { c with front := none, back := none, loading := none, bank0 := [], bank1 := [], pass := none, mmode := 0,
                                          osel := false, mxq := [], mWait := false, mStop := false }
  | .tvu => h.modCore n fun c => { c with treg := [], masks := [], tvq := [], tWait := false, tStop := false, seed := (0, false),
                                          seeded := false }
  | .gig => h.modCore n fun c => { c with greg := [], ls := [], gq := [], grun := none, gStop := false, fifo := [], fifoHeld := [],
                                          fifoResv := [], fifoTail := 0, prevFill := 0 }
  | .beat => { h with servo := { Servo.reset with top := h.servo.top } }
  | .memxl => h.onMem fun m => { m with tlb := [], walks := [], win := none, inval := [] }
  | .wcb => h.onDev (Dev.wcbFlushAll fun _ => true)
  | .ntc => h.onMem fun m => { m with storm := tdrop (fun k => k / 32 = pg - Pg.ntc 0) m.storm }
  | .ftc => h.onMem fun m => { m with chk := m.chk.filter fun e => e.1 ≠ pg - Pg.ftc 0, storm := terase m.storm (256 + (pg - Pg.ftc 0)), ftScrub := terase m.ftScrub (pg - Pg.ftc 0) }
  | .suu => { h with suu := { h.suu with slots := if pg = Pg.suu 0 then [] else tdrop (fun k => k / 32 = pg - Pg.suu 0) h.suu.slots } }
  | .rtr => h.routerClear
  | .stg => (fun h : Hw => if pg = Pg.stg 0 then { h with grpLost := [] } else h) <| ((h.colls.filter fun c => c.axes.any fun r => r.ax = pg - Pg.stg 0).map (·.ctx)).foldl (fun h c => h.collAbandon c) h
  | .bcu => { h with bcu := terase h.bcu (pg - Pg.bcu 0) }
  | .bay => if pg = Pg.bay 0 then { h with shdw := ⟨[], []⟩ } else h
  | .jrnl => { h with hif := { h.hif with jBeat := 0, jSeq := 0 } }
  | .hif => { h with hif := { h.hif with zero := none } }
  | _ => h

/-- Registers that a BLOCK_RESET keeps besides R82's, where another rule says what alone changes them: the core states and OOS, which only
the events of R546 and a reset of the device change (R545, R546), OOS and CONSENT (R536), and the binding that CTX_STATE shows
(R444). -/
def blockKeepsToo (pg off : Nat) : Bool :=
  match pageKind pg with
  | .bay => off = 0x044 || off = 0x050
  | .hang => off = 0x048
  | .ctx => off = 0x040
  | _ => false

/-- A write of 1 to BLOCK_RESET; false when it is refused (R81, R82). DESIGN CHOICE (log entry 88): BLOCK_RESET of the BEAT page returns
BEAT_LEN, and CAP_BEAT with it, at once and not at a boundary. -/
def Hw.blockReset (pg : Nat) (h : Hw) : Bool × Hw :=
  if h.pg.blockResetBad pg then (false, h)
  else
    let ret (pg : Nat) (p : Pages) : Pages := p.domPage (blockKeepsToo pg) pg
    let h1 := match pageKind pg with
      | .link => h.portOff (fun x p => if x = pg then ret x p else p) (pg - Pg.link 0)
      | .ope => (h.onPg (ret pg)).onPg (Pages.laserEn (pg - Pg.ope 0) false)
      | .rtr => ((h.blockClear pg).onPg (ret pg)).showFlight
      | .ctx => (h.blockClear pg).onPg (Pages.capSet (ret pg) [regKey pg 0x048])
      | .beat => ((h.blockClear pg).onPg fun p => (ret pg p).capSet Pages.fillBeat [Reg.CAP_BEAT, Reg.CAP_BEAT_CYC]).showParts
      | _ => (h.blockClear pg).onPg (ret pg)
    (true, h1.onPg fun p => p.setb (Reg.PG_STAT pg) 31 true)

/-- IN_RESET clears (R82). -/
def Hw.blockResetDone (pg : Nat) (h : Hw) : Hw :=
  if h.pg.inReset pg then h.onPg fun p => p.setb (Reg.PG_STAT pg) 31 false else h

/-! ## Hang events (R531 to R533, R536) -/

/-- Every PLL, the near tier and the far tier train again: what a warm reset meets when its command names nothing else. -/
def WarmIn.good : WarmIn := ⟨0x3FFF#14, true, 0xFF#8⟩

/-- Record a hang event of a kind: HANG_LAST, its target, the count, the detector, the HANG event (R532, R540). -/
def Hw.hangEvent (kind tgt : Nat) (cx : CtxId) (h : Hw) : Hw :=
  h.onPg fun p =>
    let w := kind * 2 ^ 28 + match cx with | none => 2 ^ 27 | some c => c.2 % 16 * 65536 + c.1 % 256
    let p1 := ((p.wr Reg.HANG_LAST (BitVec.ofNat 32 w)).wr Reg.HANG_LAST_TGT (BitVec.ofNat 32 tgt)).sat Reg.HANG_CNT 1
    (p1.raise Pg.hang (kind - 1) (if kind = 4 then 0 else tgt) cx).tele 4 kind tgt 0

/-- The monitor of a kind runs: enabled, and the device READY (R533). -/
def Pages.hangOn (p : Pages) (kind : Nat) : Bool := p.bit Reg.HANG_CTRL (kind - 1) && p.devState = 2 && p.works Pg.hang

/-- The kind's action is on. -/
def Pages.hangAct (p : Pages) (kind : Nat) : Bool := p.bit Reg.HANG_CTRL (kind + 7)

/-- A domain reset in progress covers an instance. -/
def Hw.underReset (dom tgt : Nat) (h : Hw) : Bool :=
  h.power.doms.any fun d => d = (dom, tgt) || (dom = 1 && d = (2, tgt / 9)) || (dom = 3 && d.1 = 4)

/-- The core monitor judges a core. -/
def Hw.coreWatched (n : Nat) (h : Hw) : Bool :=
  let st := h.pg.partSt (h.pg.bayPart (n / 9))
  h.pg.hangOn 1 && !h.underReset 1 n && h.pg.coreSt n = 0 && st ≠ 0 && st ≠ 4

/-- CORE_HANG: the action reports the core failed and fences it. -/
def Hw.coreHang (n : Nat) (h : Hw) : Hw :=
  let part := h.pg.bayPart (n / 9)
  if !h.coreWatched n then h
  else
    let h1 := h.hangEvent 1 n ((h.pg.slotCtx part).bind h.pg.ctxId)
    if h.pg.hangAct 1 then h1.fence n 2 0 0 else h1

/-- The queue monitor judges a queue: an enabled SQ with a visible entry, none of whose entries is being translated or is an accepted launch, and
which does not wait for room in its CQ (R531). -/
def Hw.queueWatched (q : Nat) (h : Hw) : Bool :=
  h.pg.hangOn 2 && h.pg.qIs q 0 && decide (h.pg.get (Reg.Q_HEAD q) 15 0 ≠ h.pg.get (Reg.Q_TAIL q) 15 0) && !h.stalled q &&
    !(h.hif.loads.any fun r => r.sq = q) && !((h.pg.qOwner q).any fun c => (h.ctx c).launch.any fun l => l.sq = q)

/-- QUEUE_HANG: the action tears the owner down, but for context 0. -/
def Hw.queueHang (q : Nat) (h : Hw) : Hw :=
  if !h.queueWatched q then h
  else
    let h1 := h.hangEvent 2 q ((h.pg.qOwner q).bind h.pg.ctxId)
    match h.pg.qOwner q with
    | some c => if h.pg.hangAct 2 && decide (c ≠ 0) && h.pg.ctxSt c = 1 then h1.tearBegin c else h1
    | none => h1

/-- Context of the oldest packet that waits for a port; none for VC 7. -/
def Hw.portCx (k : Nat) (h : Hw) : CtxId := ((h.rtr.held.find? fun x => x.out = k).map fun x => x.pkt.cx).getD none

/-- The port monitor judges a port. -/
def Hw.portWatched (k : Nat) (h : Hw) : Bool :=
  h.pg.hangOn 3 && !h.underReset 3 k && h.pg.linkActive k && h.rtr.held.any fun x => x.out = k

/-- PORT_HANG: the action is a PORT reset. -/
def Hw.portHang (k : Nat) (h : Hw) : Hw :=
  if !h.portWatched k then h
  else
    let h1 := h.hangEvent 3 k (h.portCx k)
    if h.pg.hangAct 3 then h1.domainReset 3 k else h1

/-- The Chaise monitor judges the Chaise. -/
def Hw.cmpWatched (h : Hw) : Bool := h.pg.hangOn 4 && h.pg.get Reg.CMP_STAT 31 29 = 3

/-- CMP_HANG: the action is a warm reset with cause 3. -/
def Hw.cmpHang (i : WarmIn) (h : Hw) : Hw :=
  if !h.cmpWatched then h
  else
    let h1 := h.hangEvent 4 0 none
    if h.pg.hangAct 4 then h1.warmReset 3 i else h1

/-- A write of HANG_CONSENT: accepted only while OOS is 1; [0] sets CONSENT (R536). -/
def Hw.hangConsent (w : W32) (h : Hw) : Bool × Hw :=
  if !h.pg.bit Reg.HANG_STAT 31 then (false, h) else (true, if wbit w 0 then h.onPg (Pages.setb Reg.HANG_STAT 30 true) else h)

end Sys2Proof.Machine
end

