-- ==== Sys2Proof/Machine/Power.lean ====
section
/-! DEFINITION. Rails and their voltages, P-states, the power cap, junction sensors and the thermal throttle, PLLs and FREF (R497 to R510,
R517, R518, R520). -/

namespace Sys2Proof.Machine

/-! ## Rails (R497, R498, R500) -/

/-- An under-voltage warning of rail k at v mV: the count, VR_UV_WARN, PWR_SUSPECT, the first and last beat, the VR_UV event (R500). -/
def Pages.uvWarn (k v : Nat) (p : Pages) : Pages :=
  let b : W64 := p.beatNum.setWidth 64
  let valid := p.bit Reg.PWR_SUSPECT 31
  let p1 := ((p.sat Reg.PWR_UV_CNT 1).raise Pg.pwr 0 k none).wr64 Reg.PWR_UV_LAST_LO b
  let p2 := if valid then p1 else (p1.wr64 Reg.PWR_UV_FIRST_LO b).setb Reg.PWR_SUSPECT 31 true
  (p2.setb Reg.PWR_SUSPECT k true).tele 1 k 0 v

/-- The Chaise reads the status and the values of a rail (R497, R500); an armed detector of the rail fires here (R529). -/
def Pages.railRead (k : Nat) (r : VrRead) (p : Pages) : Pages :=
  let p1 := p.wr (Reg.PWR_RAIL k) (BitVec.ofNat 32 (r.mv % 65536 * 65536 + r.da % 65536))
  let w := p1.fire Pg.pwr 0 k
  let p2 := if r.warn || w.1 then w.2.uvWarn k r.mv else w.2
  let f := p2.fire Pg.pwr 1 k
  if r.fault || f.1 then (f.2.raise Pg.pwr 1 k none).tele 2 k 0 r.mv else f.2

/-- A transaction of rail k has failed three times in a row, or its detector is armed (R517). -/
def Pages.busErr (k : Nat) (real : Bool) (p : Pages) : Pages := (p.detect Pg.pwr 2 k none real).2

/-- The rails of a poll. -/
def Pages.railPoll (rails : List (Fin 9 × VrRead)) (bad : List (Fin 9)) (p : Pages) : Pages :=
  let p1 := rails.foldl (fun p r => p.railRead r.1.val r.2) p
  (List.range 9).foldl (fun p k => p.busErr k (bad.any fun b => b.val = k)) p1

/-- The Chaise's SRAM as it runs: an injected correctable or uncorrectable word is found; an uncorrectable one halts the Chaise (R492,
R494, R529). The word's offset is open. -/
def Pages.sramCheck (p : Pages) : Pages :=
  let c := p.fire Pg.cmp 0 0
  let d := c.2.draw
  let p1 := if c.1 then (d.2.raise Pg.cmp 0 (Config.freeWord d.1 % 0x200000) none).sat Reg.CMP_SRAM_CE_CNT 1 else c.2
  let u := p1.fire Pg.cmp 1 0
  let e := u.2.draw
  if u.1 then (e.2.raise Pg.cmp 1 (Config.freeWord e.1 % 0x200000) none).stage 5 else u.2

/-- VR_STATUS_POLL: the rails are read, and the heartbeat of a running Chaise goes on (R494, R497). -/
def Hw.vrPoll (rails : List (Fin 9 × VrRead)) (bad : List (Fin 9)) (h : Hw) : Hw :=
  if h.chaiseDead then h
  else h.onPg fun p =>
    let p1 := p.railPoll rails bad
    (if p1.get Reg.CMP_STAT 31 29 = 3 then p1.upd Reg.CMP_HB (· + 1) else p1).sramCheck

/-- PMB_ALERT_N: an immediate read of the PMBus rails, 3 to 8 (R497, R583). -/
def Hw.pmbAlert (rails : List (Fin 9 × VrRead)) (h : Hw) : Hw :=
  if h.chaiseDead then h else h.onPg fun p => (rails.filter fun r => decide (3 ≤ r.1.val)).foldl (fun p r => p.railRead r.1.val r.2) p

/-- Hottest junction of the device: the hottest of its three dies (R505). -/
def Pages.hot (p : Pages) : Int × Nat :=
  [1, 2].foldl (fun (m : Int × Nat) d => let x := p.hottest (dieSensors d); if m.1 < x.1 then x else m) (p.hottest (dieSensors 0))

/-- Hottest junction on rail 0, 1 or 2. -/
def Pages.railHot (p : Pages) (k : Nat) : Int := if k = 2 then p.hot.1 else (p.hottest (dieSensors k)).1

/-- One step of a target toward the fused value, at most 5 mV, within the rail's range (R497, R498). -/
def avsStep (lo now want : Nat) : Nat :=
  let w := min 900 (max lo want)
  if now < w then min w (now + 5) else max w (now - 5)

/-- AVS_UPDATE: the targets of rails 0 to 2 (R498). -/
def Hw.avsUpdate (h : Hw) : Hw :=
  if h.chaiseDead then h
  else h.onPg fun p => [0, 1, 2].foldl (fun p k =>
    p.upd (Reg.PWR_AVS_D0 + k) fun w => BitVec.ofNat 32 (avsStep (if k = 2 then 750 else 650) (fld w 15 0)
      (Config.avsTarget k (p.get Reg.FUSE_CODE 11 8) (p.railHot k)))) p

/-! ## P-state and cap (R502, R503) -/

/-- A context has an EXACT launch accepted or running. -/
def Hw.anyExact (h : Hw) : Bool := h.ctxList.any fun c => h.launched c && h.mode c = 2

/-- P-state a write selects: 5 to 7 act as 4 (R517). -/
def pstateOf (w : W32) : Nat := min 4 (fld w 2 0)

/-- A write of PWR_PSTATE: refused during EXACT; in force from the next boundary (R502). -/
def Hw.pstateWrite (w : W32) (h : Hw) : Bool × Hw :=
  if h.anyExact then (false, h)
  else (true, ({ h with power := { h.power with pend := true } } : Hw).onPg (Pages.put Reg.PWR_PSTATE 2 0 (fld w 2 0)))

/-- A write of PWR_CAP: setting EN is refused during EXACT (R502); PWR_STAT [0] shows EN. -/
def Hw.capWrite (w : W32) (h : Hw) : Bool × Hw :=
  if wbit w 31 && h.anyExact then (false, h)
  else (true, h.onPg fun p => (p.wr Reg.PWR_CAP (w &&& 0x8000FFFF#32)).setb Reg.PWR_STAT 0 (wbit w 31))

/-- PWR_SUSPECT [31] W1C: clearing VALID also zeroes the beats (R517). -/
def Pages.suspectClear (w : W32) (p : Pages) : Pages :=
  if wbit w 31 then ((p.setb Reg.PWR_SUSPECT 31 false).wr64 Reg.PWR_UV_FIRST_LO 0).wr64 Reg.PWR_UV_LAST_LO 0 else p

/-- Length of a cap window, ms (R517). -/
def Pages.capWin (p : Pages) : Nat := max 1 (p.get Reg.PWR_CAP_WIN 3 0)

/-- CAP_WINDOW_END with the window's average power: energy, the window registers, and the cap duty's change at the next boundary (R503). -/
def Hw.capWindow (watts : Nat) (h : Hw) : Hw :=
  if h.chaiseDead then h
  else
    let h1 := h.onPg (Pages.count Reg.PWR_ENERGY_LO (watts * h.pg.capWin))
    if !h.pg.bit Reg.PWR_CAP 31 then h1
    else
      let cap := h.pg.get Reg.PWR_CAP 15 0
      let step := if cap < watts then 1 else if watts * 100 < cap * 95 then 2 else 0
      ({ h1 with power := { h1.power with capStep := step } } : Hw).onPg fun p => (p.put Reg.PWR_PKG 15 0 watts).maxFld Reg.PWR_PKG_MAX 15 0 watts

/-! ## Junctions (R505 to R507) -/

/-- A sensor's reading: outside -40 to 150 °C, or injected, it has failed (R505). -/
def Pages.sensorRead (i : Nat) (t : Int) (p : Pages) : Pages :=
  let r := p.detect Pg.therm 1 i none (decide (t < -40) || decide (150 < t))
  if r.1 then r.2.wr (Reg.THERM_SENS i) (BitVec.ofNat 32 (2 ^ 31 + (t % 256).toNat)) else r.2.wr (Reg.THERM_SENS i) (BitVec.ofNat 32 (t % 256).toNat)

/-- THERM_STAT and THERM_MAX as the sensors have them. -/
def Pages.showHot (p : Pages) : Pages :=
  let m := p.hot
  ((p.put Reg.THERM_STAT 15 8 m.1.toNat).put Reg.THERM_STAT 4 0 m.2).maxFld Reg.THERM_MAX 7 0 m.1.toNat

/-- The tiers' and the ports' temperatures: refresh doubles from 85 °C, an engine above 80 °C is over its rating, an MR4 code of 0 or 7 is
outside the rated range (R296, R310, R315, R369). -/
def Pages.otherTemps (near ports : List Nat) (far : List (Fin 8)) (p : Pages) : Pages :=
  let p1 := near.zipIdx.foldl (fun p x => if x.2 < 8 then
    p.wr (Reg.NT_TEMP x.2) (BitVec.ofNat 32 ((decide (85 ≤ x.1)).toNat * 256 + x.1 % 256)) else p) p
  let p2 := ports.zipIdx.foldl (fun p x => if x.2 < 10 then
    ((p.wr (Reg.OPE_TEMP x.2) (BitVec.ofNat 32 (x.1 % 256))).detect (Pg.ope x.2) 3 0 none (decide (80 < x.1))).2 else p) p1
  far.zipIdx.foldl (fun p x => if x.2 < 8 then
    ((p.wr (Reg.FT_TEMP x.2) (BitVec.ofNat 32 x.1.val)).detect (Pg.ftc x.2) 4 0 none (p.bit (Reg.FT_CFG x.2) 31 && (x.1.val = 0 || x.1.val = 7))).2 else p) p2

/-- THERM_SAMPLE. -/
def Hw.thermSample (sensors : List Int) (near ports : List Nat) (far : List (Fin 8)) (h : Hw) : Hw :=
  h.onPg fun p => ((sensors.zipIdx.foldl (fun p x => if x.2 < 20 then p.sensorRead x.2 x.1 else p) p).otherTemps near ports far).showHot

/-- THERM_DUTY_STEP: each 1 ms the hottest junction decides the change at the next boundary (R506). -/
def Hw.thermStep (h : Hw) : Hw :=
  let t := h.pg.hot.1
  let lvl : Int := h.pg.thrLevel
  let step := if lvl ≤ t then 1 else if t ≤ lvl - h.pg.thrHyst then 2 else 0
  { h with power := { h.power with thermStep := step } }

/-- THERMTRIP: THERMTRIP_N is asserted, every clock but the Chaise's stops, every LASER_EN is low (R507). -/
def Hw.thermtrip (h : Hw) : Hw :=
  ({ h with power := { h.power with tripped := true } } : Hw).onPg fun p =>
    (List.range 10).foldl (fun p k => p.setb (Reg.OPE_STAT k) 30 false) p

/-! ## Clocks (R509, R510) -/

/-- PLL_UNLOCK: the Chaise stops for its own PLL, the host link goes down for PCIE's, any other is gated and a warm reset with cause 2
follows (R510). -/
def Hw.pllUnlock (k : Nat) (i : WarmIn) (h : Hw) : Hw :=
  let h1 := h.onPg fun p => ((p.raise Pg.clk 0 k none).setb Reg.CLK_STAT k false).sat Reg.CLK_LOCKLOSS_CNT 1
  if k = 0 then { h1 with chaise := { h1.chaise with stopped := true } }
  else if k = 13 then h1.hostLink 0 0 false false
  else if h1.chaiseDead || h1.pg.devState = 1 then h1
  else h1.warmReset 2 i

/-- FREF_DRIFT: the offset shows, and beyond 100 ppm the detector is raised (R509). -/
def Pages.frefDrift (t : Int) (p : Pages) : Pages :=
  ((p.put Reg.CLK_FREF_PPM 15 0 (t % 65536).toNat).detect Pg.clk 1 0 none (decide (1000 < t) || decide (t < -1000))).2

end Sys2Proof.Machine
end

