-- ==== Sys2Proof/Machine/Mgmt.lean ====
section
/-! DEFINITION. Management packets and messages: how a device sends them and who takes them (R375, R562). -/

namespace Sys2Proof.Machine

/-! ## Management messages (R562) -/

/-- The payload of a message. -/
def MgMsg.payload (m : MgMsg) : List Byte :=
  bytesLE 1 m.kind ++ bytesLE 1 m.status ++ bytesLE 2 m.body.length ++ bytesLE 4 m.term.toNat ++ bytesLE 8 m.seq.toNat ++ m.body

/-- SRC of what this device sends on the management VC: its node, or its Dareder address (R373, R388). -/
def Hw.mgSrc (h : Hw) : Nat := if h.pg.isDareder then h.role else h.pg.node

/-- A management packet of this device. -/
def Hw.mgPacket (dst opc addr : Nat) (ext : W64) (bs : List Byte) (h : Hw) : Packet :=
  ({ h.pg.mkPacket dst opc 7 0 0 addr 0 0 true true ext bs 0 with src := h.mgSrc } : Packet).seal

/-- Inject a message. -/
def Hw.mgMsg (m : MgMsg) (h : Hw) : Hw := h.inject (h.mgPacket m.dest 0x23 0 (crc64 m.payload) m.payload)

/-- The messages that the pages have made enter the router (R527, R540). -/
def Hw.mgFlush (h : Hw) : Hw :=
  match h.pg.mgOut with
  | [] => h
  | ms => ms.foldl (fun h m => h.mgMsg m) (h.onPg fun p => { p with mgOut := [] })

/-- A write of register space at another device (MG_WR). -/
def Hw.mgWrite (node addr : Nat) (bs : List Byte) (h : Hw) : Hw := h.inject (h.mgPacket node 0x20 addr (crc64 bs) bs)

/-- The writes that the pod's records call for (log entry 15). -/
def Hw.podWrites (step : Nat) (h : Hw) : Hw :=
  (Config.podPlan step h.pod.applied h.pod.collected).foldl (fun h x => h.mgWrite x.1 x.2.1 x.2.2) h

/-- Change the pod's part. -/
def Hw.onPod (f : Pod → Pod) (h : Hw) : Hw := { h with pod := f h.pod }

/-- A KIND that R562 lists. -/
def mgKnown (kind : Nat) : Bool := decide (1 ≤ kind ∧ kind ≤ 0x0A)

/-- A message of a KIND arrives: the Chaise takes it when it runs; one of an unknown KIND is dropped and answered REFUSED. -/
def Hw.mgTake (kind : Nat) (src : PktSrc) (f : Packet → List Byte → Hw → Hw) (h : Hw) : Hw :=
  let r := h.arrive (fun k => k.opc = 0x23 && (leAt k.payload 0 1 = kind || !mgKnown (leAt k.payload 0 1))) src
  match r.1 with
  | none => r.2
  | some (k, _) =>
    let h1 := r.2
    if !h1.extUp then h1
    else if !mgKnown (leAt k.payload 0 1) then
      h1.mgMsg ⟨k.src, leAt k.payload 0 1, 2, if h1.pg.isDareder then BitVec.ofNat 32 h1.pod.term else 0, BitVec.ofNat 64 (leAt k.payload 8 8), []⟩
    else f k (slice 16 (min 4080 (leAt k.payload 2 2)) k.payload) h1

/-- SEQ of a message. -/
def Packet.mgSeq (k : Packet) : Nat := leAt k.payload 8 8
/-- TERM of a message. -/
def Packet.mgTerm (k : Packet) : Nat := leAt k.payload 4 4

/-- Only a Dareder takes the message; only the active, when act says so. -/
def Hw.asDareder (act : Bool) (f : Hw → Hw) (h : Hw) : Hw := if h.pg.isDareder && (!act || h.pod.active) then f h else h

/-- Only a worker takes the message. -/
def Hw.asWorker (f : Hw → Hw) (h : Hw) : Hw := if h.pg.isDareder then h else f h

/-- A write of one register of another device. -/
def Hw.podReg (n key : Nat) (w : W32) (h : Hw) : Hw := h.mgWrite n (regBase + 4 * key) (bytesLE 4 w.toNat)

/-- A write of a 64-bit register of another device. -/
def Hw.podReg64 (n key w : Nat) (h : Hw) : Hw := h.mgWrite n (regBase + 4 * key) (bytesLE 8 w)

/-- A read of register space at another device (MG_RD), 4 or 8 B. -/
def Hw.podRead (n key width : Nat) (h : Hw) : Hw := h.inject (h.mgPacket n 0x21 (regBase + 4 * key) (BitVec.ofNat 64 width) [])

end Sys2Proof.Machine
end

