-- ==== Sys2Proof/Machine/Dareder.lean ====
section
/-! DEFINITION. What the active Dareder does of its own accord: the state log, the route banks and the change from one to the other, the fence of a device,
a new configuration, and the comparison and promotion of a SHADOW (R391, R393, R550, R555, R564, R566, R569, R573; log entry 93). -/

namespace Sys2Proof.Machine

/-- The workers of the pod that are not fenced. -/
def Pod.workers (x : Pod) : List Nat := (Config.podWorkers x.applied).filter fun n => n ∉ x.fenced

/-- A change of pod state is recorded: its LOG and COMMIT go to the standby before the active acts on the workers (R569). -/
def Hw.podLog (kind n : Nat) (h : Hw) : Hw :=
  let r := Config.podRecord kind n
  let h1 := h.onPod fun x => { x with gen := x.gen + 1, applied := x.applied ++ [(x.gen + 1, r)] }
  let m (kind : Nat) (b : List Byte) : MgMsg := ⟨0xFFFE, kind, 0, BitVec.ofNat 32 h.pod.term, BitVec.ofNat 64 h1.pod.gen, b⟩
  (h1.mgMsg (m 4 r)).mgMsg (m 5 [])

/-! ## The route banks (R383, R389, R398, R566) -/

/-- Dimension order on one axis: the port from a coordinate toward another. Messages and management travel away from the wrap link; the other classes
take the shorter way round. -/
def wayPort (ext cls ax own c : Nat) : Nat :=
  let up := if 3 ≤ cls then decide (own < c)
    else
      let d := (c + ext - own) % ext
      decide (2 * d < ext) || (decide (2 * d = ext) && Config.podTieUp cls ax own c)
  if up then 2 * ax else 2 * ax + 1

/-- The byte of a normal entry: coordinate reached, a port, or not valid beyond the extent. -/
def normByte (ext cls ax own c : Nat) : Nat := if ext ≤ c then 0 else 0x80 + (if c = own then 0xE else wayPort ext cls ax own c)

/-- The normal entries of a worker's bank: 40 writes of 8 B. -/
def Pod.normWrites (x : Pod) (n bank : Nat) : List (Nat × List Byte) :=
  (List.range 40).map fun i => (Reg.RTAB_NORM bank (2 * i), (List.range 8).map fun j =>
    let e := 8 * i + j
    BitVec.ofNat 8 (normByte (Config.podExtent x.applied (e / 16 % 4)) (e / 64) (e / 16 % 4) (coordOf n (e / 16 % 4)) (e % 16)))

/-- The attachment worker that every worker names for the active, or for the standby: the first that is not fenced. -/
def Pod.attach (x : Pod) (active : Bool) : Nat := (((Config.podAttach x.applied active).filter fun n => n ∉ x.fenced).head?).getD 0

/-- The detours of a worker: those with codes that R398 accepts that detour no traffic for 0xFFFF or 0xFFFE, which is looked up by its attachment worker. -/
def Pod.detours (x : Pod) (n : Nat) : List (Nat × Nat × Nat × Nat × Nat) :=
  ((Config.podDetours x.applied x.congest x.down x.fenced n).filter fun d =>
    decide (d.2.2.2.2 < 10) && (decide (d.2.2.2.1 < 10) || d.2.2.2.1 = 15) &&
      [x.attach true, x.attach false].all fun a => decide (Nat.land a d.2.1 ≠ Nat.land d.1 d.2.1)).take 16

/-- The detour entries of a worker's bank, absent ones zero: match and condition, then the action. -/
def Pod.detourWrites (x : Pod) (n bank : Nat) : List (Nat × List Byte) :=
  (List.range 16).flatMap fun j =>
    match (x.detours n)[j]? with
    | some d => [(Reg.DT_MATCH bank j, bytesLE 2 d.1 ++ bytesLE 2 d.2.1 ++ bytesLE 4 (2 ^ 31 + d.2.2.2.1 * 2 ^ 8 + d.2.2.1 % 32)),
        (Reg.DT_ACT bank j, bytesLE 4 d.2.2.2.2)]
    | none => [(Reg.DT_MATCH bank j, bytesLE 8 0), (Reg.DT_ACT bank j, bytesLE 4 0)]

/-- Both parts of a worker's bank. -/
def Hw.writeBank (bank n : Nat) (h : Hw) : Hw :=
  (h.pod.normWrites n bank ++ h.pod.detourWrites n bank).foldl (fun h w => h.mgWrite n (regBase + 4 * w.1) w.2) h

/-- RTR_DAR_NODE: the halves of the active and the standby. -/
def Pod.darNode (x : Pod) : Nat := x.attach false * 65536 + x.attach true

/-- Arm the change to a bank at a beat on one worker, and the change of epoch with it when a device is fenced (R391, R394, R550). -/
def Hw.armBank (j : BankJob) (n : Nat) (h : Hw) : Hw :=
  let h1 := ((h.podReg n Reg.RTR_DAR_NODE (BitVec.ofNat 32 h.pod.darNode)).podReg64 n Reg.RTR_BANK_AT_LO j.at_).podReg n Reg.RTR_BANK_NEXT
    (BitVec.ofNat 32 (2 ^ 31 + j.bank))
  if h.pod.fencing.isEmpty then h1
  else (h1.podReg64 n Reg.RTR_FEP_AT_LO j.at_).podReg n Reg.RTR_FEP_NEXT (BitVec.ofNat 32 (2 ^ 31 + (h.pg.get Reg.RTR_FEP 7 0 + 1) % 256))

/-- This device's own router takes part in the change. -/
def Pages.armOwn (j : BankJob) (fence : Bool) (p : Pages) : Pages :=
  let p1 := ((p.wr64 Reg.RTR_BANK_AT_LO (BitVec.ofNat 64 j.at_)).wr Reg.RTR_BANK_NEXT (BitVec.ofNat 32 (2 ^ 31 + j.bank))).setb Reg.RTR_BANK 16 true
  if fence then (p1.wr64 Reg.RTR_FEP_AT_LO (BitVec.ofNat 64 j.at_)).wr Reg.RTR_FEP_NEXT (BitVec.ofNat 32 (2 ^ 31 + (p.get Reg.RTR_FEP 7 0 + 1) % 256)) else p1

/-- The ports that face a fenced device expect the new epoch (R360, R550). -/
def Hw.expectEpoch (f : Nat) (h : Hw) : Hw :=
  (Config.podFacing h.pod.applied f).foldl (fun h x =>
    (h.podReg x.1 (Reg.LINK_EXP_EPOCH x.2) (BitVec.ofNat 32 ((h.pg.get Reg.RTR_FEP 7 0 + 1) % 256))).podReg x.1 (Reg.LINK_CTRL x.2) 0x00010814#32) h

/-- The bank that is proven empty is written on every worker, and the change to it is armed, with the epoch's when a device is fenced. -/
def Hw.bankWrite (j : BankJob) (h : Hw) : Hw :=
  let j1 := { j with phase := 2, left := [], at_ := h.pg.beatNum.toNat + 2 + Config.podLead }
  let h1 := h.podLog 1 j.bank
  let ws := h1.pod.workers
  let h2 := ws.foldl (fun h n => h.writeBank j.bank n) h1
  let h3 := h2.pod.fencing.foldl (fun h f => h.expectEpoch f) (ws.foldl (fun h n => h.armBank j1 n) h2)
  (h3.onPg (Pages.armOwn j1 !h.pod.fencing.isEmpty)).onPod fun x => { x with job := some j1, proven := false, fencing := [] }

/-- DRAINED of a bank is armed in a router, and read. -/
def Hw.drainAsk (bank n : Nat) (h : Hw) : Hw := (h.podReg n Reg.RTR_DRAIN_ARM (BitVec.ofNat 32 (2 ^ bank))).podRead n Reg.RTR_BANK 4

/-- Step 1 of R393: DRAINED is armed in every router. -/
def Hw.drainStart (j : BankJob) (h : Hw) : Hw :=
  let ws := h.pod.workers
  ws.foldl (fun h n => h.drainAsk j.drains n) (h.onPod fun x => { x with job := some { j with phase := 0, left := ws, bad := false } })

/-- Step 2 of R393: DRAINED is read from every router. -/
def Hw.drainRead (j : BankJob) (h : Hw) : Hw :=
  let ws := h.pod.workers
  ws.foldl (fun h n => h.podRead n Reg.RTR_BANK 4) (h.onPod fun x => { x with job := some { j with phase := 1, left := ws, bad := false } })

/-- New tables are wanted: the bank not in use is written at once when it is proven empty, and after the proof when it is not; a change that runs ends
first (R566). -/
def Hw.reroute (h : Hw) : Hw :=
  if h.pod.job.isSome then h.onPod fun x => { x with stale := true }
  else
    let b := 1 - h.pg.get Reg.RTR_BANK 0 0
    let j : BankJob := ⟨b, b, 0, [], false, 0⟩
    if h.pod.proven then h.bankWrite j else h.drainStart j

/-- The proof is complete: the bank that was to be written is written, or the change is over and one that waits begins. -/
def Hw.bankProven (j : BankJob) (h : Hw) : Hw :=
  let h1 := h.onPod fun x => { x with job := none, proven := true }
  if j.drains = j.bank then h1.bankWrite j
  else if h1.pod.stale then (h1.onPod fun x => { x with stale := false }).reroute else h1

/-- A router answers a read of RTR_BANK: one that has not accepted the arming is asked again; once all have, all are read; any read of 0 starts over
(R393). -/
def Hw.drainAnswer (n : Nat) (w : W32) (h : Hw) : Hw :=
  match h.pod.job with
  | none => h
  | some j =>
    if j.phase = 2 ∨ n ∉ j.left then h
    else
      let set := wbit w (8 + j.drains)
      if j.phase = 0 ∧ !set then h.drainAsk j.drains n
      else
        let j1 := { j with left := j.left.filter (· ≠ n), bad := j.bad || !set }
        if j1.left ≠ [] then h.onPod fun x => { x with job := some j1 }
        else if j.phase = 0 then h.drainRead j1
        else if j1.bad then h.drainStart j1
        else h.bankProven j1

/-- At a boundary: once the injection bank has changed, the old one is proven empty; a change that was cut short by a warm reset begins again. -/
def Hw.bankTick (h : Hw) : Hw :=
  match h.pod.job with
  | none => if h.pod.stale then (h.onPod fun x => { x with stale := false }).reroute else h
  | some j => if j.phase = 2 ∧ j.at_ ≤ h.pg.beatNum.toNat then h.drainStart { j with drains := 1 - j.bank } else h

/-! ## Fencing a device (R550) -/

/-- A device is fenced: its groups' rounds are withdrawn and the spare is written, and the banks change with the epoch. -/
def Hw.fenceDevice (f : Nat) (h : Hw) : Hw :=
  if f ∈ h.pod.fenced then h
  else
    let h1 := (h.podLog 2 f).onPod fun x => { x with fenced := f :: x.fenced, fencing := f :: x.fencing }
    ((Config.podSplice h1.pod.applied f).foldl (fun h x => h.mgWrite x.1 x.2.1 x.2.2) h1).reroute

/-- A record that a worker sends: one of class DEVICE names the worker itself (R521, R550). -/
def Hw.recordNote (n : Nat) (b : List Byte) (h : Hw) : Hw :=
  if leAt b 1 1 / 16 % 8 = 6 then h.fenceDevice n else h

/-- An event that a worker sends: LINK_STATE tells of a port that fails or returns, and the routes follow; ESCALATE asks for the consent that the pod manager
grants (R536, R540, R566, R573). -/
def Hw.eventNote (n : Nat) (b : List Byte) (h : Hw) : Hw :=
  let kind := leAt b 3 1
  let port := leAt b 2 1
  let st := leAt b 1 1 % 16
  if kind = 7 then
    let isDown := decide ((n, port) ∈ h.pod.down)
    if (st = 0 ∨ st = 8) ∧ !isDown then (h.onPod fun x => { x with down := (n, port) :: x.down }).reroute
    else if st = 6 ∧ isDown then (h.onPod fun x => { x with down := x.down.filter (· ≠ (n, port)) }).reroute
    else h
  else if kind = 6 ∧ Config.podGrant h.pod.applied n then h.podReg n Reg.HANG_CONSENT 1 else h

/-! ## A new configuration (R563, R564) -/

/-- The CONFIG of an epoch for a worker, at a boundary far enough ahead. -/
def Hw.sendConfig (ep n : Nat) (h : Hw) : Hw :=
  let p := Config.podPlace h.pod.applied n
  let ahead := 3 + Config.podLead
  h.mgMsg ⟨n, 6, 0, BitVec.ofNat 32 h.pod.term, BitVec.ofNat 64 ep, bytesLE 4 p.1 ++ bytesLE 2 p.2.1 ++ bytesLE 1 ep ++ bytesLE 1 p.2.2.1 ++
    bytesLE 1 p.2.2.2 ++ bytesLE 7 0 ++ bytesLE 8 ((h.pg.fbc.toNat / h.pg.beatLen + ahead) * h.pg.beatLen) ++
    bytesLE 6 (h.pg.beatNum.toNat + ahead) ++ bytesLE 2 0⟩

/-- A configuration one epoch above the last is sent to every worker; one that is being applied comes first. -/
def Hw.configAll (h : Hw) : Hw :=
  if h.pod.config.isSome then h
  else
    let ep := (h.pod.cfgEp + 1) % 256
    let ws := h.pod.workers
    ws.foldl (fun h n => h.sendConfig ep n) ((h.podLog 3 ep).onPod fun x => { x with config := some (ep, ws) })

/-- A worker's CONFIG_ACK: OK settles it, anything else sends the same epoch again; when every worker has it, the epoch is the pod's. -/
def Hw.configNote (n status ep : Nat) (h : Hw) : Hw :=
  match h.pod.config with
  | none => h
  | some (e, left) =>
    if e ≠ ep ∨ n ∉ left then h
    else if status ≠ 0 then h.sendConfig e n
    else
      let rest := left.filter (· ≠ n)
      h.onPod fun x => if rest = [] then { x with config := none, cfgEp := e } else { x with config := some (e, rest) }

/-! ## Shadows (R555, R573) -/

/-- Change the comparison. -/
def Hw.onShadow (f : ShadowRun → ShadowRun) (h : Hw) : Hw := h.onPod fun x => { x with shadow := f x.shadow }

/-- N_SHADOW: 1 to 255, default 3. -/
def Pod.nShadow (x : Pod) : Nat := max 1 (min 255 ((Config.podShadows x.applied).getD 3))

/-- A beat of the pair is compared: a mismatch restarts the count; a step counts when each of its beats was valid and equal; enough of them make the
promotion due. -/
def Hw.beatCompared (beat : Nat) (valid equal : Bool) (h : Hw) : Hw :=
  match Config.podStep h.pod.applied beat with
  | none => h
  | some (first, last) =>
    let s := h.pod.shadow
    let ok := (first || (s.ok && decide (s.next = beat))) && valid && equal
    let n := (if valid && !equal then 0 else s.eq) + (if last && ok then 1 else 0)
    h.onShadow fun s => { s with next := beat + 1, ok := ok, eq := n, due := s.due || decide (h.pod.nShadow ≤ n) }

/-- An entry of a ring of the pair is complete: its partner's entry for the same beat is compared with it. -/
def Hw.digestEntry (n : Nat) (shadow : Bool) (b : List Byte) (h : Hw) : Hw :=
  let beat := leAt b 0 4 + leAt b 4 2 * 2 ^ 32
  let valid := if shadow then decide (leAt b 6 1 = 0) else decide (leAt b 7 1 < 128)
  match h.pod.shadow.seen.find? fun e => e.2.1 = beat && decide (e.1 ≠ n) with
  | none => h.onShadow fun s => { s with seen := s.seen ++ [(n, beat, leAt b 8 8, valid)] }
  | some e => (h.onShadow fun s => { s with seen := s.seen.filter fun x => decide (beat < x.2.1) }).beatCompared beat (valid && e.2.2.2) (leAt b 8 8 = e.2.2.1)

/-- A device of the pair answers a read of SHDW_HEAD or of half an entry: the entries are taken one by one, and SHDW_TAIL follows. -/
def Hw.shadowAnswer (n key : Nat) (bs : List Byte) (h : Hw) : Hw :=
  match Config.podPair h.pod.applied with
  | none => h
  | some (p, s) =>
    if n ≠ p ∧ n ≠ s then h
    else
      let t := tget (fun _ => 0) h.pod.shadow.tails n
      if key = Reg.SHDW_HEAD then (if leAt bs 0 1 % 16 = t then h else h.podRead n (Reg.SHDW_DIG (4 * t)) 8)
      else if key = Reg.SHDW_DIG (4 * t) then
        (h.onShadow fun x => { x with half := tinsert (terase x.half n) n bs }).podRead n (Reg.SHDW_DIG (4 * t + 2)) 8
      else if key = Reg.SHDW_DIG (4 * t + 2) then
        let e := tget (fun _ => []) h.pod.shadow.half n ++ bs
        let h1 := h.onShadow fun x => { x with tails := tset (fun _ => 0) x.tails n ((t + 1) % 16) }
        ((h1.digestEntry n (decide (n = s)) e).podReg n Reg.SHDW_TAIL (BitVec.ofNat 32 ((t + 1) % 16))).podRead n Reg.SHDW_HEAD 4
      else h

/-- A promotion: the roles end in both devices, a configuration makes the former primary a spare, and the banks change as for a splice (R550, R555,
R573). -/
def Hw.promote (p s : Nat) (h : Hw) : Hw :=
  let h1 := ((h.podLog 4 s).onShadow fun x => { x with due := false, eq := 0, seen := [] }).onPod fun x => { x with fencing := p :: x.fencing }
  let h2 := (Config.podSplice h1.pod.applied p).foldl (fun h x => h.mgWrite x.1 x.2.1 x.2.2) h1
  ((h2.podReg p Reg.SHDW_CTRL 0).podReg s Reg.SHDW_CTRL 0).configAll.reroute

/-- At a boundary the active reads both rings; a promotion that is due is carried out between launches, after the last beat of a step. -/
def Hw.shadowTick (h : Hw) : Hw :=
  match Config.podPair h.pod.applied with
  | none => h
  | some (p, s) => if h.pod.shadow.due then h.promote p s else (h.podRead p Reg.SHDW_HEAD 4).podRead s Reg.SHDW_HEAD 4

/-- At a boundary, while the active's firmware runs. -/
def Hw.darederTick (h : Hw) : Hw := h.asDareder true fun h => if h.extUp then h.bankTick.shadowTick else h

/-- An MG_RSP at the active. -/
def Hw.darederAnswer (k : Packet) (h : Hw) : Hw :=
  h.asDareder true fun h =>
    if !h.extUp || decide (k.addr < regBase) then h
    else
      let key := (k.addr - regBase) / 4
      if key = Reg.RTR_BANK then h.drainAnswer k.src (BitVec.ofNat 32 (leAt k.payload 0 4)) else h.shadowAnswer k.src key k.payload

end Sys2Proof.Machine
end

