-- ==== Sys2Proof/Machine/PodOps.lean ====
section
/-! DEFINITION. The messages of the Dareder role and of a worker's part in it: pod configuration, congestion, heartbeats, the state log,
takeover and collection (R527, R540, R562 to R572). -/

namespace Sys2Proof.Machine

/-! ## What the active receives (R527, R540, R563, R567, R571) -/

/-- RAS. -/
def Hw.rasRx (src : PktSrc) (h : Hw) : Hw :=
  h.mgTake 1 src fun k b h => h.asDareder true fun h => (h.onPod fun x => { x with ras := (k.src, b) :: x.ras }).recordNote k.src b

/-- TELE. -/
def Hw.teleRx (src : PktSrc) (h : Hw) : Hw :=
  h.mgTake 2 src fun k b h => h.asDareder true fun h => (h.onPod fun x => { x with tele := (k.src, b) :: x.tele }).eventNote k.src b

/-- CONFIG_ACK: the epoch and the status of a worker. -/
def Hw.configAck (src : PktSrc) (h : Hw) : Hw :=
  h.mgTake 7 src fun k b h => h.asDareder true fun h => (h.onPod fun x =>
    { x with acks := tinsert (terase x.acks k.src) k.src (leAt k.payload 1 1 * 256 + leAt b 0 1) }).configNote k.src (leAt k.payload 1 1) (leAt b 0 1)

/-- CONGEST: a worker's part of the congestion map. -/
def Hw.congestRx (src : PktSrc) (h : Hw) : Hw :=
  h.mgTake 8 src fun k b h => h.asDareder true fun h => h.onPod fun x => { x with congest := tinsert (terase x.congest k.src) k.src b }

/-- COLLECT_RSP: the worker's view is adopted, and what R571 resolves is written out. -/
def Hw.collectRsp (src : PktSrc) (h : Hw) : Hw :=
  h.mgTake 10 src fun k b h => h.asDareder true fun h =>
    (h.onPod fun x => { x with collected := tinsert (terase x.collected k.src) k.src b }).podWrites 7

/-! ## The pair (R568 to R570) -/

/-- HEARTBEAT: liveness, and a higher TERM of an active demotes the receiver. -/
def Hw.heartbeatRx (src : PktSrc) (h : Hw) : Hw :=
  h.mgTake 3 src fun k b h => h.asDareder false fun h => h.onPod fun x =>
    let up := leAt b 0 8 = 1 && decide (x.term < k.mgTerm)
    { x with heard := true, missed := 0, active := x.active && !up, term := if up then k.mgTerm else x.term
             job := if up then none else x.job, config := if up then none else x.config, proven := x.proven && !up }

/-- LOG: a record of a generation, kept until its COMMIT. -/
def Hw.logRx (src : PktSrc) (h : Hw) : Hw :=
  h.mgTake 4 src fun k b h => h.asDareder false fun h => if h.pod.active then h else h.onPod fun x =>
    { x with logs := x.logs ++ [(k.mgSeq, b)], gap := x.gap || decide (x.gen + 1 < k.mgSeq) }

/-- COMMIT: the standby applies the generation when it has its records; after a gap the generation holds the whole state. -/
def Hw.commitRx (src : PktSrc) (h : Hw) : Hw :=
  h.mgTake 5 src fun k _ h => h.asDareder false fun h => if h.pod.active then h else h.onPod fun x =>
    let mine := x.logs.filter fun l => l.1 = k.mgSeq
    if mine.isEmpty ∨ k.mgSeq ≤ x.gen then { x with gap := x.gap || decide (x.gen + 1 < k.mgSeq) }
    else { x with applied := if x.gap then mine else x.applied ++ mine, gen := k.mgSeq, gap := false,
                  logs := x.logs.filter fun l => decide (k.mgSeq < l.1) }

/-- A packet leaves a Dareder by its lowest attachment link that is ACTIVE, and the pod routes it (R560, R568). -/
def Hw.byPod (k : Packet) (h : Hw) : Hw :=
  match (List.range 8).find? h.pg.linkActive with
  | none => h
  | some q =>
    if !h.pg.works Pg.rtr then h
    else
      let h1 := h.onPg fun p => (p.count Reg.RTR_INJ_LO 1).flyIn k.bank
      { h1 with rtr := { h1.rtr with held := h1.rtr.held ++ [⟨k, q, none, k.vc⟩] } }

/-- At a boundary a Dareder counts a beat without the other's heartbeat, and sends its own over the pair link and over the pod, while its
firmware runs (R568). -/
def Hw.heartbeatTick (h : Hw) : Hw :=
  h.asDareder false fun h => if !h.extUp then h else
    let h1 := h.onPod fun x => { x with heard := false, missed := if x.heard then 0 else x.missed + 1 }
    let body := bytesLE 8 h1.pod.active.toNat ++ bytesLE 8 h1.pg.beatNum.toNat ++ bytesLE 8 h1.pod.gen ++
      bytesLE 8 (h1.pod.acks.length + h1.pod.collected.length)
    let m : MgMsg := ⟨if h1.pod.active then 0xFFFE else 0xFFFF, 3, 0, BitVec.ofNat 32 h1.pod.term, BitVec.setWidth 64 h1.pg.beatNum, body⟩
    let k := h1.mgPacket m.dest 0x23 0 (crc64 m.payload) m.payload
    (h1.inject k).byPod k

/-- TAKEOVER: the standby isolates the active, takes the next TERM, becomes the master at 0xFFFF, writes the servo tree and the swapped
Dareder places to every worker, and collects (R570). -/
def Hw.takeover (h : Hw) : Hw :=
  if !h.pg.isDareder || h.pod.active || !h.extUp || decide (h.pod.missed < 2) then h
  else
    let h1 := (h.podWrites 1).onPod fun x => { x with term := x.term + 1, active := true, logs := [], collected := [], acks := [], proven := false }
    let h2 := (h1.onPg (Pages.put Reg.BEAT_SERVO_CTRL 3 0 15)).podWrites 4
    (Config.podWorkers h2.pod.applied).foldl (fun h n => h.mgMsg ⟨n, 9, 0, BitVec.ofNat 32 h.pod.term, 0, []⟩) h2

/-! ## The beat servo's control (R28, R32, R66) -/

/-- BEAT_SERVO_CTRL takes a value: setting ENABLE starts acquisition under a parent; CLR_MAX clears the maxima (R32, R66).
DESIGN CHOICE (log entry 86): a DEPTH of 21 to 31 is stored as written; clearing ENABLE, or a PARENT of 0xF, leaves LOCKED and HOLDOVER as
they stand, and HOLD_BEATS goes on counting. -/
def Hw.servoSet (w : W32) (h : Hw) : Hw :=
  let was := h.pg.bit Reg.BEAT_SERVO_CTRL 8
  let h1 := h.onPg fun p => if wbit w 31 then (p.wr Reg.BEAT_SKEW_MAX 0).wr Reg.BEAT_CONF_MAX 0 else p
  let h2 := h1.onPg (Pages.wr Reg.BEAT_SERVO_CTRL (w &&& 0x001F010F#32))
  let on := wbit w 8 && !was && decide (fld w 3 0 ≠ 15)
  if on then { h2 with servo := { h2.servo with acq := true, run := 0 } }
  else if wbit w 8 then h2 else { h2 with servo := { h2.servo with acq := false, run := 0 } }

/-- A write of BEAT_SERVO_CTRL: setting ENABLE is refused while a launch is accepted or running (R32). -/
def Hw.servoCtrl (w : W32) (h : Hw) : Bool × Hw :=
  if wbit w 8 && !h.pg.bit Reg.BEAT_SERVO_CTRL 8 && h.anyLaunch then (false, h) else (true, h.servoSet w)

/-- A write of BEAT_SET_CTRL: ARM is checked against BEAT_SET_AT as it stands; [0] DONE is W1C (R32). -/
def Hw.setCtrl (w : W32) (h : Hw) : Bool × Hw :=
  let p := h.pg
  let at_ := (p.rd64 Reg.BEAT_SET_AT_LO).toNat
  let h1 := h.onPg fun p =>
    let q := p.setb Reg.BEAT_SET_CTRL 31 (wbit w 31)
    if wbit w 0 then q.setb Reg.BEAT_SET_CTRL 0 false else q
  if wbit w 31 && p.bit Reg.BEAT_LEN_NEXT 31 then (false, h.onPg (Pages.raise Pg.beat 7 0 none))
  else if wbit w 31 && (decide (at_ % p.beatLen ≠ 0) || decide (at_ < p.fbc.toNat + 2 * p.beatLen) || h.anyLaunch) then (false, h)
  else (true, h1)

/-! ## A worker's part (R563, R567, R571) -/

/-- The body of CONFIG (R563). -/
def cfgOf (b : List Byte) : PodCfg where
  axis := BitVec.ofNat 32 (leAt b 0 4)
  node := BitVec.ofNat 16 (leAt b 4 2)
  cfgEp := leAt b 6 1
  parent := leAt b 7 1 % 16
  depth := leAt b 8 1 % 32
  atFbc := leAt b 16 8
  beatAt := leAt b 24 6

/-- Answer a CONFIG: the epoch and a status. -/
def Hw.cfgAnswer (status ep : Nat) (h : Hw) : Hw := h.mgMsg ⟨0xFFFF, 7, status, 0, BitVec.ofNat 64 ep, bytesLE 1 ep⟩

/-- CONFIG gives other AXIS or NODE values than the device has. -/
def Pages.cfgMoves (p : Pages) (c : PodCfg) : Bool := decide (p.rd Reg.CAP_AXIS ≠ c.axis) || decide (p.get Reg.CAP_NODE 15 0 ≠ c.node.toNat)

/-- SERVO of a CONFIG: BEAT_SERVO_CTRL with ENABLE set, whatever runs, and the epoch. -/
def Hw.cfgServo (c : PodCfg) (h : Hw) : Hw :=
  (h.servoSet (BitVec.ofNat 32 (c.depth * 65536 + 256 + c.parent))).onPod fun x => { x with cfgEp := c.cfgEp }

/-- BEAT_SET holds the place and number of a CONFIG, unarmed. -/
def PodCfg.set (c : PodCfg) (p : Pages) : Pages :=
  ((p.setb Reg.BEAT_SET_CTRL 31 false).wr64 Reg.BEAT_SET_AT_LO (BitVec.ofNat 64 c.atFbc)).wr64 Reg.BEAT_SET_NUM_LO (BitVec.ofNat 64 c.beatAt)

/-- The Chaise arms BEAT_SET for a CONFIG: any set that was armed gives way to it (R32, R563). -/
def Hw.cfgArm (c : PodCfg) (h : Hw) : Bool × Hw := (h.onPg c.set).setCtrl 0x80000000

/-- CONFIG: one that changes only SERVO applies at once; BUSY while a launch holds the place, STALE less than 2 beats ahead.
DESIGN CHOICE (log entry 88): a NODE with a coordinate at or above its AXIS extent, or an AXIS of more than 16,384 workers, is applied as
it stands (R21). -/
def Hw.configRx (src : PktSrc) (h : Hw) : Hw :=
  h.mgTake 6 src fun _ b h => h.asWorker fun h =>
    let c := cfgOf b
    if !h.pg.cfgMoves c then (h.cfgServo c).cfgAnswer 0 c.cfgEp
    else if h.anyLaunch then h.cfgAnswer 1 c.cfgEp
    else if c.atFbc < h.pg.fbc.toNat + 2 * h.pg.beatLen then h.cfgAnswer 3 c.cfgEp
    else if c.atFbc % h.pg.beatLen ≠ 0 then h.cfgAnswer 2 c.cfgEp
    else
      let r := h.cfgArm c
      if r.1 then r.2.onPod fun x => { x with pending := some c } else r.2.cfgAnswer 2 c.cfgEp

/-- At the boundary AT_FBC the CONFIG applies, unless a launch has come in between, which disarms BEAT_SET; BEAT_NUM takes BEAT_AT there by BEAT_SET.
DESIGN CHOICE (log entry 93): a CONFIG with an AXIS of zero, which no pod has, returns the device to spare, with NODE_VALID 0 (R573). -/
def Hw.cfgApply (h : Hw) : Hw :=
  match h.pod.pending with
  | none => h
  | some c =>
    if h.pg.fbc.toNat < c.atFbc then h
    else
      let h1 := h.onPod fun x => { x with pending := none }
      if h1.anyLaunch then (h1.onPg (Pages.setb Reg.BEAT_SET_CTRL 31 false)).cfgAnswer 1 c.cfgEp
      else
        let h2 := h1.onPg fun p => p.capSet
          (fun p => (p.wr Reg.CAP_AXIS c.axis).wr Reg.CAP_NODE (BitVec.ofNat 32 (if c.axis = 0 then 0 else 2 ^ 31 + c.node.toNat))) [Reg.CAP_AXIS, Reg.CAP_NODE]
        (h2.cfgServo c).cfgAnswer 0 c.cfgEp

/-- At a boundary, once the bins are latched, bins 5 to 7 of each buffer add to its sum (R567). -/
def Hw.busyAdd (h : Hw) : Hw :=
  if h.pg.isDareder || !h.pg.bit Reg.RTR_HIST_CTRL 31 then h
  else h.onPod fun x => { x with busy := (List.range 80).foldl (fun t i =>
    let bin (j : Nat) : Nat := h.pg.get (Reg.RTR_HIST ((8 * i + j) / 2)) (16 * (j % 2) + 15) (16 * (j % 2))
    let s := bin 5 + bin 6 + bin 7
    if s = 0 then t else tset (fun _ => 0) t i (min 65535 (tget (fun _ => 0) t i + s))) x.busy }

/-- CONGEST_PERIOD: the worker's Chaise sends CONGEST. -/
def Hw.congestPeriod (h : Hw) : Hw :=
  h.asWorker fun h =>
    if !h.extUp then h
    else
      let body := (List.range 80).flatMap fun i => bytesLE 2 (tget (fun _ => 0) h.pod.busy i)
      (h.onPod fun x => { x with busy := [] }).mgMsg ⟨0xFFFF, 8, 0, 0, BitVec.setWidth 64 h.pg.beatNum, body⟩

/-- The torus ports are held off, as a spare chip's are. -/
def Pages.isSpareChip (p : Pages) : Bool := (List.range 8).all fun k => p.bit (Reg.LINK_CTRL k) 30

/-- The body of COLLECT_RSP, in the order of R571; its field widths are the registers'. -/
def Hw.collectBody (h : Hw) : List Byte :=
  let p := h.pg
  p.regBytes Reg.RTR_BANK 1 ++ p.regBytes Reg.RTR_BANK_AT_LO 2 ++ p.regBytes Reg.RTR_FEP 1 ++ p.regBytes Reg.RTR_FEP_NEXT 1 ++
    p.regBytes Reg.RTR_FEP_AT_LO 2 ++ bytesLE 1 h.pod.cfgEp ++
    ((List.range 12).flatMap fun b => p.regBytes (Reg.BAY_L2P b) 1 ++ p.regBytes (Reg.BAY_CORE_STAT b) 1) ++
    ((List.range 10).flatMap fun k => p.regBytes (Reg.LINK_STAT k) 1) ++
    bytesLE 2 (if p.isSpareChip && p.bit Reg.CAP_NODE 31 then p.node else 0xFFFF)

/-- COLLECT: the worker answers with its own view. -/
def Hw.collectRx (src : PktSrc) (h : Hw) : Hw :=
  h.mgTake 9 src fun k _ h => h.asWorker fun h => h.mgMsg ⟨0xFFFF, 10, 0, 0, BitVec.ofNat 64 k.mgSeq, h.collectBody⟩

end Sys2Proof.Machine
end

