-- ==== Sys2Proof/Machine/Boundary.lean ====
section
/-! DEFINITION. The beat boundary, and the beat servo: the order of everything that a boundary does on a device, sync markers, holdover, and
the arming of beat-number and beat-length changes (R26 to R35, R60, R215, R220, R391, R394, R446, R503 to R506). -/

namespace Sys2Proof.Machine

/-! ## The count (R31, R32, R35) -/

/-- The next multiple of the beat length above both the count and the highest multiple crossed. -/
def Hw.nextBoundary (h : Hw) : Nat := (max h.pg.fbc.toNat h.servo.top / h.pg.beatLen + 1) * h.pg.beatLen

/-- The FBC crosses the next boundary. -/
def Hw.cross (h : Hw) : Hw :=
  let t := h.nextBoundary
  ({ h with servo := { h.servo with top := t } } : Hw).onPg fun p => { p with fbc := BitVec.ofNat 64 t }

/-- An armed beat length takes effect at BEAT_LEN_AT, or is dropped with CMD_REFUSED when a launch is accepted or running (R35). -/
def Hw.lenStep (h : Hw) : Hw :=
  if !h.pg.bit Reg.BEAT_LEN_NEXT 31 ∨ h.pg.fbc.toNat < (h.pg.rd64 Reg.BEAT_LEN_AT_LO).toNat then h
  else
    let h1 := h.onPg (Pages.setb Reg.BEAT_LEN_NEXT 31 false)
    if h.anyLaunch then h1.onPg (Pages.raise Pg.beat 7 0 none)
    else h1.onPg fun p => (p.put Reg.BEAT_LEN 4 0 (p.get Reg.BEAT_LEN_NEXT 4 0)).capSet Pages.fillBeat [Reg.CAP_BEAT, Reg.CAP_BEAT_CYC]

/-- BEAT_NUM increments, or takes BEAT_SET_NUM at BEAT_SET_AT (R31, R32). -/
def Pages.numStep (p : Pages) : Pages :=
  if p.bit Reg.BEAT_SET_CTRL 31 ∧ (p.rd64 Reg.BEAT_SET_AT_LO).toNat ≤ p.fbc.toNat then
    ({ p with beatNum := (p.rd64 Reg.BEAT_SET_NUM_LO).setWidth 48 } : Pages).wr Reg.BEAT_SET_CTRL 1
  else { p with beatNum := p.beatNum + 1 }

/-- Armed changes of the injection bank and of the fence epoch take effect at their beat (R391, R394). -/
def Pages.routeStep (p : Pages) : Pages :=
  let n := p.beatNum.toNat
  let p1 := if p.bit Reg.RTR_BANK_NEXT 31 ∧ (p.rd64 Reg.RTR_BANK_AT_LO).toNat ≤ n then
      ((p.setb Reg.RTR_BANK 0 (p.bit Reg.RTR_BANK_NEXT 0)).setb Reg.RTR_BANK 16 false).setb Reg.RTR_BANK_NEXT 31 false
    else p
  if p1.bit Reg.RTR_FEP_NEXT 31 ∧ (p1.rd64 Reg.RTR_FEP_AT_LO).toNat ≤ n then
    (p1.put Reg.RTR_FEP 7 0 (p1.get Reg.RTR_FEP_NEXT 7 0)).setb Reg.RTR_FEP_NEXT 31 false
  else p1

/-! ## Slots (R216, R446) -/

/-- The cores of a partition pass to the context that holds it in the beat, and the messages held for the boundary appear. -/
def Hw.slotStep (h : Hw) (part : Nat) : Hw :=
  match h.pg.slotCtx part with
  | none => h
  | some c => (h.pg.partCores part).foldl (fun h l =>
      if !h.reach l then h
      else
        let h1 := h.takeCore c l
        h1.onCv (h1.ciOf l c) (CV.fifoReveal (h1.ciOf l c))) h

/-- A context's part of the boundary: its held atomics, its launch, its teardown; ended rounds older than two beats go (R44, R273). -/
def Hw.ctxStep (h : Hw) (c : Nat) : Hw :=
  let n := h.pg.beatNum.toNat
  let h1 := ((h.atomFlush c).launchStep c n).tearLatch c
  h1.modCtx c fun x => { x with rounds := x.rounds.filter fun r => !r.ended || decide (n ≤ r.beat + 2) }

/-- Nothing of a unit's state survives the boundary but that of a block that runs on: one that has not retired, of a launch that goes on
(R137, R166, R173, R203, R211; log entry 41). -/
def Hw.unitsEnd (c : Option Nat) (k : Core) (h : Hw) : Bool :=
  !(c.any h.goes && k.blk.isSome && !k.retired)

/-- The units of every core, held or parked, at a boundary. -/
def Hw.unitsBoundary (h : Hw) : Hw :=
  let clr (c : Option Nat) (k : Core) : Core := if h.unitsEnd c k then k.clearUnits else k
  { h with
    cores := (h.cores.map (·.1)).foldl (fun t n => tmod (fun _ => Core.reset) t n fun k => clr k.owner k) h.cores
    parks := (h.parks.map (·.1)).foldl (fun t i => tmod (fun _ => Core.reset) t i (clr (some (i % 256)))) h.parks }

/-! ## Power (R502 to R506) -/

/-- Duty of a P-state in eighths (R502). -/
def pstateDuty (s : Nat) : Nat := [8, 7, 6, 4].getD s 2

/-- One change of a duty: down to 2, up to 8. -/
def dutyStep (step d : Nat) : Nat := if step = 1 then max 2 (d - 1) else if step = 2 then min 8 (d + 1) else d

/-- P-state, cap duty and thermal duty change; the duty in force is the least of them, and a fall below the P-state's counts (R502 to R506,
R540). -/
def Hw.dutyBoundary (h : Hw) : Hw :=
  if !h.pg.works Pg.pwr then h else
  let w := h.power
  let ps := if w.pend then pstateOf (h.pg.rd Reg.PWR_PSTATE) else w.pstate
  let cap := dutyStep w.capStep w.capDuty
  let therm := if h.pg.works Pg.therm then dutyStep w.thermStep w.thermDuty else w.thermDuty
  let pd := pstateDuty ps
  let en := h.pg.bit Reg.PWR_CAP 31
  let duty := min pd (min (if en then cap else 8) therm)
  let old := h.pg.get Reg.PWR_STAT 11 8
  let capT := en && decide (cap < pd)
  let thT := decide (therm < pd)
  let falls := decide (duty < pd) && (decide (duty < old) || decide (pstateDuty w.pstate ≤ old))
  let h1 : Hw := { h with power := { w with pstate := ps, pend := false, capDuty := cap, capStep := 0, thermDuty := therm, thermStep := 0 } }
  let h2 := h1.onPg fun p =>
    let p1 := p.wr Reg.PWR_STAT (BitVec.ofNat 32 (ps * 65536 + duty * 256 + thT.toNat * 4 + capT.toNat * 2 + en.toNat))
    let p2 := ((p1.setb Reg.THERM_STAT 31 (decide (therm < 8))).put Reg.THERM_STAT 19 16 therm)
    let p3 := if therm < w.thermDuty then p2.sat Reg.THERM_THR_CNT 1 else p2
    let p4 := (p3.detect Pg.therm 0 0 none (decide (w.thermDuty = 8) && decide (therm < 8))).2
    let p5 := if falls then p4.sat Reg.PWR_THR_CNT 1 else p4
    if duty ≠ old then p5.tele 3 duty (capT.toNat * 2 + thT.toNat) 0 else p5
  if falls then h2.exactLostAll else h2

/-! ## The boundary (R31) -/

/-- Beats in HOLDOVER (R67). -/
def Pages.holdStep (p : Pages) : Pages :=
  if p.bit Reg.BEAT_SERVO_STAT 30 then p.put Reg.BEAT_SERVO_STAT 23 16 (min 255 (p.get Reg.BEAT_SERVO_STAT 23 16 + 1)) else p

/-- The parity of each Bay's map BAY_L2P, checked as the beat's blocks are placed: a failure takes the Bay out of service (R545,
R558). -/
def Hw.mapCheck (h : Hw) (b : Nat) : Hw :=
  if h.pg.bit (Reg.BAY_STAT b) 31 then h
  else
    let f := h.pg.detect (Pg.bay b) 1 0 (h.pg.bayCx b) false
    let h1 : Hw := { h with dev := { h.dev with pg := f.2 } }
    if f.1 then h1.bayOut b else h1

/-! ## The servo (R27 to R32) -/

/-- A SYNC flit on a link: its overhead counts as any good flit's; one that fails is lost and counted (R355). -/
def LV.rxSync (p : Nat) (rx : FlitRx) (v : LV) : LV :=
  if v.st p ≠ 6 ∧ v.st p ≠ 7 then v
  else if rx.bad then (v.rxLost p rx).onPg (Pages.sat (Reg.LINK_SYNC_LOST p) 1)
  else v.rxHead p rx

/-- The parent delivers markers: its link is ACTIVE, not under QUARANTINE, with a partner (R32). -/
def Pages.marks (g : Pages) (p : Nat) : Bool := g.linkActive p && g.get (Reg.LINK_STAT p) 27 26 = 0

/-- The magnitude of an offset and its field. -/
def clamp16 (d : Int) : Int := max (-32768) (min 32767 d)

/-- A marker from the parent: acquisition loads the count once; afterwards the offset is shown and the lock judged (R27, R28, R32, R67,
R69). DESIGN CHOICE (log entry 86): the marker of the acquisition sets OFFSET to 0 and is not one of the 16 of LOCKED. -/
def Hw.marker (p : Nat) (m : Nat) (h : Hw) : Hw :=
  let src := m + (h.pg.rd (Reg.LINK_DELAY p)).toNat
  let h0 := h.onPg fun g => if g.bit Reg.BEAT_SERVO_STAT 30 then (g.setb Reg.BEAT_SERVO_STAT 30 false).put Reg.BEAT_SERVO_STAT 23 16 0 else g
  if h.servo.acq then
    ({ h0 with servo := { h0.servo with acq := false, run := 0 } } : Hw).onPg fun g =>
      ({ g with fbc := BitVec.ofNat 64 src } : Pages).put Reg.BEAT_SERVO_STAT 15 0 0
  else
    let d := clamp16 ((src : Int) - h.pg.fbc.toNat)
    let lim := 4 * h.pg.get Reg.BEAT_SERVO_CTRL 20 16
    let run := if d.natAbs ≤ lim then min 16 (h.servo.run + 1) else 0
    ({ h0 with servo := { h0.servo with run := run } } : Hw).onPg fun g =>
      let g1 := (((g.put Reg.BEAT_SERVO_STAT 15 0 (d % 65536).toNat).setb Reg.BEAT_SERVO_STAT 31 (run = 16)).maxFld Reg.BEAT_SKEW_MAX 15 0 d.natAbs)
      (g1.detect Pg.beat 2 0 none (decide (lim < d.natAbs))).2

/-- A SYNC flit arrives on a port when this device's count is now. -/
def Hw.syncTaken (p : Nat) (rx : FlitRx) (now : W64) (h : Hw) : Hw :=
  let h1 := if h.pg.works (Pg.link p) && !h.pg.looped p then h.onLink0 p (LV.rxSync p rx) else h
  if h1.pg.works Pg.beat && h1.pg.fbc ≤ now && decide (now.toNat < h1.nextBoundary) then h1.onPg fun g => { g with fbc := now } else h1

/-- A marker that a port received whole: the servo takes it from its parent's port only. -/
def Hw.servoTake (p m : Nat) (h : Hw) : Hw :=
  if !h.pg.works Pg.beat || !h.pg.bit Reg.BEAT_SERVO_CTRL 8 || decide (h.pg.get Reg.BEAT_SERVO_CTRL 3 0 ≠ p) || !h.pg.marks p then h
  else h.marker p m

/-- SYNC_MARKER_RX, which no port under loopback receives (R368). -/
def Hw.syncMarker (p : Nat) (rx : FlitRx) (m now : W64) (h : Hw) : Hw :=
  let h2 := h.syncTaken p rx now
  if rx.bad || h.pg.looped p then h2 else h2.servoTake p m.toNat

/-- SYNC_EMIT: under loopback the port receives its own marker (R355, R368). -/
def Hw.syncEmit (p : Nat) (h : Hw) : Hw :=
  let h1 := h.onLink0 p (LV.syncEmit p)
  if h.pg.looped p && decide ((LV.mk h.pg (h.link p)).st p = 6) then h1.servoTake p h.pg.fbc.toNat else h1

/-- HOLDOVER: the parent is silent for 4 marker intervals (R30). -/
def Hw.holdover (h : Hw) : Hw :=
  if !h.pg.bit Reg.BEAT_SERVO_CTRL 8 || h.pg.get Reg.BEAT_SERVO_CTRL 3 0 = 15 || h.pg.bit Reg.BEAT_SERVO_STAT 30 then h
  else ({ h with servo := { h.servo with run := 0 } } : Hw).onPg fun p =>
    (((p.setb Reg.BEAT_SERVO_STAT 30 true).setb Reg.BEAT_SERVO_STAT 31 false).put Reg.BEAT_SERVO_STAT 23 16 0).raise Pg.beat 0 0 none

/-- HOLDOVER_LONG: 8 beats in HOLDOVER (R30). -/
def Pages.holdoverLong (p : Pages) : Pages :=
  if p.bit Reg.BEAT_SERVO_STAT 30 ∧ 8 ≤ p.get Reg.BEAT_SERVO_STAT 23 16 then p.raise Pg.beat 1 0 none else p

/-! ## The boundary as a whole -/

/-- Conditions that the device evaluates all the time, which an injection makes hold at the boundary that follows its arming (R529): the
servo's parent, the hang monitors, and the laser, lanes and retrains of every port. -/
def Hw.condStep (h : Hw) : Hw :=
  let servo := h.pg.bit Reg.BEAT_SERVO_CTRL 8 && h.pg.get Reg.BEAT_SERVO_CTRL 3 0 ≠ 15
  let h1 := if servo && !h.pg.bit Reg.BEAT_SERVO_STAT 30 then h.injected Pg.beat 0 0 Hw.holdover else h
  let h2 := if h1.pg.bit Reg.BEAT_SERVO_STAT 30 then h1.injected Pg.beat 1 0 (Hw.onPg (Pages.raise Pg.beat 1 0 none)) else h1
  let h3 := (List.range 108).foldl (fun h n => if h.coreWatched n then h.injected Pg.hang 0 n (Hw.coreHang n) else h) h2
  let h4 := (h3.hif.queues.map (·.1)).foldl (fun h q => if h.queueWatched q then h.injected Pg.hang 1 q (Hw.queueHang q) else h) h3
  let h5 := (List.range 10).foldl (fun h k => if h.portWatched k then h.injected Pg.hang 2 k (Hw.portHang k) else h) h4
  let h6 := if h5.cmpWatched then h5.injected Pg.hang 3 0 (Hw.cmpHang WarmIn.good) else h5
  (List.range 10).foldl (fun h k =>
    let a := if h.pg.bit (Reg.OPE_STAT k) 30 then h.injected (Pg.ope k) 0 0 (Hw.onLink0 k (LV.laserLost k)) else h
    let b := ((LV.lanes k { pg := a.pg, lk := a.link k })).foldl (fun h ln =>
      (h.injected (Pg.ope k) 1 ln (Hw.onLink0 k (LV.laneFail k ln))).injected (Pg.ope k) 2 ln (Hw.onLink0 k (LV.tuneLost k ln))) a
    if b.pg.linkActive k then
      (b.injected (Pg.link k) 2 0 (Hw.onLink0 k fun v => v.retrain k 5)).injected (Pg.link k) 5 0 (Hw.onLink0 k fun v => v.retrain k 10)
    else b) h6

/-- BEAT_BOUNDARY: the count crosses, numbers and armed changes take effect, what waited for the boundary becomes visible, cores pass to
their slot's context, every context votes and starts its next block, spares switch in, the histogram and the shadow entry are latched,
the duty changes, the pair exchanges heartbeats. -/
def Hw.boundary (h : Hw) : Hw :=
  let h1 := (h.condStep.cross.lenStep.cfgApply.onPg Pages.numStep).onPg Pages.routeStep
  let n := h1.pg.beatNum.toNat
  let h2 := (h1.dbBoundary.jBoundary n).dutyBoundary
  let h3 := (List.range 12).foldl Hw.slotStep ((List.range 12).foldl Hw.mapCheck h2)
  let h4 := (h3.ctxList.foldl Hw.ctxStep h3).unitsBoundary
  let h5 := h4.showParts.autoSwitch
  let h6 := (((h5.histLatch (n - 1)).busyAdd).shdwEntry (n - 1)).onPg Pages.holdStep
  (h6.heartbeatTick.darederTick).showParts

/-! ## Arming (R35) -/

/-- A write of BEAT_LEN_NEXT: ARM is checked against BEAT_LEN_AT as it stands; a refusal raises CMD_REFUSED (R35). -/
def Hw.lenNext (w : W32) (h : Hw) : Bool × Hw :=
  let p := h.pg
  let at_ := (p.rd64 Reg.BEAT_LEN_AT_LO).toNat
  let k := fld w 4 0
  let bad := h.anyLaunch || decide (at_ < p.fbc.toNat + 2 * p.beatLen) || decide (at_ % p.beatLen ≠ 0) || decide (at_ % 2 ^ k ≠ 0) ||
    decide (k < 10 ∨ 17 < k) || p.bit Reg.BEAT_SET_CTRL 31
  let no := if wbit w 31 then h.holds Pg.beat 7 0 bad else (false, h)
  let h := no.2
  if no.1 then (false, h.onPg (Pages.raise Pg.beat 7 0 none)) else (true, h.onPg (Pages.wr Reg.BEAT_LEN_NEXT (w &&& 0x8000001F#32)))

end Sys2Proof.Machine
end

