-- ==== Sys2Proof/Machine/RegRead.lean ====
section
/-! DEFINITION. Reads of register space: where an address leads on each access path, what every register reads as, the snapshots of RSN
pairs, and reads of any width (R72 to R77, R83, R84, R87, R88, R91, R163, R204, R468 to R470, R496, R537 to R539, R559). -/

namespace Sys2Proof.Machine

/-! ## Where an address leads (R72 to R77) -/

/-- What stands at an address of register space: a register page (CTX pages at 0x4000 on) with an offset; a doorbell with an offset
within its 64 B; a hole of the PF's space; a reserved part of a VF's space, whose errors go to a CTX page if the VF has one. -/
inductive Target where
  | page (pg off : Nat)
  | bell (q sub : Nat)
  | hole
  | gap (ctx : Option Nat)
  deriving DecidableEq, Repr

/-- The layout of BAR0 of the PF, which the Chaise and the management VC see too (R72 to R77). -/
def Pages.targetPf (p : Pages) (a : Nat) : Target :=
  let pg := a / 4096
  let off := a % 4096
  match pageKind pg with
  | .hole => .hole
  | .qdb => .bell ((pg - 0x0800) * 64 + off / 64) (off % 64)
  | .ctxWindow => .page (Pg.ctx (p.get Reg.DEV_CTX_SEL 7 0)) off
  | _ => .page pg off

/-- The layout of a VF's BAR0 of 64 KiB (R75). -/
def Pages.targetVf (p : Pages) (f a : Nat) : Target :=
  let o := a % 65536
  let c := p.funcCtx f
  if c = 0xFF then .gap none
  else if o < 0x1000 then .page (Pg.ctx c) o
  else if o < 0x9000 then
    let i := (o - 0x1000) / 64
    if i < p.get (Reg.CTX_QRANGE c) 9 0 then .bell (p.get (Reg.CTX_QRANGE c) 29 16 + i) (o % 64) else .gap (some c)
  else .gap (some c)

/-- Where an address leads on a path. -/
def Pages.target (p : Pages) (path : Path) (a : Nat) : Target :=
  match path with
  | .host 0 => p.targetPf a
  | .host f => p.targetVf f a
  | .chaise | .mgmt => p.targetPf a

/-- The page that records access errors of a page: HIF for the pages without a header (R76). -/
def errPage (pg : Nat) : Nat := match pageKind pg with | .qdb | .qcfg => Pg.hif | _ => pg

/-- The page that holds what a page shows at an offset: the group table stands in the STG page of axis X, the shadow registers in the
BAY page of Bay 0, SUU_SLOT_PART in the SUU page of stack 0 (R339, R399, R559). -/
def homePage (pg off : Nat) : Nat :=
  match pageKind pg with
  | .stg => if 0x400 ≤ off then Pg.stg 0 else pg
  | .bay => if 0x100 ≤ off then Pg.bay 0 else pg
  | .suu => if off = 0x048 then Pg.suu 0 else pg
  | _ => pg

/-- The table row of a register of a page. -/
def regRow (pg off : Nat) : Option RegRow :=
  findRow (pageKind pg) (if pageKind pg = .qcfg then off % 64 else off)

/-- An access error of a page (R90). -/
def Hw.flag (pg off : Nat) (path : Path) (e : AccErr) (h : Hw) : Hw := h.onPg (Pages.flag (errPage pg) off path e)

/-- An access to a hole: HOLE, and its BAR0 offset when every flag was zero (R74). -/
def Pages.holeAt (path : Path) (a : Nat) (p : Pages) : Pages :=
  let p1 := if p.get (Reg.PG_ACC_ERR Pg.dev) 6 0 = 0 then p.put Reg.DEV_ACC_ADDR 25 0 a else p
  p1.flag Pg.dev a path .hole

/-! ## Values that are formed as they are read -/

/-- The debug lock is open (R491): SEC_STAT.DBG_OPEN. -/
def Pages.dbgAvail (p : Pages) : Bool := p.bit Reg.SEC_STAT 25

/-- A unit is frozen: HALTED of its DBG_CTRL (R163). -/
def Pages.dbgHalted (p : Pages) (ctrl : Nat) : Bool := p.bit ctrl 30

/-- The DBG_CTRL register as it reads: AVAIL in [31] (R168). -/
def Pages.dbgCtrl (p : Pages) (ctrl : Nat) : W32 := setBit (p.rd ctrl) 31 p.dbgAvail

/-- MXA_DBG_DATA: the sum that MXA_DBG_SEL selects of a frozen array, laid out under R127; zero while it runs. A running chain's value is
free: no wavefront is between cells when a command is taken; its reserved bits read zero, an I32 sum's upper half too (R127, R163,
R168). -/
def Hw.mxaData (n : Nat) (h : Hw) : W64 :=
  let sel := h.pg.rd (Reg.MXA_DBG_SEL n)
  let c := h.core n
  let m := MMode.of c.mmode
  let scale := if m.dens = 3 then 4 else 1
  let row := fld sel 14 8 / scale
  let col := fld sel 6 0 / scale
  if !h.pg.dbgHalted (Reg.MXA_DBG_CTRL n) then 0
  else if fld sel 31 30 = 0 then (c.bank0.getD row []).getD col 0
  else if fld sel 31 30 = 1 then (c.bank1.getD row []).getD col 0
  else BitVec.ofNat 64 (Config.chainWord h.pg.fresh row col) &&& (if m.fr.ef.isSome then 0x8000007FFFFFFFFF#64 else 0xFFFFFFFF#64)

/-- TVU_DBG_DATA: a word of a row of a tile or mask register of a frozen TVU (R204). -/
def Hw.tvuData (n : Nat) (h : Hw) : W32 :=
  let sel := h.pg.rd (Reg.TVU_DBG_SEL n)
  let w := h.pg.get (Reg.TVU_DBG_CTRL n) 29 25
  let c := h.core n
  let row := fld sel 4 0
  if !h.pg.dbgHalted (Reg.TVU_DBG_CTRL n) then 0
  else if wbit sel 31 then BitVec.ofNat 32 ((c.mrow (fld sel 10 8) row).toNat / 2 ^ (32 * (w % 2)))
  else BitVec.ofNat 32 ((tget (fun _ => 0) c.treg (fld sel 12 8 * 32 + row)).toNat / 2 ^ (32 * w))

/-- GIG_DBG_DATA: a general register of a frozen Gig (R221). -/
def Hw.gigData (n : Nat) (h : Hw) : W64 :=
  if h.pg.dbgHalted (Reg.GIG_DBG_CTRL n) then (h.core n).g (h.pg.get (Reg.GIG_DBG_SEL n) 4 0) else 0

/-- MXA_STAT (R166): FAILED and DBG_HALT outlast the rest; EXC_STOP; DRAIN_WAIT where a drain waits for a shadow frame, its wavefronts in
the array; LOAD_WAIT where the head of the queue waits for a tile load. An instruction that can run has run. -/
def Hw.mxaStat (n : Nat) (h : Hw) : W32 :=
  let c := h.core n
  let load : Bool := match c.mxq with
    | (_, .mload _) :: _ => c.loading.isSome || c.back.isSome
    | (_, .mstream o) :: _ => o.swap && c.loading.isSome
    | _ => false
  let st := if c.failed then 6 else if h.pg.dbgHalted (Reg.MXA_DBG_CTRL n) then 5 else if c.mStop then 4
    else if c.mWait then 2 else if load then 3 else 0
  BitVec.ofNat 32 (st * 2 ^ 29 + c.spec.isSome.toNat * 256 + c.osel.toNat * 32 + c.pass.isSome.toNat * 16 + c.back.isSome.toNat * 8 +
    c.front.isSome.toNat * 4 + c.loading.isSome.toNat * 2 + c.mWait.toNat)

/-- TVU_STAT (R203): SCR_WAIT while the head of the queue waits for a shadow frame or for the array's pages (R50, R156), which
shows what kind of instruction is in progress. -/
def Hw.tvuStat (n : Nat) (h : Hw) : W32 :=
  let c := h.core n
  let st := if c.failed then 5 else if h.pg.dbgHalted (Reg.TVU_DBG_CTRL n) then 4 else if c.tStop then 3
    else if c.tWait || (!c.tvq.isEmpty && !c.mayStart 1) then 2 else 0
  let ls : Bool := match c.tvq with | (_, .vtensLd _) :: _ | (_, .vtensSt _) :: _ => c.tWait | _ => false
  let vt : Bool := match c.tvq with | (_, .vtens _) :: _ => c.tWait | _ => false
  BitVec.ofNat 32 (st * 2 ^ 29 + c.spec.isSome.toNat * 256 + ls.toNat * 2 + vt.toNat)

/-- GIG_STAT (R222). -/
def Hw.gigStat (n : Nat) (h : Hw) : W32 :=
  let c := h.core n
  let st := if c.failed then 6 else if h.pg.dbgHalted (Reg.GIG_DBG_CTRL n) then 5 else if c.gStop then 4
    else match c.grun with
      | none => 0
      | some r => if r.waiting then 2 else if r.held then 3 else 1
  BitVec.ofNat 32 (st * 2 ^ 29 + min 4 c.gq.length)

/-- TVU_SEED_CTL (R202). -/
def Core.seedCtl (c : Core) : W32 := BitVec.ofNat 32 (c.seeded.toNat * 2 ^ 31 + c.seed.2.toNat)

/-- SCR_STAT: shadow pool size and free frames of the context that holds the core's beat slot (R537). -/
def Hw.scrStat (n : Nat) (h : Hw) : W32 :=
  match h.pg.logOf n with
  | none => 0
  | some l => match h.coreCtx l with
    | none => 0
    | some c =>
      let pool := (h.ciOf l c).poolN
      let used := match (h.core n).spec with | some s => s.pages.length | none => 0
      BitVec.ofNat 32 (pool % 1024 * 65536 + (pool - used) % 1024)

/-- A page has the common header. -/
def hasHeader (pg : Nat) : Bool := match pageKind pg with | .qdb | .qcfg | .hole | .ctxWindow => false | _ => true

/-- A page of the PF's space holds its interrupt raised; 0x0C00 stands for the CTX page it shows (R84). -/
def Pages.pendAt (p : Pages) (pg : Nat) : Bool :=
  if pg = 0x0C00 then p.intRaised (Pg.ctx (p.get Reg.DEV_CTX_SEL 7 0)) else hasHeader pg && p.intRaised pg

/-- RAS_PEND i: bit b for page 32i + b (R539). -/
def Pages.rasPend (p : Pages) (i : Nat) : W32 := BitVec.ofNat 32 (((List.range 32).map fun b => if p.pendAt (32 * i + b) then 2 ^ b else 0).sum)

/-- A record of a class lies between TAIL and HEAD of the RAS log (R539). -/
def Pages.rasHas (p : Pages) (cls : Nat) : Bool :=
  let hd := p.get Reg.RAS_LOG_HEAD 5 0
  let tl := p.get Reg.RAS_LOG_TAIL 5 0
  (List.range ((hd + 64 - tl) % 64)).any fun i => p.get (Reg.RAS_LOG (4 * ((tl + i) % 64))) 14 12 = cls

/-- RAS_STAT: [31] any page's interrupt raised; [6:0] classes in the log (R539). -/
def Pages.rasStat (p : Pages) : W32 :=
  BitVec.ofNat 32 ((if ((List.range 4096).any p.pendAt) || (List.range 256).any fun c => p.intRaised (Pg.ctx c) then 2 ^ 31 else 0) +
    ((List.range 7).map fun c => if p.rasHas c then 2 ^ c else 0).sum)

/-- PG_STAT as it reads (R83). -/
def Pages.pgStat (p : Pages) (pg : Nat) : W32 :=
  let w := p.rd (Reg.PG_STAT pg)
  setBit (setBit (setBit w 30 (p.fenced pg)) 29 (p.bit (Reg.PG_CTRL pg) 2)) 28 (p.enabled pg)

/-- A header register as it reads (R79, R83, R84): BLOCK_RESET, CLR_CNT and PG_INT_FORCE are write-only. -/
def Pages.hdrWord (p : Pages) (pg off : Nat) : W32 :=
  if off = 0x00C then p.pgStat pg else if off = 0x010 then p.intStat pg else if off = 0x018 then 0 else p.rd (regKey pg off)

/-- BEAT_PART_STAT as it reads: STATE is that of the launch as it stands (R68). -/
def Hw.partStat (part : Nat) (h : Hw) : W32 :=
  (h.pg.rd (Reg.BEAT_PART_STAT part)) |> fun w => match h.pg.slotCtx part with
    | some c => setFld w 31 29 (h.launchSt c)
    | none => w

/-- A block-specific register as it reads, but for RSN pairs. -/
def Hw.plainWord (pg off : Nat) (h : Hw) : W32 :=
  let p := h.pg
  let n := (pg - 0x100) / 4
  match pageKind pg with
  | .mxa => if off = 0x040 then (h.core n).mmode else if off = 0x044 then h.mxaStat n else if off = 0x080 then p.dbgCtrl (Reg.MXA_DBG_CTRL n) else if off = 0x088 then lo32 (h.mxaData n)
    else if off = 0x08C then hi32 (h.mxaData n) else p.rd (regKey pg off)
  | .stg => if off = 0x040 then h.stgStat (pg - Pg.stg 0)
    else if off = 0x048 then setFld (p.rd (regKey pg off)) 31 16 (h.holdKib (pg - Pg.stg 0)) else p.rd (regKey pg off)
  | .suu => if off = 0x040 then h.suuStat (pg - Pg.suu 0) else p.rd (regKey pg off)
  | .tvu => if off = 0x040 then h.tvuStat n else if off = 0x04C then (h.core n).seedCtl else if off = 0x050 then lo32 (h.core n).seed.1
    else if off = 0x054 then hi32 (h.core n).seed.1 else if off = 0x080 then p.dbgCtrl (Reg.TVU_DBG_CTRL n)
    else if off = 0x088 then h.tvuData n else p.rd (regKey pg off)
  | .gig => if off = 0x040 then h.gigStat n else if off = 0x080 then p.dbgCtrl (Reg.GIG_DBG_CTRL n) else if off = 0x088 then lo32 (h.gigData n)
    else if off = 0x08C then hi32 (h.gigData n) else p.rd (regKey pg off)
  | .beat => if 0x100 ≤ off ∧ off < 0x130 then h.partStat ((off - 0x100) / 4) else p.rd (regKey pg off)
  | .scr => if off = 0x040 then h.scrStat n else p.rd (regKey pg off)
  | .hang => if off = 0x048 then setFld (p.rd Reg.HANG_STAT) 25 24 p.escRecent else p.rd (regKey pg off)
  | .ras => if off = 0x040 then p.rasStat else if 0x800 ≤ off ∧ off < 0xA00 then p.rasPend ((off - 0x800) / 4) else p.rd (regKey pg off)
  | _ => p.rd (regKey pg off)

/-! ## Reads (R87, R88, R91) -/

/-- The 64 bits of an RSN pair whose low word stands at an offset: the time counters live outside the table (R26, R31, R91). -/
def Pages.pairOf (p : Pages) (pg off : Nat) : W64 :=
  if pg = Pg.beat ∧ off = 0x040 then p.fbc else if pg = Pg.beat ∧ off = 0x048 then p.beatNum.setWidth 64 else p.rd64 (regKey pg off)

/-- The place of a pair's snapshot for a path (R91). -/
def snapKey (pg off : Nat) (path : Path) : Nat := regKey pg off * 4 + path.snap

/-- A read of an RSN low word takes the pair's snapshot (R91). -/
def Pages.readLo (path : Path) (pg off : Nat) (p : Pages) : W32 × Pages :=
  let v := p.pairOf pg off
  (lo32 v, { p with snap := tset (fun _ => 0) p.snap (snapKey pg off path) (hi32 v) })

/-- A read of an RSN high word returns the snapshot's (R91). -/
def Pages.readHi (path : Path) (pg off : Nat) (p : Pages) : W32 := tget (fun _ => 0) p.snap (snapKey pg (off - 4) path)

/-- A 32-bit read of a register of a page (R82, R87, R88). -/
def Hw.readReg (path : Path) (pg off : Nat) (h : Hw) : W32 × Hw :=
  if hasHeader pg && h.pg.inReset pg && decide (off ≠ 0x00C) then (0, h)
  else if hasHeader pg && decide (off < 0x40) then (h.pg.hdrWord pg off, h)
  else
    let pg := homePage pg off
    match regRow pg off with
    | none => (if pageKind pg = .ctx ∧ 0x400 ≤ off ∧ off < 0x460 then h.pg.ctxCap (pg - 0x4000) off else 0, h)
    | some r => match r.kind with
      | .eventLo | .timeLo =>
        let x := h.pg.readLo path pg off
        (x.1, { h with dev := { h.dev with pg := x.2 } })
      | .eventHi | .timeHi => (h.pg.readHi path pg off, h)
      | .plain | .locked =>
        if pageKind pg = .fuse then
          let f := h.fuseWord off
          (f.2.1, f.2.2)
        else (h.plainWord pg off &&& ~~~(BitVec.ofNat 32 r.wo), h)

/-- A 32-bit read at an address; doorbells, holes and reserved parts read zero (R74, R75, R450). -/
def Hw.readWord (path : Path) (a : Nat) (h : Hw) : W32 × Hw :=
  match h.pg.target path a with
  | .page pg off => h.readReg path pg off
  | .hole => (0, h.onPg (Pages.holeAt path a))
  | .bell _ _ | .gap _ => (0, h)

/-- Reads of consecutive words in ascending order. -/
def Hw.readWords (path : Path) (a : Nat) : Nat → Hw → List Byte × Hw
  | 0, h => ([], h)
  | n + 1, h =>
    let x := h.readWord path a
    let y := Hw.readWords path (a + 4) n x.2
    (bytesLE 4 x.1.toNat ++ y.1, y.2)

/-- A read of n bytes: the words that it overlaps, and of them the bytes asked for (R87). -/
def Hw.readBytes (path : Path) (a n : Nat) (h : Hw) : List Byte × Hw :=
  let x := h.readWords path (a / 4 * 4) (ceilDiv (a % 4 + n) 4) 
  (slice (a % 4) n x.1, x.2)

/-- A read as a command: the bytes go back to who asked. -/
def Hw.readCmd (path : Path) (a n : Nat) (h : Hw) : Hw :=
  let r := h.readBytes path a n
  { r.2 with reads := (path, r.1) :: r.2.reads }

end Sys2Proof.Machine
end

