-- ==== Sys2Proof/Machine/RegWrite.lean ====
section
/-! DEFINITION. Writes of register space: the common header, every register whose write acts or can be refused, the access rules, and
writes of any width (R32, R35, R65, R70, R71, R76 to R93, R163, R391 to R401, R450, R470, R491, R516, R539, R558, R559). -/

namespace Sys2Proof.Machine

/-! ## The debug freeze (R163) -/

/-- DBG_CTRL of a unit of a core: 0 MXA, 1 TVU, 2 GIG. -/
def dbgCtrlReg (u n : Nat) : Nat := if u = 0 then Reg.MXA_DBG_CTRL n else if u = 1 then Reg.TVU_DBG_CTRL n else Reg.GIG_DBG_CTRL n
/-- Freeze a unit: HALTED reads 1. -/
def Hw.dbgFreeze (u n : Nat) (h : Hw) : Hw := h.onPg (Pages.setb (dbgCtrlReg u n) 30 true)

/-- A core goes on with what it can start, if it holds a logical core of a context. -/
def Hw.pumpPhys (n : Nat) (h : Hw) : Hw :=
  match h.pg.logOf n with
  | none => h
  | some l => match h.coreCtx l with
    | none => h
    | some c => if (h.core n).owner = some c then h.pumpCore (h.ciOf l c) else h

/-- Release a frozen unit: it goes on as if it had not been frozen. -/
def Hw.dbgRelease (u n : Nat) (h : Hw) : Hw :=
  if !h.pg.dbgHalted (dbgCtrlReg u n) then h
  else (h.onPg (Pages.setb (dbgCtrlReg u n) 30 false)).pumpPhys n

/-- A write of a unit's DBG_CTRL: refused while the lock is closed; RESUME releases, HALT_REQ freezes; the TVU keeps its word select. -/
def Hw.dbgCtrlWrite (u n : Nat) (w : W32) (h : Hw) : Bool × Hw :=
  if !h.pg.dbgAvail then (false, h)
  else
    let keep : W32 := if u = 1 then 0x3E000001#32 else 0x00000001#32
    let h1 := h.onPg (Pages.upd (dbgCtrlReg u n) fun old => (old &&& ~~~keep) ||| (w &&& keep))
    let h2 := if wbit w 1 then h1.dbgRelease u n else h1
    (true, if wbit w 0 then h2.dbgFreeze u n else h2)

/-! ## Storing a write -/

/-- What a register holds after a write that is not refused: written fields, and fields that a 1 clears. -/
def RegRow.mix (r : RegRow) (old w : W32) : W32 :=
  ((old &&& ~~~(BitVec.ofNat 32 r.wr)) ||| (w &&& BitVec.ofNat 32 r.wr)) &&& ~~~(w &&& BitVec.ofNat 32 r.c1)

/-- Store a write by the register's row. -/
def Hw.store (pg off : Nat) (r : RegRow) (w : W32) (h : Hw) : Hw := h.onPg (Pages.upd (regKey pg off) fun old => r.mix old w)

/-- A write that may be refused, and stores by the row otherwise. -/
def Hw.storeUnless (bad : Bool) (pg off : Nat) (r : RegRow) (w : W32) (h : Hw) : Bool × Hw := if bad then (false, h) else (true, h.store pg off r w)

/-! ## Blocks whose registers act when written -/

/-- BEAT page (R32, R35, R46, R65, R66). -/
def Hw.beatWrite (off : Nat) (r : RegRow) (w : W32) (h : Hw) : Bool × Hw :=
  if off = 0x054 then h.lenNext w
  else if off = 0x058 ∨ off = 0x05C then
    (if h.pg.bit Reg.BEAT_LEN_NEXT 31 then (false, h.onPg (Pages.raise Pg.beat 7 0 none)) else (true, h.store Pg.beat off r w))
  else if off = 0x064 then h.servoCtrl w
  else if off = 0x074 then h.storeUnless (decide (512 < fld w 9 0)) Pg.beat off r w
  else if off = 0x0AC then (if h.pg.works Pg.beat then h.beatCmd w else (true, h))
  else if 0x0C0 ≤ off ∧ off < 0x0D0 then h.storeUnless (h.pg.bit Reg.BEAT_SET_CTRL 31) Pg.beat off r w
  else if off = 0x0D0 then h.setCtrl w
  else (true, h.store Pg.beat off r w)

/-- JRNL_TAIL as a whole (R71): refused in replay; while ENABLE is 1 it must be a multiple of 32 B from the tail up to the head. -/
def Pages.tailBad (p : Pages) (v : Nat) : Bool :=
  let size := 2 ^ p.get Reg.JRNL_SIZE 5 0
  let tail := (p.rd64 Reg.JRNL_TAIL_LO).toNat
  let head := (p.rd64 Reg.JRNL_HEAD_LO).toNat
  p.bit Reg.JRNL_CTRL 1 ||
    (p.bit Reg.JRNL_CTRL 0 && (decide (v % 32 ≠ 0) || decide (size ≤ v) || decide ((head + size - tail) % size < (v + size - tail) % size)))

/-- A write of the pair JRNL_TAIL. -/
def Hw.tailWrite (v : W64) (h : Hw) : Bool × Hw := if h.pg.tailBad v.toNat then (false, h) else (true, h.onPg (Pages.wr64 Reg.JRNL_TAIL_LO v))

/-- JRNL_CTRL: ACTIVE follows a change of ENABLE; REPLAY starts and ends a replay (R64, R70). -/
def Hw.jrnlCtrl (w : W32) (h : Hw) : Hw :=
  let old := h.pg.rd Reg.JRNL_CTRL
  let h1 := h.onPg fun p =>
    let p1 := p.wr Reg.JRNL_CTRL (w &&& 3#32)
    if wbit w 0 != wbit old 0 then p1.setb Reg.JRNL_STAT 0 (wbit w 0) else p1
  if wbit w 1 && !wbit old 1 then h1.jStart
  else if !wbit w 1 && wbit old 1 then h1.onPg (Pages.setb Reg.JRNL_STAT 1 false)
  else h1

/-- JRNL page (R70, R71). DESIGN CHOICE (log entry 85): a JRNL_BASE that is not 4 KiB aligned is stored and used as written. -/
def Hw.jrnlWrite (off : Nat) (r : RegRow) (w : W32) (h : Hw) : Bool × Hw :=
  let busy := h.pg.bit Reg.JRNL_CTRL 0 || h.pg.bit Reg.JRNL_CTRL 1
  if off = 0x040 then (true, h.jrnlCtrl w)
  else if off = 0x048 ∨ off = 0x04C then h.storeUnless busy Pg.jrnl off r w
  else if off = 0x050 then h.storeUnless (busy || decide (fld w 5 0 < 16) || decide (36 < fld w 5 0)) Pg.jrnl off r w
  else if off = 0x060 then h.tailWrite (join32 w (h.pg.rd Reg.JRNL_TAIL_HI))
  else if off = 0x064 then h.tailWrite (join32 (h.pg.rd Reg.JRNL_TAIL_LO) w)
  else (true, h.store Pg.jrnl off r w)

/-- GIG_FIFO_CTRL: the level, and a flush of the core's FIFO (R219, R223). -/
def Hw.fifoCtrl (n : Nat) (w : W32) (h : Hw) : Hw :=
  let h1 := h.onPg (Pages.put (Reg.GIG_FIFO_CTRL n) 6 0 (fld w 6 0))
  if !wbit w 31 then h1
  else match h1.pg.logOf n with
    | none => h1
    | some l => let ci := h1.ciOf l ((h1.coreCtx l).getD 0); h1.onCv ci (CV.fifoFlush ci)

/-- Pages of a core's MXA, TVU and GIG: the debug registers are refused while the lock is closed (R163). -/
def Hw.unitWrite (u n pg off : Nat) (r : RegRow) (w : W32) (h : Hw) : Bool × Hw :=
  if off = 0x080 then h.dbgCtrlWrite u n w
  else if off = 0x084 then h.storeUnless (!h.pg.dbgAvail) pg off r w
  else if u = 2 ∧ off = 0x050 then (true, h.fifoCtrl n w)
  else (true, h.store pg off r w)

/-- MEMXL page (R305, R314). -/
def Hw.memxlWrite (off : Nat) (r : RegRow) (w : W32) (h : Hw) : Bool × Hw :=
  if off = 0x048 then (let x := h.dev.xlInval w; (x.1, { h with dev := x.2 }))
  else if off = 0x070 then (let x := h.dev.winCmd w; (x.1, { h with dev := x.2 }))
  else (true, h.store Pg.memxl off r w)

/-- OPE_CTRL: a narrower MAX_WIDTH acts on an ACTIVE port (R346, R368). -/
def Hw.opeWrite (k off : Nat) (r : RegRow) (w : W32) (h : Hw) : Hw :=
  let old := h.pg.get (Reg.OPE_CTRL k) 17 16
  let h1 := h.store (Pg.ope k) off r w
  if off = 0x040 ∧ widthOf (fld w 17 16) < widthOf old then h1.onLink0 k fun v => v.narrow k (widthOf (fld w 17 16)) else h1

/-- LINK_CTRL: HOLD_OFF acts when it changes, RETRAIN when it is written 1 (R358, R366, R371). -/
def Hw.linkCtrl (k : Nat) (r : RegRow) (w : W32) (h : Hw) : Hw :=
  let old := h.pg.bit (Reg.LINK_CTRL k) 30
  let h1 := h.store (Pg.link k) 0x040 r w
  let h2 := if wbit w 30 != old then h1.onLink0 k fun v => v.holdOff k (wbit w 30) else h1
  if wbit w 31 then h2.onLink0 k fun v => v.softRetrain k else h2

/-- LINK page. -/
def Hw.linkWrite (k off : Nat) (r : RegRow) (w : W32) (h : Hw) : Hw :=
  if off = 0x040 then h.linkCtrl k r w
  else if off = 0x058 then h.onLink0 k fun v => v.expEpoch k (fld w 7 0)
  else h.store (Pg.link k) off r w

/-- An armed change of bank or epoch: refused unless its beat lies 2 or more beats ahead (R391, R394). -/
def Hw.armWrite (key at_ : Nat) (mask : W32) (w : W32) (h : Hw) : Bool × Hw :=
  if wbit w 31 && !h.pg.twoAhead (h.pg.rd64 at_).toNat then (false, h)
  else (true, h.onPg fun p =>
    let p1 := p.wr key (w &&& mask)
    if key = Reg.RTR_BANK_NEXT then p1.setb Reg.RTR_BANK 16 (wbit w 31) else p1)

/-- RTR page (R388, R391, R392, R394). -/
def Hw.rtrWrite (off : Nat) (r : RegRow) (w : W32) (h : Hw) : Bool × Hw :=
  let badPort (v : Nat) : Bool := decide (10 ≤ v) && decide (v ≤ 14)
  if off = 0x044 then h.armWrite Reg.RTR_BANK_NEXT Reg.RTR_BANK_AT_LO 0x80000001#32 w
  else if off = 0x048 ∨ off = 0x04C then h.storeUnless (h.pg.bit Reg.RTR_BANK_NEXT 31) Pg.rtr off r w
  else if off = 0x050 then (true, h.onPg (Pages.drainArm w))
  else if off = 0x060 then h.armWrite Reg.RTR_FEP_NEXT Reg.RTR_FEP_AT_LO 0x800000FF#32 w
  else if off = 0x064 ∨ off = 0x068 then h.storeUnless (h.pg.bit Reg.RTR_FEP_NEXT 31) Pg.rtr off r w
  else if off = 0x070 then h.storeUnless (badPort (fld w 3 0) || badPort (fld w 7 4)) Pg.rtr off r w
  else (true, h.store Pg.rtr off r w)

/-- A routing table entry that R398 refuses: offset of the register, its new value, and for a detour the register beside it. -/
def Pages.rtabBad (p : Pages) (bank off : Nat) (w : W32) : Bool :=
  if off < 0x300 then (List.range 4).any fun i =>
    wbit w (8 * i + 7) && (let c := fld w (8 * i + 3) (8 * i); decide (c = 15) || (decide (10 ≤ c) && decide (c ≤ 13)))
  else
    let j := (off - 0x300) / 16
    let o := off % 16
    let cond := if o = 4 then w else p.rd (Reg.DT_COND bank j)
    let act := if o = 8 then w else p.rd (Reg.DT_ACT bank j)
    (wbit cond 31 && decide (9 < fld act 3 0)) || (decide (10 ≤ fld cond 11 8) && decide (fld cond 11 8 ≤ 14))

/-- RTAB pages (R393, R398). -/
def Hw.rtabWrite (bank off : Nat) (r : RegRow) (w : W32) (h : Hw) : Bool × Hw :=
  h.storeUnless (decide (h.pg.get Reg.RTR_BANK 0 0 = bank) || decide (h.pg.get (inflightReg bank) 15 0 ≠ 0) || h.pg.rtabBad bank off w)
    (Pg.rtab bank) off r w

/-- Slot k is in use by a launch (R401). -/
def Hw.slotUsed (k : Nat) (h : Hw) : Bool :=
  h.ctxList.any fun c => ((h.ctx c).launch.any fun l => decide (l.group = k)) || (h.launchMod c).any fun m => decide (k ∈ m.grps)

/-- A configured slot that breaks a condition of R400. -/
def Pages.grpBad (p : Pages) (k : Nat) : Bool :=
  let cfg := p.rd (Reg.GRP_CFG k)
  decide (fld cfg 27 24 = 0) || decide (1 < fld cfg 30 29) || (wbit cfg 28 && decide (fld cfg 30 29 ≠ 1)) ||
    decide (p.get (Reg.GRP_TAP k) 22 0 % 64 ≠ 0) ||
    (List.range 4).any fun a =>
      decide (p.grpHi k a < p.grpLo k a) || decide (p.extent a ≤ p.grpHi k a) ||
        (if p.grpMask k a then decide (p.grpBlk k a < 2) || decide ((p.grpHi k a - p.grpLo k a + 1) % p.grpBlk k a ≠ 0)
         else decide (p.grpBlk k a ≠ 1))

/-- STG pages: the group slots (R399 to R401). -/
def Hw.stgWrite (pg off : Nat) (r : RegRow) (w : W32) (h : Hw) : Bool × Hw :=
  if off < 0x400 then (true, h.store pg off r w)
  else
    let k := (off - 0x400) / 16
    let h1 : Hw := { h.store pg off r w with grpLost := h.grpLost.filter (· ≠ k) }
    if h.slotUsed k || (h1.pg.bit (Reg.GRP_CFG k) 31 && h1.pg.grpBad k) then (false, h) else (true, h1)

/-- HIF page (R443, R444, R446, R447, R463, R464, R467). -/
def Hw.hifWrite (off : Nat) (r : RegRow) (w : W32) (h : Hw) : Bool × Hw :=
  if off = 0x044 then (true, h.ctxCmd w)
  else if off = 0x05C then h.zeroGo w
  else if off = 0x064 then h.resWrite Reg.HIF_LEND_RES 1 w
  else if off = 0x100 ∨ off = 0x104 then h.bayPartWrite ((off - 0x100) / 4) w
  else if 0x140 ≤ off ∧ off < 0x170 then h.slotLenWrite ((off - 0x140) / 4) w
  else if 0x200 ≤ off ∧ off < 0x500 then h.slotWrite ((off - 0x200) / 4) w
  else if 0x600 ≤ off ∧ off < 0x6C0 then h.resWrite (regKey Pg.hif off) ((off - 0x600) / 4 % 4) w
  else if 0x700 ≤ off ∧ off % 16 = 8 then h.lendCtrl ((off - 0x700) / 16) w
  else (true, h.store Pg.hif off r w)

/-- CTX page (R445, R449, R470). -/
def Hw.ctxWrite (c off : Nat) (r : RegRow) (w : W32) (h : Hw) : Bool × Hw :=
  if off = 0x044 then h.ctxQrangeWrite c w
  else if off = 0x048 then h.ctxScrWrite c w
  else (true, h.store (Pg.ctx c) off r w)

/-- PWR and RST pages (R502, R503, R516, R517). -/
def Hw.pwrWrite (off : Nat) (r : RegRow) (w : W32) (h : Hw) : Bool × Hw :=
  if off = 0x040 then h.pstateWrite w
  else if off = 0x048 then h.capWrite w
  else if off = 0x070 then (true, h.onPg (Pages.suspectClear w))
  else (true, h.store Pg.pwr off r w)

/-- A write of a block-specific register that the access rules admit; false when the page refuses it at that moment (R89). wi is what a
warm reset meets. -/
def Hw.blockWrite (wi : WarmIn) (pg off : Nat) (r : RegRow) (w : W32) (h : Hw) : Bool × Hw :=
  match pageKind pg with
  | .beat => h.beatWrite off r w
  | .jrnl => h.jrnlWrite off r w
  | .bay => if off = 0x04C then h.bayCmd (pg - Pg.bay 0) w else if off = 0x100 then h.shdwCtrl w else (true, h.store pg off r w)
  | .mxa => h.unitWrite 0 ((pg - 0x100) / 4) pg off r w
  | .tvu => h.unitWrite 1 ((pg - 0x100) / 4) pg off r w
  | .gig => h.unitWrite 2 ((pg - 0x100) / 4) pg off r w
  | .suu => if off = 0x048 then (let x := h.slotPartWrite w; (!x.1, x.2)) else (true, h.store pg off r w)
  | .memxl => h.memxlWrite off r w
  | .wcb => if off = 0x044 then (true, h.onDev (Dev.wcbFlushReg w)) else (true, h.store pg off r w)
  | .ope => (true, h.opeWrite (pg - Pg.ope 0) off r w)
  | .link => (true, h.linkWrite (pg - Pg.link 0) off r w)
  | .rtr => h.rtrWrite off r w
  | .rtab => h.rtabWrite (pg - Pg.rtab 0) off r w
  | .stg => h.stgWrite pg off r w
  | .hif => h.hifWrite off r w
  | .ctx => h.ctxWrite (pg - 0x4000) off r w
  | .qcfg => if off % 64 = 0 then h.qCtrlWrite ((pg - 0x0900) * 64 + off / 64) w else (true, h.store pg off r w)
  | .sec => if off = 0x048 then (if wbit w 0 then h.dbgOpen else (true, h)) else (true, h.store pg off r w)
  | .pwr => h.pwrWrite off r w
  | .rst => if off = 0x040 then (if h.pg.works Pg.rst then h.rstCmd wi w else (true, h)) else (true, h.store pg off r w)
  | .hang => if off = 0x04C then h.hangConsent w else (true, h.store pg off r w)
  | _ => (true, h.store pg off r w)

/-! ## The header (R79 to R86) -/

/-- Saturating counters of a kind of page, by offset and count (R93); and its "highest since CLR_CNT" registers. -/
def satRegs : PageKind → List (Nat × Nat)
  | .beat => [(0x080, 4), (0x098, 2)]
  | .jrnl => [(0x070, 2)]
  | .bay => [(0x054, 2), (0x108, 2)]
  | .mxa => [(0x090, 1)]
  | .gig => [(0x054, 3)]
  | .scr => [(0x044, 2)]
  | .ntc => [(0x054, 4), (0x080, 32)]
  | .ftc => [(0x050, 4)]
  | .memxl => [(0x080, 2)]
  | .wcb => [(0x098, 1)]
  | .suu => [(0x080, 2)]
  | .ope => [(0x054, 1)]
  | .link => [(0x0C0, 8)]
  | .rtr => [(0x080, 8)]
  | .stg => [(0x070, 3)]
  | .hif => [(0x080, 3)]
  | .cmp => [(0x060, 2)]
  | .sec => [(0x058, 1)]
  | .pwr => [(0x054, 3)]
  | .clk => [(0x048, 1)]
  | .rst => [(0x050, 6)]
  | .hang => [(0x058, 1)]
  | .therm => [(0x04C, 2)]
  | .ras => [(0x078, 1)]
  | .tele => [(0x050, 1)]
  | _ => []

/-- A "highest since CLR_CNT" field starts again from what is in use. -/
def Pages.peaks (pg : Nat) (p : Pages) : Pages :=
  match pageKind pg with
  | .wcb => (List.range 8).foldl (fun p s => p.put (Reg.WCB_OCC s) 23 16 (p.get (Reg.WCB_OCC s) 7 0)) p
  | .hif => p.put Reg.HIF_STAGE 15 0 (p.get Reg.HIF_STAGE 31 16)
  | _ => p

/-- CLR_CNT (R81, R93): PG_ERR_CNT and every saturating counter; on the HIF page Q_DROP and Q_TRUNC of every queue too (R467). -/
def Pages.clrCnt (pg : Nat) (p : Pages) : Pages :=
  let gone (k : Nat) : Bool :=
    decide (k = Reg.PG_ERR_CNT pg) || ((satRegs (pageKind pg)).any fun x => decide (regKey pg x.1 ≤ k) && decide (k < regKey pg x.1 + x.2)) ||
      (decide (pg = Pg.hif) && decide (pageKind (k / 1024) = .qcfg) && (decide (keyOff k = 0x20) || decide (keyOff k = 0x24)))
  ({ p with regs := tdrop gone p.regs } : Pages).peaks pg

/-- CLR_CNT of a page, the peak of a hold buffer with it (R81, R426). -/
def Hw.clrCnt (pg : Nat) (h : Hw) : Hw :=
  let h1 := h.onPg (Pages.clrCnt pg)
  match pageKind pg with
  | .stg => h1.onPg (Pages.upd (regKey pg 0x048) fun w => setFld w 15 0 (h.holdKib (pg - Pg.stg 0)))
  | _ => h1

/-- The pages where ENABLE reads 1 and ignores writes (R81). -/
def fixedPage (pg : Nat) : Bool := match pageKind pg with | .dev | .fuse | .sec | .cmp | .ras => true | _ => false

/-- FENCE of a page: a page of a core fences the core (R542); a block's own page keeps the bit (R81). -/
def Hw.fencePage (pg : Nat) (h : Hw) : Hw :=
  match pageKind pg with
  | .mxa | .tvu | .gig | .scr => (h.onPg (Pages.setb (Reg.PG_CTRL pg) 1 true)).fence ((pg - 0x100) / 4) 3 0 0
  | _ => h.onPg (Pages.setb (Reg.PG_CTRL pg) 1 true)

/-- ENABLE of a page: LASER_EN of a port follows (R81, R343). -/
def Hw.enablePage (pg : Nat) (on : Bool) (h : Hw) : Hw :=
  if fixedPage pg then h
  else h.onPg fun p =>
    let p1 := p.setb (Reg.PG_CTRL pg) 0 on
    match pageKind pg with
    | .ope => p1.laserEn (pg - Pg.ope 0) false
    | _ => p1

/-- A write of PG_CTRL (R81, R82); false when a BLOCK_RESET in it is refused. -/
def Hw.pgCtrl (pg : Nat) (w : W32) (h : Hw) : Bool × Hw :=
  if wbit w 31 && h.pg.blockResetBad pg then (false, h)
  else
    let h1 := if wbit w 2 then h.onPg (Pages.setb (Reg.PG_CTRL pg) 2 true) else h
    let h2 := if wbit w 30 then h1.clrCnt pg else h1
    let h3 := if wbit w 1 then h2.fencePage pg else h2
    let h4 := h3.enablePage pg (wbit w 0)
    (true, if wbit w 31 then (h4.blockReset pg).2 else h4)

/-- The bits of PG_ERR_STAT, PG_ERR_MASK and PG_ERR_INJ that a page implements (R80). -/
def detMask (pg : Nat) : W32 := BitVec.ofNat 32 (2 ^ detCount pg - 1)

/-- A write of a header register: the access error it raises, if any, and what it does (R79 to R90). -/
def Hw.hdrWrite (pg off : Nat) (w : W32) (h : Hw) : Option AccErr × Hw :=
  let lock := h.pg.bit (Reg.PG_CTRL pg) 2
  if off = 0x008 then (let x := h.pgCtrl pg w; (if x.1 then none else some .state, x.2))
  else if off = 0x010 then (none, h.onPg (Pages.upd (Reg.PG_INT_STAT pg) fun o => o &&& ~~~w))
  else if off = 0x014 then (none, h.onPg (Pages.wr (Reg.PG_INT_EN pg) w))
  else if off = 0x018 then (none, h.onPg (Pages.upd (Reg.PG_INT_STAT pg) fun o => o ||| (w &&& 0x7FFFFFFF#32)))
  else if off = 0x01C then (none, h.onPg (Pages.upd (Reg.PG_ERR_STAT pg) fun o => o &&& ~~~w))
  else if off = 0x020 then (none, h.onPg (Pages.wr (Reg.PG_ERR_MASK pg) (w &&& detMask pg)))
  else if off = 0x024 then (if lock then (some .locked, h) else (none, h.onPg (Pages.wr (Reg.PG_ERR_INJ pg) (w &&& detMask pg))))
  else if off = 0x028 then
    (if lock then (some .locked, h) else if wbit w 31 then (some .state, h)
     else (none, h.onPg (Pages.wr (Reg.PG_ERR_INJ_MODE pg) (w &&& 0xC000FFFF#32))))
  else if off = 0x038 then (none, h.onPg (Pages.upd (Reg.PG_ERR_CTX pg) fun o => o &&& ~~~(w &&& 0x80000000#32)))
  else if off = 0x03C then (none, h.onPg (Pages.upd (Reg.PG_ACC_ERR pg) fun o => o &&& ~~~(w &&& 0x8000007F#32)))
  else (some .ro, h)

/-! ## Writes (R76, R78, R87, R89, R92) -/

/-- The path may not write the register: which error that is (R65, R78, R470, R558). -/
def RegWho.denies (who : RegWho) (path : Path) : Option AccErr :=
  match who, path with
  | .dareder, .mgmt => none
  | .dareder, _ => some .hostDenied
  | .chaiseMgmt, .host _ => some .hostDenied
  | .pfMgmt, .chaise => some .ro
  | .pf, .host (_ + 1) => some .ro
  | .pfOnly, .host 0 => none
  | .pfOnly, _ => some .ro
  | _, _ => none

/-- A 32-bit write of a register of a page: the access error, if any, and what it does. -/
def Hw.writeReg (wi : WarmIn) (path : Path) (pg off : Nat) (w : W32) (h : Hw) : Option AccErr × Hw :=
  if hasHeader pg && h.pg.inReset pg then (some .state, h)
  else if hasHeader pg && decide (off < 0x40) then h.hdrWrite pg off w
  else match regRow pg off with
    | none => (if pageKind pg = .ctx ∧ 0x400 ≤ off ∧ off < 0x460 then some .ro else some .rsvd, h)
    | some r =>
      if homePage pg off ≠ pg then (some .ro, h)
      else match r.who.denies path with
        | some e => (some e, h)
        | none => match r.kind with
          | .eventLo => (none, h.onPg (Pages.wr64 (regKey pg off) 0))
          | .eventHi => (none, h.onPg (Pages.wr64 (regKey pg (off - 4)) 0))
          | .timeLo | .timeHi => (some .ro, h)
          | .plain | .locked =>
            if r.wr = 0 ∧ r.c1 = 0 ∧ r.wo = 0 then (some .ro, h)
            else if r.kind = .locked ∧ h.pg.bit (Reg.PG_CTRL pg) 2 then (some .locked, h)
            else (let x := h.blockWrite wi pg off r w; (if x.1 then none else some .state, x.2))

/-- Flag an access error, if there is one. -/
def Hw.flagOpt (pg off : Nat) (path : Path) (e : Option AccErr) (h : Hw) : Hw :=
  match e with | some e => h.flag pg off path e | none => h

/-- The page that records errors of a doorbell: the CTX page of a VF, HIF for the rest (R75, R76). -/
def Pages.bellPage (p : Pages) (path : Path) : Nat :=
  match path with
  | .host 0 => Pg.hif
  | .host f => Pg.ctx (p.funcCtx f)
  | _ => Pg.hif

/-- An access error at an address that is not a hole. -/
def Hw.flagAt (path : Path) (a : Nat) (e : AccErr) (h : Hw) : Hw :=
  match h.pg.target path a with
  | .page pg off => h.flag pg off path e
  | .bell _ _ => h.flag (h.pg.bellPage path) (a % 4096) path e
  | .gap (some c) => h.flag (Pg.ctx c) (a % 4096) path .rsvd
  | .gap none => h
  | .hole => h.onPg (Pages.holeAt path a)

/-- A 32-bit write at an address. -/
def Hw.write32 (wi : WarmIn) (path : Path) (a : Nat) (w : W32) (h : Hw) : Hw :=
  match h.pg.target path a with
  | .page pg off => let x := h.writeReg wi path pg off w; x.2.flagOpt pg off path x.1
  | .bell q sub => if sub = 0 then h.doorbell q w else h.flagAt path a .rsvd
  | .gap _ | .hole => h.flagAt path a .rsvd

/-- The two words at an offset that is a multiple of 8 are one pair: a 64A pair or an RSN pair. -/
def isPair (pg off : Nat) : Bool :=
  match regRow pg off, regRow pg (off + 4) with
  | some a, some b => (a.a64 && b.a64) || decide (a.kind = .eventLo) || decide (a.kind = .timeLo)
  | _, _ => false

/-- A 64-bit write of a pair: refused as a whole when either half is; the pair JRNL_TAIL is judged as a whole (R71, R89). -/
def Hw.writePair (wi : WarmIn) (path : Path) (pg off : Nat) (lo hi : W32) (h : Hw) : Hw :=
  if pg = Pg.jrnl ∧ off = 0x060 ∧ h.pg.inReset Pg.jrnl = false then
    (let x := h.tailWrite (join32 lo hi); x.2.flagOpt pg off path (if x.1 then none else some .state))
  else
    let x := h.writeReg wi path pg off lo
    if x.1 = some .state then x.2.flag pg off path .state
    else
      let y := x.2.writeReg wi path pg (off + 4) hi
      if y.1 = some .state then h.flag pg (off + 4) path .state
      else y.2.flagOpt pg off path (match x.1 with | some e => some e | none => y.1)

/-- A 64-bit write at an address that is a multiple of 8: a pair as one, anything else as two words in order (R87). -/
def Hw.write64 (wi : WarmIn) (path : Path) (a : Nat) (lo hi : W32) (h : Hw) : Hw :=
  let two : Hw := (h.write32 wi path a lo).write32 wi path (a + 4) hi
  match h.pg.target path a with
  | .page pg off => if (if hasHeader pg && decide (off < 0x40) then decide (off = 0x030) else isPair pg off) then h.writePair wi path pg off lo hi else two
  | _ => two

/-- A word of a byte list. -/
def wordAt (bs : List Byte) : W32 := BitVec.ofNat 32 (ofBytesLE (bs.take 4))

/-- Whole words in ascending order, aligned pairs as one (R87). fuel bounds the words. -/
def Hw.writeWords (wi : WarmIn) (path : Path) : Nat → Nat → List Byte → Hw → Hw
  | 0, _, _, h => h
  | fuel + 1, a, bs, h =>
    if bs.isEmpty then h
    else if a % 8 = 0 ∧ 8 ≤ bs.length then
      Hw.writeWords wi path fuel (a + 8) (bs.drop 8) (h.write64 wi path a (wordAt bs) (wordAt (bs.drop 4)))
    else Hw.writeWords wi path fuel (a + 4) (bs.drop 4) (h.write32 wi path a (wordAt bs))

/-- A write of any width; full tells that every byte enable is set. A narrow or partial one is ignored and flagged NARROW (R87). -/
def Hw.writeBytes (wi : WarmIn) (path : Path) (a : Nat) (full : Bool) (bs : List Byte) (h : Hw) : Hw :=
  if full && decide (a % 4 = 0) && decide (bs.length % 4 = 0) && !bs.isEmpty then h.writeWords wi path bs.length a bs
  else h.flagAt path a .narrow

/-- A 32-bit write of the register of a page as a command makes it. -/
def Hw.writeCmd (wi : WarmIn) (path : Path) (pg off : Nat) (w : W32) (h : Hw) : Hw :=
  let x := h.writeReg wi path pg off w
  x.2.flagOpt pg off path x.1

end Sys2Proof.Machine
end

