-- ==== Sys2Proof/Machine/Run.lean ====
section
/-! DEFINITION. How a command runs: the device that its reset pin or a thermal trip holds does nothing; management messages that a command
made enter the router; which registers an access path sees; and the packets that reach register space (R72 to R78, R375, R507, R514). -/

namespace Sys2Proof.Machine

/-! ## Running a command -/

/-- The device runs: RESET_N is released and no thermal trip holds its clocks (R507, R514). -/
def Hw.up (h : Hw) : Bool := !h.power.inReset && !h.power.tripped

/-- The management messages that a command made enter the router, while its clock runs. -/
def Hw.sendOut (h : Hw) : Hw := if h.up then h.mgFlush else h

/-- The state after a command whose effect on the hardware is f. -/
def State.done (f : Hw → Hw) (s : State) : State := { s with hw := (f s.hw).sendOut }

/-- A command's effect on everything but the queue. A device held by RESET_N or by a thermal trip does nothing. -/
def State.onHw (f : Hw → Hw) (s : State) : Host.Outcome State Fault Refusal := .next (if s.hw.up then s.done f else s)

/-- The effect of a command that a page's block carries out: none while the page is disabled, fenced or in reset (R81). -/
def State.onBlock (pg : Nat) (f : Hw → Hw) (s : State) : Host.Outcome State Fault Refusal := s.onHw fun h => if h.pg.works pg then f h else h

/-- The same of what the Chaise does, whose clock a thermal trip leaves running (R507). -/
def State.onChaise (f : Hw → Hw) (s : State) : Host.Outcome State Fault Refusal := .next (if s.hw.power.inReset then s else s.done f)

/-- The effect of the pins and supplies, which act whatever the device does. -/
def State.onPins (f : Hw → Hw) (s : State) : Host.Outcome State Fault Refusal := .next { s with hw := f s.hw }

/-- A native instruction of a logical core; one that the translator refuses never comes into a stream (R242 to R244). -/
def State.onInsn (l : Nat) (i : CoreInsn) (s : State) : Host.Outcome State Fault Refusal :=
  if i.wf then s.onHw (Hw.dispatch l i) else .refused .illFormed

/-- A step of the routine that a logical core's Gig runs for the context that holds the core (R209, R446). -/
def Hw.gigDo (l : Nat) (f : CInfo → CV → CV) (h : Hw) : Hw :=
  match h.coreCtx l with
  | none => h
  | some c =>
    let ci := h.ciOf l c
    if h.reach l && decide ((h.core ci.n).owner = some c) && h.goes c then (h.onCv ci (f ci)).pumpCore ci else h

/-- Every core goes on with what it can start, after an event that others may have waited for. -/
def Hw.pumpAll (h : Hw) : Hw := (h.cores.map fun e => e.1).foldl (fun h n => h.pumpPhys n) h

/-- A tile load into BACK finishes on a physical core (R143). -/
def Hw.mloadDone (n : Nat) (h : Hw) : Hw :=
  match h.pg.logOf n with
  | none => h
  | some l => match h.coreCtx l with
    | none => h
    | some c => if (h.core n).owner = some c then (h.modCore n Core.loadDone).pumpPhys n else h

/-- A data movement or URECIPE of a logical core, named by its index in the block, finishes (R279). -/
def Hw.dmaDone (l index : Nat) (h : Hw) : Hw :=
  match h.coreCtx l with
  | none => h
  | some c =>
    let n := h.pg.physOf l
    (h.modOwned n c fun co => { co with outs := co.outs.filter fun o => !((o.kind = .dma || o.kind = .urecipe) && o.index = index) }).pumpPhys n

/-! ## Registers by name -/

/-- A page stands in the address space of a path: a VF sees the CTX page of its own context and no other (R75, R77). -/
def Pages.sees (p : Pages) (path : Path) (pg : Nat) : Bool :=
  match path with
  | .host 0 | .chaise | .mgmt => true
  | .host (f + 1) => decide (p.funcCtx (f + 1) ≠ 0xFF) && decide (pg = Pg.ctx (p.funcCtx (f + 1)))

/-- The doorbell of a queue stands in the address space of a path: a VF sees those of its own context's queues. -/
def Pages.seesBell (p : Pages) (path : Path) (q : Nat) : Bool :=
  match path with
  | .host 0 | .chaise | .mgmt => true
  | .host (f + 1) => decide (p.funcCtx (f + 1) ≠ 0xFF) && decide (q ∈ p.ctxQueues (p.funcCtx (f + 1)))

/-- A 32-bit write of a register that a path sees; w is formed from the registers as they stand. -/
def Hw.regCmd (wi : WarmIn) (path : Path) (pg off : Nat) (w : Hw → W32) (h : Hw) : Hw :=
  if h.pg.sees path pg then h.writeCmd wi path pg off (w h) else h

/-- A 32-bit write whose warm reset, if it makes one, meets nothing amiss. -/
def Hw.regSet (path : Path) (pg off : Nat) (w : W32) (h : Hw) : Hw := h.regCmd WarmIn.good path pg off (fun _ => w)

/-- A register with bit i set to b, the rest as it stands. -/
def Hw.withBit (k i : Nat) (b : Bool) (h : Hw) : W32 := setBit (h.pg.rd k) i b

/-- A write of PG_CTRL of a page of a path's space that sets one of its command bits and leaves ENABLE as it is; on a hole it is an access to
that hole (R74, R81). -/
def Hw.ctrlBit (path : Path) (page bit : Nat) (h : Hw) : Hw :=
  let en := match h.pg.target path (4096 * page) with | .page pg _ => h.pg.enabled pg | _ => false
  h.write32 WarmIn.good path (4096 * page + 8) (BitVec.ofNat 32 (2 ^ bit + en.toNat))

/-! ## Packets that reach register space (R375) -/

/-- Offset in register space of a management packet's address (R94). -/
def Packet.regOff (k : Packet) : Nat := k.addr - regBase

/-- MG_WR: 4 or 8 B are written through the management path. -/
def Hw.mgWr (src : PktSrc) (h : Hw) : Hw :=
  let a := h.arrive (fun k => k.opc = 0x20) src
  match a.1 with
  | none => a.2
  | some (k, _) => a.2.writeBytes WarmIn.good .mgmt k.regOff true k.payload

/-- MG_RD: register space is read through the management path, and the answer goes back as MG_RSP. -/
def Hw.mgRd (src : PktSrc) (h : Hw) : Hw :=
  let a := h.arrive (fun k => k.opc = 0x21) src
  match a.1 with
  | none => a.2
  | some (k, _) =>
    let r := a.2.readBytes .mgmt k.regOff (k.ext.toNat % 16)
    r.2.inject (r.2.mgPacket k.src 0x22 k.addr (crc64 r.1) r.1)

/-- MG_RSP: the data goes to who asked on the management path, and to the work of the active. -/
def Hw.mgRsp (src : PktSrc) (h : Hw) : Hw :=
  let a := h.arrive (fun k => k.opc = 0x22) src
  match a.1 with
  | none => a.2
  | some (k, _) => ({ a.2 with reads := (.mgmt, k.payload) :: a.2.reads } : Hw).darederAnswer k

end Sys2Proof.Machine
end

