-- ==== Sys2Proof/Machine/ExecBeat.lean ====
section
/-! DEFINITION. What the commands of the beat, the servo and the Input Journal do (R26 to R71). -/

namespace Sys2Proof.Machine

/-- BEAT_BOUNDARY (R31): the units first finish what they can, then everything that R31 to R64 bind to the boundary happens. -/
def execBeatBoundary (s : State) : Host.Outcome State Fault Refusal := s.onBlock Pg.beat fun h => h.pumpAll.boundary

/-- CAP_WINDOW_END (R503), with the window's average power in watts. -/
def execCapWindowEnd (watts : W16) (s : State) : Host.Outcome State Fault Refusal := s.onBlock Pg.pwr (Hw.capWindow watts.toNat)

/-- SYNC_MARKER_RX (R27): a SYNC flit arrives on a port. -/
def execSyncMarkerRx (port : Fin 10) (rx : FlitRx) (marker now : W64) (s : State) : Host.Outcome State Fault Refusal :=
  s.onHw (Hw.syncMarker port.val rx marker now)

/-- SYNC_EMIT (R355). -/
def execSyncEmit (port : Fin 10) (s : State) : Host.Outcome State Fault Refusal := s.onBlock (Pg.link port.val) (Hw.syncEmit port.val)

/-- HOLDOVER (R30). -/
def execHoldover (s : State) : Host.Outcome State Fault Refusal := s.onBlock Pg.beat Hw.holdover

/-- HOLDOVER_LONG (R30). -/
def execHoldoverLong (s : State) : Host.Outcome State Fault Refusal := s.onBlock Pg.beat (Hw.onPg Pages.holdoverLong)

/-- BEAT_SERVO_CTRL_WRITE (R32). -/
def execBeatServoCtrlWrite (p : Path) (w : W32) (s : State) : Host.Outcome State Fault Refusal := s.onHw (Hw.regSet p Pg.beat 0x064 w)

/-- CLR_MAX (R66): BEAT_SERVO_CTRL is written as it stands, with CLR_MAX. -/
def execClrMax (p : Path) (s : State) : Host.Outcome State Fault Refusal :=
  s.onHw (Hw.regCmd WarmIn.good p Pg.beat 0x064 (Hw.withBit Reg.BEAT_SERVO_CTRL 31 true))

/-- BEAT_SET_ARM (R32). -/
def execBeatSetArm (p : Path) (s : State) : Host.Outcome State Fault Refusal := s.onHw (Hw.regSet p Pg.beat 0x0D0 0x80000000#32)

/-- BEAT_SET_DISARM (R32). -/
def execBeatSetDisarm (p : Path) (s : State) : Host.Outcome State Fault Refusal := s.onHw (Hw.regSet p Pg.beat 0x0D0 0#32)

/-- BEAT_LEN_ARM (R35), with the new LOG2_LEN. -/
def execBeatLenArm (p : Path) (log2 : Fin 32) (s : State) : Host.Outcome State Fault Refusal :=
  s.onHw (Hw.regSet p Pg.beat 0x054 (BitVec.ofNat 32 (2 ^ 31 + log2.val)))

/-- BEAT_LEN_DISARM (R35). -/
def execBeatLenDisarm (p : Path) (log2 : Fin 32) (s : State) : Host.Outcome State Fault Refusal :=
  s.onHw (Hw.regSet p Pg.beat 0x054 (BitVec.ofNat 32 log2.val))

/-- REVOTE (R46). -/
def execRevote (p : Path) (c : Byte) (s : State) : Host.Outcome State Fault Refusal :=
  s.onHw (Hw.regSet p Pg.beat 0x0AC (BitVec.ofNat 32 (0x10000000 + c.toNat)))

/-- WITHDRAW (R46). -/
def execWithdraw (p : Path) (c : Byte) (s : State) : Host.Outcome State Fault Refusal :=
  s.onHw (Hw.regSet p Pg.beat 0x0AC (BitVec.ofNat 32 (0x20000000 + c.toNat)))

/-- RESUME (R46), at the beat that BEAT_CMD_ARG names. -/
def execResume (p : Path) (c : Byte) (s : State) : Host.Outcome State Fault Refusal :=
  s.onHw (Hw.regSet p Pg.beat 0x0AC (BitVec.ofNat 32 (0x30000000 + c.toNat)))

/-- The command codes of BEAT_CMD that name no command: 0x0, and 0x4 to 0xF. -/
def refusedCode (code : Fin 13) : Nat := if code.val = 0 then 0 else code.val + 3

/-- BEAT_CMD_REFUSED (R46). -/
def execBeatCmdRefused (p : Path) (code : Fin 13) (c : Byte) (s : State) : Host.Outcome State Fault Refusal :=
  s.onHw (Hw.regSet p Pg.beat 0x0AC (BitVec.ofNat 32 (refusedCode code * 2 ^ 28 + c.toNat)))

/-- VOTE (R42, R47). -/
def execVote (src : VoteRx) (s : State) : Host.Outcome State Fault Refusal :=
  s.onHw (Hw.voteRx src.pkt src.latency.toNat)

/-- RESULT (R42), with the latency that BEAT_CONF_MAX records. -/
def execResult (src : PktSrc) (latency : W16) (s : State) : Host.Outcome State Fault Refusal :=
  s.onHw fun h => (h.resultRx src latency.toNat).pumpAll

/-- JRNL_REPLAY_START (R64): JRNL_CTRL is written as it stands, with REPLAY. -/
def execJrnlReplayStart (p : Path) (s : State) : Host.Outcome State Fault Refusal :=
  s.onHw (Hw.regCmd WarmIn.good p Pg.jrnl 0x040 (Hw.withBit Reg.JRNL_CTRL 1 true))

/-- JRNL_TAIL_WRITE (R71): both halves in one access. -/
def execJrnlTailWrite (p : Path) (v : W64) (s : State) : Host.Outcome State Fault Refusal :=
  s.onHw fun h => if h.pg.sees p Pg.jrnl then h.writePair WarmIn.good p Pg.jrnl 0x060 (lo32 v) (hi32 v) else h

end Sys2Proof.Machine
end

