-- ==== Sys2Proof/Machine/ExecChaise.lean ====
section
/-! DEFINITION. What boot, measurement, SPDM, PLDM and the debug lock do (R471 to R496). -/

namespace Sys2Proof.Machine

/-- RESET_N_RELEASE (R477): the cold boot, with what it meets on the board and in the package. -/
def execResetNRelease (i : BootIn) (s : State) : Host.Outcome State Fault Refusal :=
  s.onPins fun h => if h.power.inReset then (h.coldBoot i).sendOut else h

/-- RESET_N_ASSERT (R514). -/
def execResetNAssert (s : State) : Host.Outcome State Fault Refusal := s.onPins Hw.resetAssert

/-- CAP_VER_WRITE (R100): the boot ends, after ms milliseconds. -/
def execCapVerWrite (ms : W16) (s : State) : Host.Outcome State Fault Refusal := s.onHw (Hw.capVer ms)

/-- GET_MEASUREMENTS (R484). -/
def execGetMeasurements (index : Byte) (sign : Bool) (nonce : List Byte) (s : State) : Host.Outcome State Fault Refusal :=
  s.onChaise (Hw.getMeasurements index.toNat sign nonce)

/-- GET_MEASUREMENT_EXTENSION_LOG (R487). -/
def execGetMeasurementExtensionLog (s : State) : Host.Outcome State Fault Refusal := s.onChaise Hw.getMel

/-- GET_CERTIFICATE (R489). -/
def execGetCertificate (slot : Fin 8) (s : State) : Host.Outcome State Fault Refusal := s.onChaise (Hw.getCertificate slot.val)

/-- GET_DIGESTS (R489). -/
def execGetDigests (s : State) : Host.Outcome State Fault Refusal := s.onChaise Hw.getDigests

/-- CHALLENGE (R488). -/
def execChallenge (nonce : List Byte) (s : State) : Host.Outcome State Fault Refusal := s.onChaise (Hw.challenge nonce)

/-- KEY_EXCHANGE (R486). -/
def execKeyExchange (nonce : List Byte) (s : State) : Host.Outcome State Fault Refusal := s.onChaise (Hw.keyExchange nonce)

/-- IDE_KM (R486) in a session. -/
def execIdeKm (session : Nat) (s : State) : Host.Outcome State Fault Refusal := s.onChaise (Hw.ideKm session)

/-- SPDM_REQUEST (R486): any other request; one that ends a session names it. -/
def execSpdmRequest (supported : Bool) (endSession : Option Nat) (s : State) : Host.Outcome State Fault Refusal :=
  s.onChaise (Hw.spdmRequest supported endSession)

/-- PLDM_DISCOVERY (R490). -/
def execPldmDiscovery (s : State) : Host.Outcome State Fault Refusal := s.onChaise Hw.pldmDiscovery

/-- PLDM_SENSOR_READ (R490). -/
def execPldmSensorRead (id : Byte) (s : State) : Host.Outcome State Fault Refusal := s.onChaise (Hw.pldmSensorRead id.toNat)

/-- PLDM_FW_TRANSFER (R493). -/
def execPldmFwTransfer (off : Nat) (bytes : List Byte) (s : State) : Host.Outcome State Fault Refusal := s.onChaise (Hw.fwTransfer off bytes)

/-- PLDM_FW_VERIFY (R493). -/
def execPldmFwVerify (s : State) : Host.Outcome State Fault Refusal := s.onChaise Hw.fwVerify

/-- PLDM_FW_ACTIVATE (R493). -/
def execPldmFwActivate (s : State) : Host.Outcome State Fault Refusal := s.onChaise Hw.fwActivate

/-- OPEN (R491): SEC_DBG_CTRL is written 1. -/
def execDebugOpen (p : Path) (s : State) : Host.Outcome State Fault Refusal := s.onHw (Hw.regSet p Pg.sec 0x048 1#32)

/-- SEC_MEAS_READ (R484): a read of a slot's 48 B; every byte is of one state of the slots. -/
def execSecMeasRead (p : Path) (slot : Fin 32) (s : State) : Host.Outcome State Fault Refusal :=
  s.onHw (Hw.readCmd p (4096 * Pg.sec + 0x400 + 48 * slot.val) 48)

end Sys2Proof.Machine
end

