-- ==== Sys2Proof/Machine/ExecCompute.lean ====
section
/-! DEFINITION. What the matrix and vector instructions do when a core dispatches them (R130 to R204, R262 to R264). -/

namespace Sys2Proof.Machine

/-- MMODE (R138). -/
def execMmode (l : Fin 96) (o : MmodeOp) (s : State) : Host.Outcome State Fault Refusal := s.onInsn l.val (.mmode o)

/-- MLOAD (R134, R262). -/
def execMload (l : Fin 96) (o : MloadOp) (s : State) : Host.Outcome State Fault Refusal := s.onInsn l.val (.mload o)

/-- MLOAD_COMPLETE (R143) on a physical core. -/
def execMloadComplete (n : Fin 108) (s : State) : Host.Outcome State Fault Refusal := s.onHw (Hw.mloadDone n.val)

/-- MSTREAM (R141, R262). -/
def execMstream (l : Fin 96) (o : MstreamOp) (s : State) : Host.Outcome State Fault Refusal := s.onInsn l.val (.mstream o)

/-- MDRAIN (R135, R262). -/
def execMdrain (l : Fin 96) (o : MdrainOp) (s : State) : Host.Outcome State Fault Refusal := s.onInsn l.val (.mdrain o)

/-- VOP (R183, R264). -/
def execVop (l : Fin 96) (o : VopOp) (s : State) : Host.Outcome State Fault Refusal := s.onInsn l.val (.vop o)

/-- VTENS, form OP (R183, R264). -/
def execVtens (l : Fin 96) (o : VtensOp) (s : State) : Host.Outcome State Fault Refusal := s.onInsn l.val (.vtens o)

/-- VTENS, form LD (R183). -/
def execVtensLd (l : Fin 96) (o : VtensLsOp) (s : State) : Host.Outcome State Fault Refusal := s.onInsn l.val (.vtensLd o)

/-- VTENS, form ST (R183). -/
def execVtensSt (l : Fin 96) (o : VtensLsOp) (s : State) : Host.Outcome State Fault Refusal := s.onInsn l.val (.vtensSt o)

/-- VRED (R187). -/
def execVred (l : Fin 96) (o : VredOp) (s : State) : Host.Outcome State Fault Refusal := s.onInsn l.val (.vred o)

/-- VCVT (R183). -/
def execVcvt (l : Fin 96) (o : VcvtOp) (s : State) : Host.Outcome State Fault Refusal := s.onInsn l.val (.vcvt o)

/-- VRNG SEED (R192). -/
def execVrngSeed (l : Fin 96) (o : VseedOp) (s : State) : Host.Outcome State Fault Refusal := s.onInsn l.val (.vseed o)

/-- VRNG draws (R195). -/
def execVrngDraw (l : Fin 96) (o : VdrawOp) (s : State) : Host.Outcome State Fault Refusal := s.onInsn l.val (.vdraw o)

/-- VMASK (R185). -/
def execVmask (l : Fin 96) (o : VmaskOp) (s : State) : Host.Outcome State Fault Refusal := s.onInsn l.val (.vmask o)

end Sys2Proof.Machine
end

