-- ==== Sys2Proof/Machine/ExecControl.lean ====
section
/-! DEFINITION. What the control instructions do (R238 to R240, R276 to R279). -/

namespace Sys2Proof.Machine

/-- CSET (R240, R276). -/
def execCset (l : Fin 96) (d : Fin 16) (clr : Bool) (src : Sop) (s : State) : Host.Outcome State Fault Refusal := s.onInsn l.val (.cset d clr src)

/-- CINC (R240). -/
def execCinc (l : Fin 96) (d : Fin 16) (src : Sop) (s : State) : Host.Outcome State Fault Refusal := s.onInsn l.val (.cinc d src)

/-- CCMP (R240). -/
def execCcmp (l : Fin 96) (d : Fin 8) (a : Fin 16) (r : Rel) (src : Sop) (s : State) : Host.Outcome State Fault Refusal :=
  s.onInsn l.val (.ccmp d a r src)

/-- LOOP (R240). -/
def execLoop (l : Fin 96) (a : Fin 16) (t : BitVec 24) (s : State) : Host.Outcome State Fault Refusal := s.onInsn l.val (.loop a t)

/-- BR (R276). -/
def execBr (l : Fin 96) (cond : Option (Fin 8 × Bool)) (t : BitVec 24) (s : State) : Host.Outcome State Fault Refusal := s.onInsn l.val (.br cond t)

/-- BEAT (R238). -/
def execBeat (l : Fin 96) (n : BeatNext) (s : State) : Host.Outcome State Fault Refusal := s.onInsn l.val (.beat n)

/-- WAITARR (R277). -/
def execWaitarr (l : Fin 96) (tag : Option W16) (s : State) : Host.Outcome State Fault Refusal := s.onInsn l.val (.waitarr tag)

/-- FENCE, the instruction (R279). -/
def execFenceInsn (l : Fin 96) (sc : FScope) (cgs : BitVec 8) (s : State) : Host.Outcome State Fault Refusal := s.onInsn l.val (.fence sc cgs)

/-- SIGNAL (R278). -/
def execSignal (l : Fin 96) (host : Bool) (e : Fin 16) (v : Sop) (s : State) : Host.Outcome State Fault Refusal := s.onInsn l.val (.signal host e v)

/-- WAIT (R278). -/
def execWait (l : Fin 96) (e : Fin 16) (v : Sop) (s : State) : Host.Outcome State Fault Refusal := s.onInsn l.val (.wait e v)

end Sys2Proof.Machine
end

