-- ==== Sys2Proof/Machine/ExecGig.lean ====
section
/-! DEFINITION. What the Gig core's calls and scalar instructions do (R205 to R224, R281, R282). -/

namespace Sys2Proof.Machine

/-- GCALL (R209, R276). -/
def execGcall (l : Fin 96) (o : GcallOp) (s : State) : Host.Outcome State Fault Refusal := s.onInsn l.val (.gcall o)

/-- GCALL_DISPATCH (R209). -/
def execGcallDispatch (l : Fin 96) (s : State) : Host.Outcome State Fault Refusal := s.onHw (Hw.gigDo l.val fun ci v => gigDispatch ci v)

/-- RET (R209). -/
def execRet (l : Fin 96) (s : State) : Host.Outcome State Fault Refusal := s.onHw (Hw.gigDo l.val fun ci v => gigRet ci v)

/-- ADD, SUB, AND, OR, XOR (R282). -/
def execAddSubAndOrXor (l : Fin 96) (op : GAlu) (rd ra : Fin 32) (b : GSrc) (s : State) : Host.Outcome State Fault Refusal :=
  s.onHw (Hw.gigDo l.val fun ci v => gigAlu ci op rd ra b v)

/-- SHL, SHR, SRA (R282). -/
def execShlShrSra (l : Fin 96) (op : GShift) (rd ra : Fin 32) (b : GSrc) (s : State) : Host.Outcome State Fault Refusal :=
  s.onHw (Hw.gigDo l.val fun ci v => gigShift ci op rd ra b v)

/-- SLT, SLTU (R282). -/
def execSltSltu (l : Fin 96) (signed : Bool) (rd ra : Fin 32) (b : GSrc) (s : State) : Host.Outcome State Fault Refusal :=
  s.onHw (Hw.gigDo l.val fun ci v => gigSlt ci signed rd ra b v)

/-- MUL (R282). -/
def execMul (l : Fin 96) (rd ra : Fin 32) (b : GSrc) (s : State) : Host.Outcome State Fault Refusal :=
  s.onHw (Hw.gigDo l.val fun ci v => gigMul ci rd ra b v)

/-- DIV, DIVU, REM, REMU (R282). -/
def execDivRem (l : Fin 96) (op : GDiv) (rd ra : Fin 32) (b : GSrc) (s : State) : Host.Outcome State Fault Refusal :=
  s.onHw (Hw.gigDo l.val fun ci v => gigDiv ci op rd ra b v)

/-- LIH (R282). -/
def execLih (l : Fin 96) (rd : Fin 32) (imm : W32) (s : State) : Host.Outcome State Fault Refusal :=
  s.onHw (Hw.gigDo l.val fun ci v => gigLih ci rd imm v)

/-- LDL, STL (R282). -/
def execLdlStl (l : Fin 96) (store : Bool) (rd : Fin 32) (m : GMem) (s : State) : Host.Outcome State Fault Refusal :=
  s.onHw (Hw.gigDo l.val fun ci v => if store then gigStl ci rd m v else gigLdl ci rd m v)

/-- LDS, STS (R282). -/
def execLdsSts (l : Fin 96) (store : Bool) (rd : Fin 32) (m : GMem) (s : State) : Host.Outcome State Fault Refusal :=
  s.onHw (Hw.gigDo l.val fun ci v => if store then gigSts ci rd m v else gigLds ci rd m v)

/-- LDP (R282). -/
def execLdp (l : Fin 96) (rd : Fin 32) (preg : BitVec 8) (s : State) : Host.Outcome State Fault Refusal :=
  s.onHw (Hw.gigDo l.val fun ci v => gigLdp ci rd preg v)

/-- LDCAP (R282). -/
def execLdcap (l : Fin 96) (rd : Fin 32) (off : BitVec 12) (s : State) : Host.Outcome State Fault Refusal :=
  s.onHw (Hw.gigDo l.val fun ci v => gigLdcap ci rd off.toNat v)

/-- BEQ to BGEU, J (R282). -/
def execGigBranch (l : Fin 96) (op : GBr) (ra : Fin 32) (rb : Option (Fin 32)) (imm : W32) (s : State) : Host.Outcome State Fault Refusal :=
  s.onHw (Hw.gigDo l.val fun ci v => gigBr ci op ra rb imm v)

/-- POPF (R217). -/
def execPopf (l : Fin 96) (rd : Fin 32) (s : State) : Host.Outcome State Fault Refusal := s.onHw (Hw.gigDo l.val fun ci v => gigPopf ci rd v)

/-- WAITF (R218). -/
def execWaitf (l : Fin 96) (s : State) : Host.Outcome State Fault Refusal := s.onHw (Hw.gigDo l.val fun ci v => gigWaitf ci v)

/-- WAITF_WAKE (R218). -/
def execWaitfWake (l : Fin 96) (s : State) : Host.Outcome State Fault Refusal := s.onHw (Hw.gigDo l.val fun ci v => gigWake ci v)

/-- MFLUSH (R219). -/
def execMflush (l : Fin 96) (s : State) : Host.Outcome State Fault Refusal := s.onHw (Hw.gigDo l.val fun ci v => gigMflush ci v)

/-- TRAP (R213). -/
def execTrap (l : Fin 96) (s : State) : Host.Outcome State Fault Refusal := s.onHw (Hw.gigDo l.val fun ci v => gigTrap ci v)

/-- GIG_FIFO_FLUSH (R219): GIG_FIFO_CTRL is written as it stands, with FLUSH. -/
def execGigFifoFlush (p : Path) (n : Fin 108) (s : State) : Host.Outcome State Fault Refusal :=
  s.onHw (Hw.regCmd WarmIn.good p (Pg.gig n.val) 0x050 (Hw.withBit (Reg.GIG_FIFO_CTRL n.val) 31 true))

end Sys2Proof.Machine
end

