-- ==== Sys2Proof/Machine/ExecHost.lean ====
section
/-! DEFINITION. What modules, launches, queues, contexts, lending and the host link do (R242 to R256, R438 to R470). -/

namespace Sys2Proof.Machine

/-- Work of the host interface, while its page lets it (R81). -/
def Hw.hifDo (f : Hw → Hw) (h : Hw) : Hw := if h.pg.works Pg.hif then f h else h

/-- LOAD_MODULE (R243). -/
def execLoadModule (q : BitVec 14) (s : State) : Host.Outcome State Fault Refusal := s.onHw (Hw.hifDo (Hw.loadModule q.toNat))

/-- LOAD_MODULE_DONE (R248): the translation that the Chaise serves ends, after us microseconds. -/
def execLoadModuleDone (us : Nat) (s : State) : Host.Outcome State Fault Refusal := s.onHw (Hw.loadDone us)

/-- UNLOAD_MODULE (R242). -/
def execUnloadModule (q : BitVec 14) (s : State) : Host.Outcome State Fault Refusal := s.onHw (Hw.hifDo (Hw.unloadModule q.toNat))

/-- LAUNCH (R252). -/
def execLaunch (q : BitVec 14) (s : State) : Host.Outcome State Fault Refusal := s.onHw (Hw.hifDo (Hw.launchCmd q.toNat))

/-- DOORBELL (R450): a 32-bit write of the doorbell of a queue that the path sees. -/
def execDoorbell (p : Path) (q : BitVec 14) (w : W32) (s : State) : Host.Outcome State Fault Refusal :=
  s.onHw (Hw.hifDo fun h => if h.pg.seesBell p q.toNat then h.doorbell q.toNat w else h)

/-- DOORBELL_VISIBLE (R61): the oldest doorbell of the queue. -/
def execDoorbellVisible (q : BitVec 14) (s : State) : Host.Outcome State Fault Refusal := s.onHw (Hw.hifDo (Hw.doorbellVisible q.toNat))

/-- ABORT (R454). -/
def execAbort (q : BitVec 14) (s : State) : Host.Outcome State Fault Refusal := s.onHw (Hw.hifDo (Hw.abortCmd q.toNat))

/-- HCOPY (R452), and how the host answers its DMA. -/
def execHcopy (q : BitVec 14) (ans : HostAns) (s : State) : Host.Outcome State Fault Refusal := s.onHw (Hw.hifDo (Hw.hcopy q.toNat ans))

/-- SEND (R456), and how the host answers its DMA. -/
def execSend (q : BitVec 14) (ans : HostAns) (s : State) : Host.Outcome State Fault Refusal := s.onHw (Hw.hifDo (Hw.sendCmd q.toNat ans))

/-- NOP (R452). -/
def execNop (q : BitVec 14) (s : State) : Host.Outcome State Fault Refusal := s.onHw (Hw.hifDo (Hw.nopCmd q.toNat))

/-- COMPLETION_POST (R451): the oldest waiting completion of a CQ. -/
def execCompletionPost (q : BitVec 14) (s : State) : Host.Outcome State Fault Refusal := s.onHw (Hw.hifDo (Hw.completionPost q.toNat))

/-- MRQ_STAGE_TIMEOUT (R457). -/
def execMrqStageTimeout (q : BitVec 14) (s : State) : Host.Outcome State Fault Refusal := s.onHw (Hw.hifDo (Hw.mrqTimeout q.toNat))

/-- MRQ_SLOTS_FREE (R457). -/
def execMrqSlotsFree (q : BitVec 14) (s : State) : Host.Outcome State Fault Refusal := s.onHw (Hw.hifDo (Hw.mrqSlotsFree q.toNat))

/-- QUEUE_RESET (R459): Q_CTRL is written as it stands, with RESET. -/
def execQueueReset (p : Path) (q : BitVec 14) (s : State) : Host.Outcome State Fault Refusal :=
  s.onHw (Hw.regCmd WarmIn.good p (0x0900 + q.toNat / 64) (q.toNat % 64 * 64) (Hw.withBit (Reg.Q_CTRL q.toNat) 30 true))

/-- QUEUE_ENABLE (R469): a write of Q_CTRL with ENABLE. -/
def execQueueEnable (p : Path) (q : BitVec 14) (w : W32) (s : State) : Host.Outcome State Fault Refusal :=
  s.onHw (Hw.regSet p (0x0900 + q.toNat / 64) (q.toNat % 64 * 64) (setBit w 31 true))

/-- BIND (R444). -/
def execBind (p : Path) (c func : Byte) (part gen : Fin 16) (s : State) : Host.Outcome State Fault Refusal :=
  s.onHw (Hw.regSet p Pg.hif 0x044 (BitVec.ofNat 32 (0x10000000 + gen.val * 2 ^ 24 + part.val * 2 ^ 16 + func.toNat * 2 ^ 8 + c.toNat)))

/-- TEARDOWN (R460). -/
def execTeardown (p : Path) (c : Byte) (s : State) : Host.Outcome State Fault Refusal :=
  s.onHw (Hw.regSet p Pg.hif 0x044 (BitVec.ofNat 32 (0x20000000 + c.toNat)))

/-- FLR (R460): a PCIe function level reset of a function. -/
def execFlr (func : Byte) (s : State) : Host.Outcome State Fault Refusal := s.onHw (Hw.flr func.toNat)

/-- TEARDOWN_DRAIN_END (R460). -/
def execTeardownDrainEnd (c : Byte) (s : State) : Host.Outcome State Fault Refusal := s.onHw (Hw.tearDrain c.toNat)

/-- TEARDOWN_DONE (R460). -/
def execTeardownDone (c : Byte) (s : State) : Host.Outcome State Fault Refusal := s.onHw (Hw.tearDone c.toNat)

/-- HOT_RESET (R511). -/
def execHotReset (s : State) : Host.Outcome State Fault Refusal := s.onHw Hw.hotReset

/-- ZERO_GO (R463): HIF_ZERO_CMD is written 1. -/
def execZeroGo (p : Path) (s : State) : Host.Outcome State Fault Refusal := s.onHw (Hw.regSet p Pg.hif 0x05C 1#32)

/-- ZERO_DONE (R463). -/
def execZeroDone (s : State) : Host.Outcome State Fault Refusal := s.onHw Hw.zeroDone

/-- CREATE (R464) of lending region j. -/
def execCreate (p : Path) (j : Fin 8) (s : State) : Host.Outcome State Fault Refusal := s.onHw (Hw.regSet p Pg.hif (0x708 + 16 * j.val) 1#32)

/-- LEND_ACTIVATE (R464). -/
def execLendActivate (j : Fin 8) (s : State) : Host.Outcome State Fault Refusal := s.onHw (Hw.lendActivate j.val)

/-- HDM_COMMIT (R464): decoder j with its interleave ways, base DPA and size. -/
def execHdmCommit (j : Fin 8) (ways dpa size : Nat) (s : State) : Host.Outcome State Fault Refusal := s.onHw (Hw.hdmCommit j.val ways dpa size)

/-- RELEASE (R464) of lending region j, zeroed or not. -/
def execRelease (p : Path) (j : Fin 8) (zero : Bool) (s : State) : Host.Outcome State Fault Refusal :=
  s.onHw (Hw.regSet p Pg.hif (0x708 + 16 * j.val) (BitVec.ofNat 32 (2 + 16 * zero.toNat)))

/-- LEND_FREE (R464). -/
def execLendFree (j : Fin 8) (s : State) : Host.Outcome State Fault Refusal := s.onHw (Hw.lendFree j.val)

/-- HDM_DECODER_UNCOMMIT (R464). -/
def execHdmDecoderUncommit (j : Fin 8) (s : State) : Host.Outcome State Fault Refusal := s.onHw (Hw.hdmUncommit j.val)

/-- CXL_MEM_READ (R465) of 64 B at a DPA. -/
def execCxlMemRead (dpa : Nat) (s : State) : Host.Outcome State Fault Refusal := s.onHw (Hw.cxlRead dpa)

/-- CXL_MEM_WRITE (R465). -/
def execCxlMemWrite (dpa : Nat) (bytes : List Byte) (s : State) : Host.Outcome State Fault Refusal := s.onHw (Hw.cxlWrite dpa bytes)

/-- HOST_LINK_TRAINED (R23). -/
def execHostLinkTrained (speed : Fin 7) (width : Fin 17) (flit cxl : Bool) (s : State) : Host.Outcome State Fault Refusal :=
  s.onHw (Hw.hostLink speed.val width.val flit cxl)

/-- CTX_SCR_WRITE (R445): a write of CTX_SCR of context c. -/
def execCtxScrWrite (p : Path) (c : Byte) (w : W32) (s : State) : Host.Outcome State Fault Refusal := s.onHw (Hw.regSet p (Pg.ctx c.toNat) 0x048 w)

/-- PCIE_UE (R467). -/
def execPcieUe (s : State) : Host.Outcome State Fault Refusal := s.onHw (Hw.onPg fun p => (p.detect Pg.hif 0 0 none true).2)

end Sys2Proof.Machine
end

