-- ==== Sys2Proof/Machine/ExecLink.lean ====
section
/-! DEFINITION. What the events of the optical ports and links, and the writes of their registers, do (R338 to R371). -/

namespace Sys2Proof.Machine

/-- The optical engine and the link of a port do their work (R81). -/
def Pages.portWorks (p : Pages) (k : Nat) : Bool := p.works (Pg.ope k) && p.works (Pg.link k)

/-- An event of a link that yields no packet, while the port's pages let it work. -/
def Hw.linkDo (k : Nat) (f : LV → LV) (h : Hw) : Hw := if h.pg.portWorks k then h.onLink0 k f else h

/-- A flit that a link takes and that yields no packet: none of the partner's arrives under loopback (R368). -/
def Hw.linkIn (k : Nat) (f : Nat → LV → LV) (h : Hw) : Hw := if h.pg.looped k then h else h.linkDo k (f h.pod.cfgEp)

/-- A flit that a link takes, and the packets that it completes; the cores go on with what they wait for. -/
def Hw.linkRx (k : Nat) (f : LV → List Packet × LV) (h : Hw) : Hw := if h.pg.portWorks k && !h.pg.looped k then h.onLink k f else h

/-- LASER_LOST (R343): it acts while LASER_EN is high, whether or not the port's pages are fenced. -/
def execLaserLost (port : Fin 10) (s : State) : Host.Outcome State Fault Refusal := s.onHw (Hw.onLink0 port.val (LV.laserLost port.val))

/-- TRAINING_START (R358). -/
def execTrainingStart (port : Fin 10) (s : State) : Host.Outcome State Fault Refusal := s.onHw (Hw.linkDo port.val (LV.trainStart port.val))

/-- LASER_CHECK_PASS (R344), with the monitor codes of lanes 0 to 7 and of lanes 8 to 15, the lowest lane's in the lowest byte. -/
def execLaserCheckPass (port : Fin 10) (low high : W64) (s : State) : Host.Outcome State Fault Refusal :=
  s.onHw (Hw.linkDo port.val (LV.laserPass port.val (bytesLE 8 low.toNat ++ bytesLE 8 high.toNat)))

/-- LOCK_DONE (R358). -/
def execLockDone (port : Fin 10) (locked : W16) (s : State) : Host.Outcome State Fault Refusal :=
  s.onHw (Hw.linkDo port.val (LV.lockDone port.val locked))

/-- EQ_DONE (R358). -/
def execEqDone (port : Fin 10) (passed : W16) (s : State) : Host.Outcome State Fault Refusal :=
  s.onHw (Hw.linkDo port.val (LV.eqDone port.val passed))

/-- FEC_ALIGN_DONE (R358). -/
def execFecAlignDone (port : Fin 10) (s : State) : Host.Outcome State Fault Refusal :=
  s.onHw fun h => h.linkDo port.val (LV.alignDone port.val h.pod.cfgEp)

/-- ID (R359): the partner's ID flit, and this device's FBC as it arrives. -/
def execId (port : Fin 10) (f : IdRx) (now : W64) (s : State) : Host.Outcome State Fault Refusal :=
  s.onHw (Hw.linkIn port.val fun ep => LV.rxId port.val ep f.rx f.id now)

/-- ID_RESEND (R359). -/
def execIdResend (port : Fin 10) (s : State) : Host.Outcome State Fault Refusal :=
  s.onHw fun h => h.linkDo port.val (LV.idResend port.val h.pod.cfgEp)

/-- ID_EXCHANGE_DONE (R360), with the training time in µs. -/
def execIdExchangeDone (port : Fin 10) (us : W16) (s : State) : Host.Outcome State Fault Refusal :=
  s.onHw (Hw.linkDo port.val (LV.idDone port.val us.toNat))

/-- TRAIN_STATE_TIMEOUT (R358). -/
def execTrainStateTimeout (port : Fin 10) (s : State) : Host.Outcome State Fault Refusal := s.onHw (Hw.linkDo port.val (LV.trainTimeout port.val))

/-- TRAIN_RETRY (R358). -/
def execTrainRetry (port : Fin 10) (s : State) : Host.Outcome State Fault Refusal := s.onHw (Hw.linkDo port.val (LV.trainRetry port.val))

/-- DATA (R351): a sequenced flit with packet bytes. -/
def execData (port : Fin 10) (rx : FlitRx) (f : Flit) (s : State) : Host.Outcome State Fault Refusal :=
  s.onHw (Hw.linkRx port.val (LV.rxSeqd port.val rx { f with ctl := none }))

/-- IDLE (R350). -/
def execIdle (port : Fin 10) (rx : FlitRx) (s : State) : Host.Outcome State Fault Refusal :=
  s.onHw (Hw.linkIn port.val fun _ => LV.rxIdle port.val rx)

/-- ACK_TIMEOUT (R354). -/
def execAckTimeout (port : Fin 10) (s : State) : Host.Outcome State Fault Refusal := s.onHw (Hw.linkDo port.val (LV.ackTimeout port.val))

/-- A link-control flit of a subtype with its good mask (R350). -/
def ctlFlit (seq : BitVec 12) (sub : Nat) (good : W16) : Flit := ⟨seq.toNat, some sub, 0, false, false, bytesLE 2 good.toNat⟩

/-- WIDTH_REQ (R364). -/
def execWidthReq (port : Fin 10) (rx : FlitRx) (seq : BitVec 12) (good : W16) (s : State) : Host.Outcome State Fault Refusal :=
  s.onHw (Hw.linkRx port.val (LV.rxSeqd port.val rx (ctlFlit seq 2 good)))

/-- RETRAIN_REQ (R366). -/
def execRetrainReq (port : Fin 10) (rx : FlitRx) (seq : BitVec 12) (s : State) : Host.Outcome State Fault Refusal :=
  s.onHw (Hw.linkRx port.val (LV.rxSeqd port.val rx (ctlFlit seq 3 0)))

/-- ACCEPT (R364). -/
def execAccept (port : Fin 10) (rx : FlitRx) (seq : BitVec 12) (good : W16) (s : State) : Host.Outcome State Fault Refusal :=
  s.onHw (Hw.linkRx port.val (LV.rxSeqd port.val rx (ctlFlit seq 4 good)))

/-- SWITCH (R364). -/
def execSwitch (port : Fin 10) (rx : FlitRx) (seq : BitVec 12) (s : State) : Host.Outcome State Fault Refusal :=
  s.onHw (Hw.linkRx port.val (LV.rxSeqd port.val rx (ctlFlit seq 5 0)))

/-- WIDTH_CHANGE_TIMEOUT (R364). -/
def execWidthChangeTimeout (port : Fin 10) (s : State) : Host.Outcome State Fault Refusal := s.onHw (Hw.linkDo port.val (LV.widthTimeout port.val))

/-- LANE_BER_WINDOW (R363): receiver power, corrected bits, codewords, corrected symbols and uncorrectable codewords of the window. -/
def execLaneBerWindow (port : Fin 10) (lane : LaneRead) (bits codewords symbols bad : Nat) (s : State) : Host.Outcome State Fault Refusal :=
  s.onHw (Hw.linkDo port.val (LV.berWindow port.val lane.lane.val lane.rxPwr bits codewords symbols bad))

/-- LANE_LOCK_LOST (R363). -/
def execLaneLockLost (port : Fin 10) (lane : Fin 16) (s : State) : Host.Outcome State Fault Refusal :=
  s.onHw (Hw.linkDo port.val (LV.lockLost port.val lane.val))

/-- TUNE_LOST (R369). -/
def execTuneLost (port : Fin 10) (lane : Fin 16) (s : State) : Host.Outcome State Fault Refusal :=
  s.onHw (Hw.linkDo port.val (LV.tuneLost port.val lane.val))

/-- UCW_PERSIST (R365). -/
def execUcwPersist (port : Fin 10) (intervals : Nat) (s : State) : Host.Outcome State Fault Refusal :=
  s.onHw (Hw.linkDo port.val (LV.ucwPersist port.val intervals))

/-- RETRAIN (R371): LINK_CTRL is written as it stands, with RETRAIN. -/
def execRetrain (p : Path) (port : Fin 10) (s : State) : Host.Outcome State Fault Refusal :=
  s.onHw (Hw.regCmd WarmIn.good p (Pg.link port.val) 0x040 (Hw.withBit (Reg.LINK_CTRL port.val) 31 true))

/-- HOLD_OFF (R358): LINK_CTRL is written as it stands, with HOLD_OFF on or off. -/
def execHoldOff (p : Path) (port : Fin 10) (on : Bool) (s : State) : Host.Outcome State Fault Refusal :=
  s.onHw (Hw.regCmd WarmIn.good p (Pg.link port.val) 0x040 (Hw.withBit (Reg.LINK_CTRL port.val) 30 on))

/-- MAX_WIDTH_WRITE (R346): OPE_CTRL is written as it stands, with the width's code. -/
def execMaxWidthWrite (p : Path) (port : Fin 10) (code : Fin 4) (s : State) : Host.Outcome State Fault Refusal :=
  s.onHw (Hw.regCmd WarmIn.good p (Pg.ope port.val) 0x040 fun h => setFld (h.pg.rd (Reg.OPE_CTRL port.val)) 17 16 code.val)

/-- LINK_EXP_EPOCH_WRITE (R360). -/
def execLinkExpEpochWrite (p : Path) (port : Fin 10) (ep : Byte) (s : State) : Host.Outcome State Fault Refusal :=
  s.onHw (Hw.regSet p (Pg.link port.val) 0x058 (ep.setWidth 32))

end Sys2Proof.Machine
end

