-- ==== Sys2Proof/Machine/ExecMem.lean ====
section
/-! DEFINITION. What the commands of the memory tiers, the write-combining buffers and translation do (R283 to R317). -/

namespace Sys2Proof.Machine

/-- SCRUB (R290): near-tier stacks 0 to 7, then far-tier controllers 0 to 7, while the page lets the scrubber work; with the on-die
corrections that the stack has reported since (R287), and the lines that do not decode where the check line fails its CRC (R300). -/
def execScrub (unit : ScrubRun) (s : State) : Host.Outcome State Fault Refusal :=
  s.onHw fun h => if h.pg.works (if unit.unit.val < 8 then Pg.ntc unit.unit.val else Pg.ftc (unit.unit.val - 8)) then
    h.onDev (Dev.scrub unit.unit.val unit.odecc.toNat unit.chk) else h

/-- WCB_ENTRY_TIMEOUT (R295): the oldest entry of a stack. -/
def execWcbEntryTimeout (stack : Fin 8) (s : State) : Host.Outcome State Fault Refusal :=
  s.onHw fun h => if h.pg.works Pg.wcb then h.onDev (Dev.wcbTimeout stack.val) else h

/-- WCB_FLUSH (R317): a mask of stacks. -/
def execWcbFlush (p : Path) (which : Byte) (s : State) : Host.Outcome State Fault Refusal := s.onHw (Hw.regSet p Pg.wcb 0x044 (which.setWidth 32))

/-- XL_INVAL with KIND ALL (R307). -/
def execXlInvalAll (p : Path) (s : State) : Host.Outcome State Fault Refusal := s.onHw (Hw.regSet p Pg.memxl 0x048 0#32)

/-- XL_INVAL with KIND CTX (R307). -/
def execXlInvalCtx (p : Path) (c : Byte) (s : State) : Host.Outcome State Fault Refusal :=
  s.onHw (Hw.regSet p Pg.memxl 0x048 (BitVec.ofNat 32 (0x40000000 + c.toNat)))

/-- XL_INVAL with KIND RANGE (R307): the range that XL_INVAL_VA and XL_INVAL_PAGES hold. -/
def execXlInvalRange (p : Path) (c : Byte) (s : State) : Host.Outcome State Fault Refusal :=
  s.onHw (Hw.regSet p Pg.memxl 0x048 (BitVec.ofNat 32 (0x80000000 + c.toNat)))

/-- XL_INVAL_DONE (R307). -/
def execXlInvalDone (s : State) : Host.Outcome State Fault Refusal := s.onHw Hw.xlInvalDone

/-- XL_WIN_CMD with READ (R314). -/
def execXlWinRead (p : Path) (s : State) : Host.Outcome State Fault Refusal := s.onHw (Hw.regSet p Pg.memxl 0x070 1#32)

/-- XL_WIN_CMD with WRITE (R314). -/
def execXlWinWrite (p : Path) (s : State) : Host.Outcome State Fault Refusal := s.onHw (Hw.regSet p Pg.memxl 0x070 2#32)

/-- WINDOW_ACCESS_DONE (R314). -/
def execWindowAccessDone (s : State) : Host.Outcome State Fault Refusal := s.onHw (Hw.onDev Dev.winDone)

end Sys2Proof.Machine
end

