-- ==== Sys2Proof/Machine/ExecMove.lean ====
section
/-! DEFINITION. What data movement, fabric, collective and update instructions do, and how they end (R265 to R275, R279, R318 to R337, R404 to R425). -/

namespace Sys2Proof.Machine

/-- DCOPY (R267). -/
def execDcopy (l : Fin 96) (o : DcopyOp) (s : State) : Host.Outcome State Fault Refusal := s.onInsn l.val (.dcopy o)

/-- DGATHER (R268). -/
def execDgather (l : Fin 96) (o : DlistOp) (s : State) : Host.Outcome State Fault Refusal := s.onInsn l.val (.dgather o)

/-- DSCATTER (R269). -/
def execDscatter (l : Fin 96) (o : DlistOp) (s : State) : Host.Outcome State Fault Refusal := s.onInsn l.val (.dscatter o)

/-- DSTASH (R270). -/
def execDstash (l : Fin 96) (o : DstashOp) (s : State) : Host.Outcome State Fault Refusal := s.onInsn l.val (.dstash o)

/-- DUNSTASH (R270). -/
def execDunstash (l : Fin 96) (o : DstashOp) (s : State) : Host.Outcome State Fault Refusal := s.onInsn l.val (.dunstash o)

/-- XPUT (R272). -/
def execXput (l : Fin 96) (o : XputOp) (s : State) : Host.Outcome State Fault Refusal := s.onInsn l.val (.xput o)

/-- XGET (R272). -/
def execXget (l : Fin 96) (o : XgetOp) (s : State) : Host.Outcome State Fault Refusal := s.onInsn l.val (.xget o)

/-- XATOM (R273). -/
def execXatom (l : Fin 96) (o : XatomOp) (s : State) : Host.Outcome State Fault Refusal := s.onInsn l.val (.xatom o)

/-- XMSG (R215). -/
def execXmsg (l : Fin 96) (o : XmsgOp) (s : State) : Host.Outcome State Fault Refusal := s.onInsn l.val (.xmsg o)

/-- CALLR (R410). -/
def execCallr (l : Fin 96) (o : CollOp) (s : State) : Host.Outcome State Fault Refusal := s.onInsn l.val (.callr o)

/-- CRSCAT (R410). -/
def execCrscat (l : Fin 96) (o : CollOp) (s : State) : Host.Outcome State Fault Refusal := s.onInsn l.val (.crscat o)

/-- CAGATH (R410). -/
def execCagath (l : Fin 96) (o : CollOp) (s : State) : Host.Outcome State Fault Refusal := s.onInsn l.val (.cagath o)

/-- CBCAST (R414). -/
def execCbcast (l : Fin 96) (o : CollOp) (s : State) : Host.Outcome State Fault Refusal := s.onInsn l.val (.cbcast o)

/-- CA2A (R416). -/
def execCa2a (l : Fin 96) (o : CollOp) (s : State) : Host.Outcome State Fault Refusal := s.onInsn l.val (.ca2a o)

/-- CA2AV (R417). -/
def execCa2av (l : Fin 96) (o : CollOp) (s : State) : Host.Outcome State Fault Refusal := s.onInsn l.val (.ca2av o)

/-- CPERM (R418). -/
def execCperm (l : Fin 96) (o : CollOp) (s : State) : Host.Outcome State Fault Refusal := s.onInsn l.val (.cperm o)

/-- COLLECTIVE_COMPLETE (R424): the i-th active collective. -/
def execCollectiveComplete (i : Nat) (s : State) : Host.Outcome State Fault Refusal := s.onHw fun h => (h.collComplete i).pumpAll

/-- URECIPE (R326). -/
def execUrecipe (l : Fin 96) (o : UrecipeOp) (s : State) : Host.Outcome State Fault Refusal := s.onInsn l.val (.urecipe o)

/-- UAPPLY (R329). -/
def execUapply (l : Fin 96) (o : UapplyOp) (s : State) : Host.Outcome State Fault Refusal := s.onInsn l.val (.uapply o)

/-- SUU_REQUEST_START (R320): unit u of stack u / 4, while its page lets it work. -/
def execSuuRequestStart (u : Fin 32) (s : State) : Host.Outcome State Fault Refusal :=
  s.onHw fun h => if h.pg.works (Pg.suu (u.val / 4)) then (h.suuStart u.val).pumpAll else h

/-- UAPPLY_COMPLETE (R330). -/
def execUapplyComplete (s : State) : Host.Outcome State Fault Refusal := s.onHw fun h => h.suuComplete.pumpAll

/-- SUU_SLOT_PART_WRITE (R337): a write of SUU_SLOT_PART in the SUU page of a stack. -/
def execSuuSlotPartWrite (p : Path) (stack : Fin 8) (w : W32) (s : State) : Host.Outcome State Fault Refusal :=
  s.onHw (Hw.regSet p (Pg.suu stack.val) 0x048 w)

/-- DMA_FINISHED (R279): the data movement or URECIPE with that index in the block. -/
def execDmaFinished (l : Fin 96) (index : Nat) (s : State) : Host.Outcome State Fault Refusal := s.onHw (Hw.dmaDone l.val index)

end Sys2Proof.Machine
end

