-- ==== Sys2Proof/Machine/ExecNet.lean ====
section
/-! DEFINITION. What arriving packets, grants and the writes of the router's and the group registers do (R372 to R403). -/

namespace Sys2Proof.Machine

/-- PACKET_GRANT (R387): an output port grants one packet while the router and the port do their work. -/
def execPacketGrant (port : Fin 10) (s : State) : Host.Outcome State Fault Refusal :=
  s.onHw fun h => if h.pg.works Pg.rtr && h.pg.portWorks port.val then h.grant port.val else h

/-- PUT (R379). -/
def execPut (src : PktSrc) (s : State) : Host.Outcome State Fault Refusal := s.onHw fun h => (h.landPacket 0x01 src).pumpAll

/-- PUT_SCR (R379). -/
def execPutScr (src : PktSrc) (s : State) : Host.Outcome State Fault Refusal := s.onHw fun h => (h.landPacket 0x02 src).pumpAll

/-- GET_REQ (R272). -/
def execGetReq (src : PktSrc) (s : State) : Host.Outcome State Fault Refusal := s.onHw fun h => h.getReq src

/-- GET_RSP (R379). -/
def execGetRsp (src : PktSrc) (s : State) : Host.Outcome State Fault Refusal := s.onHw fun h => (h.landPacket 0x04 src).pumpAll

/-- GET_RSP_SCR (R379). -/
def execGetRspScr (src : PktSrc) (s : State) : Host.Outcome State Fault Refusal := s.onHw fun h => (h.landPacket 0x05 src).pumpAll

/-- ATOM (R273). -/
def execAtom (src : PktSrc) (s : State) : Host.Outcome State Fault Refusal := s.onHw fun h => h.atom src

/-- ATOM_ACK (R273). -/
def execAtomAck (src : PktSrc) (s : State) : Host.Outcome State Fault Refusal := s.onHw fun h => (h.atomAcked src).pumpAll

/-- MSG (R215). -/
def execMsg (src : PktSrc) (s : State) : Host.Outcome State Fault Refusal := s.onHw fun h => h.msg src

/-- HOST_MSG (R457): whole tells whether every byte has reached host memory before another command runs. -/
def execHostMsg (src : PktSrc) (whole : Bool) (s : State) : Host.Outcome State Fault Refusal := s.onHw (Hw.hostMsg src whole)

/-- COLL_DATA (R408). -/
def execCollData (src : PktSrc) (s : State) : Host.Outcome State Fault Refusal := s.onHw fun h => (h.collData src).pumpAll

/-- COLL_CNT (R417). -/
def execCollCnt (src : PktSrc) (s : State) : Host.Outcome State Fault Refusal := s.onHw fun h => (h.collCnt src).pumpAll

/-- MG_WR (R375). -/
def execMgWr (src : PktSrc) (s : State) : Host.Outcome State Fault Refusal := s.onHw fun h => h.mgWr src

/-- MG_RD (R375). -/
def execMgRd (src : PktSrc) (s : State) : Host.Outcome State Fault Refusal := s.onHw fun h => h.mgRd src

/-- MG_RSP (R375). -/
def execMgRsp (src : PktSrc) (s : State) : Host.Outcome State Fault Refusal := s.onHw fun h => h.mgRsp src

/-- HIST_SAMPLE (R395). -/
def execHistSample (s : State) : Host.Outcome State Fault Refusal := s.onHw fun h => if h.pg.works Pg.rtr then h.histSample else h

/-- RTR_BANK_ARM (R391). -/
def execRtrBankArm (p : Path) (bank : Bool) (s : State) : Host.Outcome State Fault Refusal :=
  s.onHw (Hw.regSet p Pg.rtr 0x044 (BitVec.ofNat 32 (2 ^ 31 + bank.toNat)))

/-- RTR_BANK_DISARM (R391). -/
def execRtrBankDisarm (p : Path) (bank : Bool) (s : State) : Host.Outcome State Fault Refusal :=
  s.onHw (Hw.regSet p Pg.rtr 0x044 (BitVec.ofNat 32 bank.toNat))

/-- RTR_DRAIN_ARM (R392). -/
def execRtrDrainArm (p : Path) (w : W32) (s : State) : Host.Outcome State Fault Refusal := s.onHw (Hw.regSet p Pg.rtr 0x050 w)

/-- RTR_FEP_ARM (R394). -/
def execRtrFepArm (p : Path) (ep : Byte) (s : State) : Host.Outcome State Fault Refusal :=
  s.onHw (Hw.regSet p Pg.rtr 0x060 (BitVec.ofNat 32 (2 ^ 31 + ep.toNat)))

/-- RTR_FEP_DISARM (R394). -/
def execRtrFepDisarm (p : Path) (ep : Byte) (s : State) : Host.Outcome State Fault Refusal := s.onHw (Hw.regSet p Pg.rtr 0x060 (ep.setWidth 32))

/-- GRP_SLOT_WRITE (R400): a word of a slot, in the STG page of an axis. -/
def execGrpSlotWrite (p : Path) (stage : Fin 4) (slot : Fin 64) (word : Fin 4) (w : W32) (s : State) : Host.Outcome State Fault Refusal :=
  s.onHw (Hw.regSet p (Pg.stg stage.val) (0x400 + 16 * slot.val + 4 * word.val) w)

end Sys2Proof.Machine
end

