-- ==== Sys2Proof/Machine/ExecPod.lean ====
section
/-! DEFINITION. What the messages of the pod do (R562 to R572). -/

namespace Sys2Proof.Machine

/-- RAS (R562). -/
def execRas (src : PktSrc) (s : State) : Host.Outcome State Fault Refusal := s.onHw (Hw.rasRx src)

/-- TELE (R562). -/
def execTele (src : PktSrc) (s : State) : Host.Outcome State Fault Refusal := s.onHw (Hw.teleRx src)

/-- HEARTBEAT (R568). -/
def execHeartbeat (src : PktSrc) (s : State) : Host.Outcome State Fault Refusal := s.onHw (Hw.heartbeatRx src)

/-- LOG (R569). -/
def execLog (src : PktSrc) (s : State) : Host.Outcome State Fault Refusal := s.onHw (Hw.logRx src)

/-- COMMIT (R569). -/
def execCommitGen (src : PktSrc) (s : State) : Host.Outcome State Fault Refusal := s.onHw (Hw.commitRx src)

/-- CONFIG (R563). -/
def execConfig (src : PktSrc) (s : State) : Host.Outcome State Fault Refusal := s.onHw (Hw.configRx src)

/-- CONFIG_ACK (R563). -/
def execConfigAck (src : PktSrc) (s : State) : Host.Outcome State Fault Refusal := s.onHw (Hw.configAck src)

/-- CONGEST (R567). -/
def execCongest (src : PktSrc) (s : State) : Host.Outcome State Fault Refusal := s.onHw (Hw.congestRx src)

/-- COLLECT (R571). -/
def execCollect (src : PktSrc) (s : State) : Host.Outcome State Fault Refusal := s.onHw (Hw.collectRx src)

/-- COLLECT_RSP (R571). -/
def execCollectRsp (src : PktSrc) (s : State) : Host.Outcome State Fault Refusal := s.onHw (Hw.collectRsp src)

/-- CONGEST_PERIOD (R567). -/
def execCongestPeriod (s : State) : Host.Outcome State Fault Refusal := s.onHw Hw.congestPeriod

/-- TAKEOVER (R570). -/
def execTakeover (s : State) : Host.Outcome State Fault Refusal := s.onHw Hw.takeover

end Sys2Proof.Machine
end

