-- ==== Sys2Proof/Machine/ExecRegs.lean ====
section
/-! DEFINITION. What accesses of register space and the fields of the common page header do (R72 to R101, R163). -/

namespace Sys2Proof.Machine

/-- REGISTER_WRITE (R87): a write of any width; full tells that every byte enable is set. -/
def execRegisterWrite (p : Path) (off : BitVec 26) (full : Bool) (bytes : List Byte) (s : State) : Host.Outcome State Fault Refusal :=
  s.onHw (Hw.writeBytes WarmIn.good p off.toNat full bytes)

/-- HOLE_ACCESS (R74): a 32-bit read or write of a hole page; an address that is no hole is none. -/
def execHoleAccess (p : Path) (off : BitVec 26) (write : Bool) (s : State) : Host.Outcome State Fault Refusal :=
  s.onHw fun h =>
    let a := off.toNat / 4 * 4
    if h.pg.target p a ≠ .hole then h else if write then h.write32 WarmIn.good p a 0 else h.readCmd p a 4

/-- RSN_SNAPSHOT_READ (R91): a read of len bytes. -/
def execRsnSnapshotRead (p : Path) (off : BitVec 26) (len : Fin 65) (s : State) : Host.Outcome State Fault Refusal :=
  s.onHw (Hw.readCmd p off.toNat len.val)

/-- COUNTER_CLEAR_WRITE (R92): a 32-bit write of either word of an event-counter pair. -/
def execCounterClearWrite (p : Path) (off : BitVec 26) (w : W32) (s : State) : Host.Outcome State Fault Refusal :=
  s.onHw fun h =>
    let a := off.toNat / 4 * 4
    match h.pg.target p a with
    | .page pg o =>
      if (regRow pg o).any fun r => decide (r.kind = .eventLo) || decide (r.kind = .eventHi) then h.write32 WarmIn.good p a w else h
    | _ => h

/-- BLOCK_RESET (R82). -/
def execBlockReset (p : Path) (page : BitVec 14) (s : State) : Host.Outcome State Fault Refusal := s.onHw (Hw.ctrlBit p page.toNat 31)

/-- BLOCK_RESET_DONE (R82): the page as the PF's space numbers it. -/
def execBlockResetDone (page : BitVec 14) (s : State) : Host.Outcome State Fault Refusal :=
  s.onHw fun h => match h.pg.targetPf (4096 * page.toNat) with | .page pg _ => h.blockResetDone pg | _ => h

/-- CLR_CNT (R81). -/
def execClrCnt (p : Path) (page : BitVec 14) (s : State) : Host.Outcome State Fault Refusal := s.onHw (Hw.ctrlBit p page.toNat 30)

/-- LOCK (R81). -/
def execLock (p : Path) (page : BitVec 14) (s : State) : Host.Outcome State Fault Refusal := s.onHw (Hw.ctrlBit p page.toNat 2)

/-- FENCE of a page (R81). -/
def execFence (p : Path) (page : BitVec 14) (s : State) : Host.Outcome State Fault Refusal := s.onHw (Hw.ctrlBit p page.toNat 1)

/-- ENABLE (R81). -/
def execEnable (p : Path) (page : BitVec 14) (on : Bool) (s : State) : Host.Outcome State Fault Refusal :=
  s.onHw (Hw.write32 WarmIn.good p (4096 * page.toNat + 8) (BitVec.ofNat 32 on.toNat))

/-- PG_INT_FORCE (R79). -/
def execPgIntForce (p : Path) (page : BitVec 14) (w : W32) (s : State) : Host.Outcome State Fault Refusal :=
  s.onHw (Hw.write32 WarmIn.good p (4096 * page.toNat + 0x18) w)

/-- The page of unit u of physical core n: 0 MXA, 1 TVU, 2 GIG. -/
def unitPage (u n : Nat) : Nat := if u = 0 then Pg.mxa n else if u = 1 then Pg.tvu n else Pg.gig n

/-- DBG_CTRL of a unit as it stands, with bits of HALT_REQ and RESUME; the TVU's word select stays (R168, R204, R224). -/
def Hw.dbgWord (u n bits : Nat) (h : Hw) : W32 :=
  if u = 1 then (h.pg.rd (dbgCtrlReg u n) &&& 0x3E000000#32) ||| BitVec.ofNat 32 bits else BitVec.ofNat 32 bits

/-- HALT_REQ (R163). -/
def execHaltReq (p : Path) (n : Fin 108) (unit : Fin 3) (s : State) : Host.Outcome State Fault Refusal :=
  s.onHw (Hw.regCmd WarmIn.good p (unitPage unit.val n.val) 0x080 (Hw.dbgWord unit.val n.val 1))

/-- DBG_RESUME (R163). -/
def execDbgResume (p : Path) (n : Fin 108) (unit : Fin 3) (s : State) : Host.Outcome State Fault Refusal :=
  s.onHw (Hw.regCmd WarmIn.good p (unitPage unit.val n.val) 0x080 (Hw.dbgWord unit.val n.val 2))

end Sys2Proof.Machine
end

