-- ==== Sys2Proof/Machine/ExecSystem.lean ====
section
/-! DEFINITION. What power, thermal events, resets, hangs, spares and shadow mode do (R497 to R559, R583). -/

namespace Sys2Proof.Machine

/-- PWR_PSTATE_WRITE (R502). -/
def execPwrPstateWrite (p : Path) (w : W32) (s : State) : Host.Outcome State Fault Refusal := s.onHw (Hw.regSet p Pg.pwr 0x040 w)

/-- PWR_CAP_WRITE (R502). -/
def execPwrCapWrite (p : Path) (w : W32) (s : State) : Host.Outcome State Fault Refusal := s.onHw (Hw.regSet p Pg.pwr 0x048 w)

/-- PWR_SUSPECT_CLEAR (R517): PWR_SUSPECT.VALID is written 1. -/
def execPwrSuspectClear (p : Path) (s : State) : Host.Outcome State Fault Refusal := s.onHw (Hw.regSet p Pg.pwr 0x070 0x80000000#32)

/-- VR_STATUS_POLL (R497): what the rails read, and the rails whose bus access failed. -/
def execVrStatusPoll (rails : List (Fin 9 × VrRead)) (busErr : List (Fin 9)) (s : State) : Host.Outcome State Fault Refusal :=
  s.onChaise fun h => if h.pg.works Pg.pwr then h.vrPoll rails busErr else h

/-- PMB_ALERT_N (R583): an immediate read of the rails. -/
def execPmbAlertN (rails : List (Fin 9 × VrRead)) (s : State) : Host.Outcome State Fault Refusal := s.onChaise fun h => if h.pg.works Pg.pwr then h.pmbAlert rails else h

/-- AVS_UPDATE (R498). -/
def execAvsUpdate (s : State) : Host.Outcome State Fault Refusal := s.onChaise fun h => if h.pg.works Pg.pwr then h.avsUpdate else h

/-- THERM_SAMPLE (R505): the junction sensors, the stacks', the ports' and the hot far-tier parts. -/
def execThermSample (sensors : List Int) (near ports : List Nat) (far : List (Fin 8)) (s : State) : Host.Outcome State Fault Refusal :=
  s.onChaise fun h => if h.pg.works Pg.therm then h.thermSample sensors near ports far else h

/-- THERM_DUTY_STEP (R506). -/
def execThermDutyStep (s : State) : Host.Outcome State Fault Refusal := s.onChaise fun h => if h.pg.works Pg.therm then h.thermStep else h

/-- THERMTRIP (R507). -/
def execThermtrip (s : State) : Host.Outcome State Fault Refusal := s.onPins Hw.thermtrip

/-- PLL_UNLOCK (R510), and what a warm reset that follows meets. -/
def execPllUnlock (pll : Fin 14) (i : WarmIn) (s : State) : Host.Outcome State Fault Refusal := s.onBlock Pg.clk (Hw.pllUnlock pll.val i)

/-- FREF_DRIFT (R509), in tenths of a part per million. -/
def execFrefDrift (tenthPpm : Int) (s : State) : Host.Outcome State Fault Refusal := s.onBlock Pg.clk (Hw.onPg (Pages.frefDrift tenthPpm))

/-- RST_CMD with domain CORE (R512). -/
def execRstCore (p : Path) (n : Fin 108) (s : State) : Host.Outcome State Fault Refusal :=
  s.onHw (Hw.regSet p Pg.rst 0x040 (BitVec.ofNat 32 (1 * 2 ^ 28 + n.val)))

/-- RST_CMD with domain BAY (R512). -/
def execRstBay (p : Path) (b : Fin 12) (s : State) : Host.Outcome State Fault Refusal :=
  s.onHw (Hw.regSet p Pg.rst 0x040 (BitVec.ofNat 32 (2 * 2 ^ 28 + b.val)))

/-- RST_CMD with domain PORT (R512). -/
def execRstPort (p : Path) (port : Fin 10) (s : State) : Host.Outcome State Fault Refusal :=
  s.onHw (Hw.regSet p Pg.rst 0x040 (BitVec.ofNat 32 (3 * 2 ^ 28 + port.val)))

/-- RST_CMD with domain ROUTER (R512). -/
def execRstRouter (p : Path) (s : State) : Host.Outcome State Fault Refusal := s.onHw (Hw.regSet p Pg.rst 0x040 (BitVec.ofNat 32 (4 * 2 ^ 28 + 0)))

/-- RST_CMD with domain WARM (R513), and what the warm boot meets. -/
def execWarm (p : Path) (i : WarmIn) (s : State) : Host.Outcome State Fault Refusal :=
  s.onHw (Hw.regCmd i p Pg.rst 0x040 fun _ => BitVec.ofNat 32 (5 * 2 ^ 28))

/-- DOMAIN_RESET_DONE (R512). -/
def execDomainResetDone (s : State) : Host.Outcome State Fault Refusal := s.onHw Hw.domainDone

/-- RST_TIMEOUT (R512), and what the warm boot meets. -/
def execRstTimeout (i : WarmIn) (s : State) : Host.Outcome State Fault Refusal := s.onHw (Hw.rstTimeout i)

/-- VAON_LOSS (R536). -/
def execVaonLoss (s : State) : Host.Outcome State Fault Refusal := s.onPins Hw.vaonLoss

/-- HANG_CONSENT (R536): HANG_CONSENT is written 1. -/
def execHangConsent (p : Path) (s : State) : Host.Outcome State Fault Refusal := s.onHw (Hw.regSet p Pg.hang 0x04C 1#32)

/-- CORE_HANG (R531). -/
def execCoreHang (n : Fin 108) (s : State) : Host.Outcome State Fault Refusal := s.onHw (Hw.coreHang n.val)

/-- QUEUE_HANG (R531). -/
def execQueueHang (q : BitVec 14) (s : State) : Host.Outcome State Fault Refusal := s.onHw (Hw.queueHang q.toNat)

/-- PORT_HANG (R531). -/
def execPortHang (port : Fin 10) (s : State) : Host.Outcome State Fault Refusal := s.onHw (Hw.portHang port.val)

/-- CMP_HANG (R531), and what a warm reset that follows meets. -/
def execCmpHang (i : WarmIn) (s : State) : Host.Outcome State Fault Refusal := s.onHw (Hw.cmpHang i)

/-- BAY_CMD FENCE (R542) of a physical slot. -/
def execBayFence (p : Path) (b : Fin 12) (slot : Fin 9) (s : State) : Host.Outcome State Fault Refusal :=
  s.onHw (Hw.regSet p (Pg.bay b.val) 0x04C (BitVec.ofNat 32 (1 * 2 ^ 28 + slot.val)))

/-- BAY_CMD SWITCH (R544). -/
def execBaySwitch (p : Path) (b : Fin 12) (s : State) : Host.Outcome State Fault Refusal :=
  s.onHw (Hw.regSet p (Pg.bay b.val) 0x04C (BitVec.ofNat 32 (2 * 2 ^ 28 + 0)))

/-- SPARE_ZERO_DONE (R544). -/
def execSpareZeroDone (b : Fin 12) (s : State) : Host.Outcome State Fault Refusal := s.onHw (Hw.spareZeroDone b.val)

/-- BAY_CMD RETEST (R546) of a physical slot. -/
def execRetest (p : Path) (b : Fin 12) (slot : Fin 9) (s : State) : Host.Outcome State Fault Refusal :=
  s.onHw (Hw.regSet p (Pg.bay b.val) 0x04C (BitVec.ofNat 32 (3 * 2 ^ 28 + slot.val)))

/-- RETEST_DONE (R546). -/
def execRetestDone (b : Fin 12) (pass : Bool) (s : State) : Host.Outcome State Fault Refusal := s.onHw (Hw.retestDone b.val pass)

/-- SHDW_CTRL_WRITE (R552). -/
def execShdwCtrlWrite (p : Path) (w : W32) (s : State) : Host.Outcome State Fault Refusal := s.onHw (Hw.regSet p (Pg.bay 0) 0x100 w)

end Sys2Proof.Machine
end

