-- ==== Sys2Proof/Machine/Dispatch.lean ====
section
/-! DEFINITION. Which meaning each command has: one arm per constructor of Instr, in the opcode table's order. -/

namespace Sys2Proof.Machine

/-- The effect of a command on everything but the queue. -/
def exec (i : Instr) (s : State) : Host.Outcome State Fault Refusal :=
  match i with
  | .beatBoundary => Sys2Proof.Machine.execBeatBoundary s
  | .capWindowEnd watts => Sys2Proof.Machine.execCapWindowEnd watts s
  | .syncMarkerRx port rx marker now => Sys2Proof.Machine.execSyncMarkerRx port rx marker now s
  | .syncEmit port => Sys2Proof.Machine.execSyncEmit port s
  | .holdover => Sys2Proof.Machine.execHoldover s
  | .holdoverLong => Sys2Proof.Machine.execHoldoverLong s
  | .beatServoCtrlWrite p w => Sys2Proof.Machine.execBeatServoCtrlWrite p w s
  | .clrMax p => Sys2Proof.Machine.execClrMax p s
  | .beatSetArm p => Sys2Proof.Machine.execBeatSetArm p s
  | .beatSetDisarm p => Sys2Proof.Machine.execBeatSetDisarm p s
  | .beatLenArm p log2 => Sys2Proof.Machine.execBeatLenArm p log2 s
  | .beatLenDisarm p log2 => Sys2Proof.Machine.execBeatLenDisarm p log2 s
  | .revote p c => Sys2Proof.Machine.execRevote p c s
  | .withdraw p c => Sys2Proof.Machine.execWithdraw p c s
  | .resume p c => Sys2Proof.Machine.execResume p c s
  | .beatCmdRefused p code c => Sys2Proof.Machine.execBeatCmdRefused p code c s
  | .vote src => Sys2Proof.Machine.execVote src s
  | .result src latency => Sys2Proof.Machine.execResult src latency s
  | .jrnlReplayStart p => Sys2Proof.Machine.execJrnlReplayStart p s
  | .jrnlTailWrite p v => Sys2Proof.Machine.execJrnlTailWrite p v s
  | .registerWrite p off full bytes => Sys2Proof.Machine.execRegisterWrite p off full bytes s
  | .holeAccess p off write => Sys2Proof.Machine.execHoleAccess p off write s
  | .rsnSnapshotRead p off len => Sys2Proof.Machine.execRsnSnapshotRead p off len s
  | .counterClearWrite p off w => Sys2Proof.Machine.execCounterClearWrite p off w s
  | .blockReset p page => Sys2Proof.Machine.execBlockReset p page s
  | .blockResetDone page => Sys2Proof.Machine.execBlockResetDone page s
  | .clrCnt p page => Sys2Proof.Machine.execClrCnt p page s
  | .lock p page => Sys2Proof.Machine.execLock p page s
  | .fence p page => Sys2Proof.Machine.execFence p page s
  | .enable p page on => Sys2Proof.Machine.execEnable p page on s
  | .pgIntForce p page w => Sys2Proof.Machine.execPgIntForce p page w s
  | .mmode l o => Sys2Proof.Machine.execMmode l o s
  | .mload l o => Sys2Proof.Machine.execMload l o s
  | .mloadComplete n => Sys2Proof.Machine.execMloadComplete n s
  | .mstream l o => Sys2Proof.Machine.execMstream l o s
  | .mdrain l o => Sys2Proof.Machine.execMdrain l o s
  | .haltReq p n unit => Sys2Proof.Machine.execHaltReq p n unit s
  | .dbgResume p n unit => Sys2Proof.Machine.execDbgResume p n unit s
  | .vop l o => Sys2Proof.Machine.execVop l o s
  | .vtens l o => Sys2Proof.Machine.execVtens l o s
  | .vtensLd l o => Sys2Proof.Machine.execVtensLd l o s
  | .vtensSt l o => Sys2Proof.Machine.execVtensSt l o s
  | .vred l o => Sys2Proof.Machine.execVred l o s
  | .vcvt l o => Sys2Proof.Machine.execVcvt l o s
  | .vrngSeed l o => Sys2Proof.Machine.execVrngSeed l o s
  | .vrngDraw l o => Sys2Proof.Machine.execVrngDraw l o s
  | .vmask l o => Sys2Proof.Machine.execVmask l o s
  | .gcall l o => Sys2Proof.Machine.execGcall l o s
  | .gcallDispatch l => Sys2Proof.Machine.execGcallDispatch l s
  | .ret l => Sys2Proof.Machine.execRet l s
  | .addSubAndOrXor l op rd ra b => Sys2Proof.Machine.execAddSubAndOrXor l op rd ra b s
  | .shlShrSra l op rd ra b => Sys2Proof.Machine.execShlShrSra l op rd ra b s
  | .sltSltu l signed rd ra b => Sys2Proof.Machine.execSltSltu l signed rd ra b s
  | .mul l rd ra b => Sys2Proof.Machine.execMul l rd ra b s
  | .divRem l op rd ra b => Sys2Proof.Machine.execDivRem l op rd ra b s
  | .lih l rd imm => Sys2Proof.Machine.execLih l rd imm s
  | .ldlStl l store rd m => Sys2Proof.Machine.execLdlStl l store rd m s
  | .ldsSts l store rd m => Sys2Proof.Machine.execLdsSts l store rd m s
  | .ldp l rd preg => Sys2Proof.Machine.execLdp l rd preg s
  | .ldcap l rd off => Sys2Proof.Machine.execLdcap l rd off s
  | .gigBranch l op ra rb imm => Sys2Proof.Machine.execGigBranch l op ra rb imm s
  | .popf l rd => Sys2Proof.Machine.execPopf l rd s
  | .waitf l => Sys2Proof.Machine.execWaitf l s
  | .waitfWake l => Sys2Proof.Machine.execWaitfWake l s
  | .mflush l => Sys2Proof.Machine.execMflush l s
  | .trap l => Sys2Proof.Machine.execTrap l s
  | .gigFifoFlush p n => Sys2Proof.Machine.execGigFifoFlush p n s
  | .loadModule q => Sys2Proof.Machine.execLoadModule q s
  | .loadModuleDone us => Sys2Proof.Machine.execLoadModuleDone us s
  | .unloadModule q => Sys2Proof.Machine.execUnloadModule q s
  | .launch q => Sys2Proof.Machine.execLaunch q s
  | .cset l d clr src => Sys2Proof.Machine.execCset l d clr src s
  | .cinc l d src => Sys2Proof.Machine.execCinc l d src s
  | .ccmp l d a r src => Sys2Proof.Machine.execCcmp l d a r src s
  | .loop l a t => Sys2Proof.Machine.execLoop l a t s
  | .br l cond t => Sys2Proof.Machine.execBr l cond t s
  | .beat l n => Sys2Proof.Machine.execBeat l n s
  | .waitarr l tag => Sys2Proof.Machine.execWaitarr l tag s
  | .fenceInsn l sc cgs => Sys2Proof.Machine.execFenceInsn l sc cgs s
  | .signal l host e v => Sys2Proof.Machine.execSignal l host e v s
  | .wait l e v => Sys2Proof.Machine.execWait l e v s
  | .dcopy l o => Sys2Proof.Machine.execDcopy l o s
  | .dgather l o => Sys2Proof.Machine.execDgather l o s
  | .dscatter l o => Sys2Proof.Machine.execDscatter l o s
  | .dstash l o => Sys2Proof.Machine.execDstash l o s
  | .dunstash l o => Sys2Proof.Machine.execDunstash l o s
  | .xput l o => Sys2Proof.Machine.execXput l o s
  | .xget l o => Sys2Proof.Machine.execXget l o s
  | .xatom l o => Sys2Proof.Machine.execXatom l o s
  | .xmsg l o => Sys2Proof.Machine.execXmsg l o s
  | .callr l o => Sys2Proof.Machine.execCallr l o s
  | .crscat l o => Sys2Proof.Machine.execCrscat l o s
  | .cagath l o => Sys2Proof.Machine.execCagath l o s
  | .cbcast l o => Sys2Proof.Machine.execCbcast l o s
  | .ca2a l o => Sys2Proof.Machine.execCa2a l o s
  | .ca2av l o => Sys2Proof.Machine.execCa2av l o s
  | .cperm l o => Sys2Proof.Machine.execCperm l o s
  | .collectiveComplete i0 => Sys2Proof.Machine.execCollectiveComplete i0 s
  | .urecipe l o => Sys2Proof.Machine.execUrecipe l o s
  | .uapply l o => Sys2Proof.Machine.execUapply l o s
  | .suuRequestStart u => Sys2Proof.Machine.execSuuRequestStart u s
  | .uapplyComplete => Sys2Proof.Machine.execUapplyComplete s
  | .suuSlotPartWrite p stack w => Sys2Proof.Machine.execSuuSlotPartWrite p stack w s
  | .scrub unit => Sys2Proof.Machine.execScrub unit s
  | .wcbEntryTimeout stack => Sys2Proof.Machine.execWcbEntryTimeout stack s
  | .wcbFlush p which => Sys2Proof.Machine.execWcbFlush p which s
  | .xlInvalAll p => Sys2Proof.Machine.execXlInvalAll p s
  | .xlInvalCtx p c => Sys2Proof.Machine.execXlInvalCtx p c s
  | .xlInvalRange p c => Sys2Proof.Machine.execXlInvalRange p c s
  | .xlInvalDone => Sys2Proof.Machine.execXlInvalDone s
  | .xlWinRead p => Sys2Proof.Machine.execXlWinRead p s
  | .xlWinWrite p => Sys2Proof.Machine.execXlWinWrite p s
  | .laserLost port => Sys2Proof.Machine.execLaserLost port s
  | .trainingStart port => Sys2Proof.Machine.execTrainingStart port s
  | .laserCheckPass port low high => Sys2Proof.Machine.execLaserCheckPass port low high s
  | .lockDone port locked => Sys2Proof.Machine.execLockDone port locked s
  | .eqDone port passed => Sys2Proof.Machine.execEqDone port passed s
  | .fecAlignDone port => Sys2Proof.Machine.execFecAlignDone port s
  | .id port f now => Sys2Proof.Machine.execId port f now s
  | .idResend port => Sys2Proof.Machine.execIdResend port s
  | .idExchangeDone port us => Sys2Proof.Machine.execIdExchangeDone port us s
  | .trainStateTimeout port => Sys2Proof.Machine.execTrainStateTimeout port s
  | .trainRetry port => Sys2Proof.Machine.execTrainRetry port s
  | .data port rx f => Sys2Proof.Machine.execData port rx f s
  | .idle port rx => Sys2Proof.Machine.execIdle port rx s
  | .ackTimeout port => Sys2Proof.Machine.execAckTimeout port s
  | .widthReq port rx seq good => Sys2Proof.Machine.execWidthReq port rx seq good s
  | .retrainReq port rx seq => Sys2Proof.Machine.execRetrainReq port rx seq s
  | .accept port rx seq good => Sys2Proof.Machine.execAccept port rx seq good s
  | .switch port rx seq => Sys2Proof.Machine.execSwitch port rx seq s
  | .widthChangeTimeout port => Sys2Proof.Machine.execWidthChangeTimeout port s
  | .laneBerWindow port lane bits codewords symbols bad => Sys2Proof.Machine.execLaneBerWindow port lane bits codewords symbols bad s
  | .laneLockLost port lane => Sys2Proof.Machine.execLaneLockLost port lane s
  | .tuneLost port lane => Sys2Proof.Machine.execTuneLost port lane s
  | .ucwPersist port intervals => Sys2Proof.Machine.execUcwPersist port intervals s
  | .retrain p port => Sys2Proof.Machine.execRetrain p port s
  | .holdOff p port on => Sys2Proof.Machine.execHoldOff p port on s
  | .maxWidthWrite p port code => Sys2Proof.Machine.execMaxWidthWrite p port code s
  | .packetGrant port => Sys2Proof.Machine.execPacketGrant port s
  | .put src => Sys2Proof.Machine.execPut src s
  | .putScr src => Sys2Proof.Machine.execPutScr src s
  | .getReq src => Sys2Proof.Machine.execGetReq src s
  | .getRsp src => Sys2Proof.Machine.execGetRsp src s
  | .getRspScr src => Sys2Proof.Machine.execGetRspScr src s
  | .atom src => Sys2Proof.Machine.execAtom src s
  | .atomAck src => Sys2Proof.Machine.execAtomAck src s
  | .msg src => Sys2Proof.Machine.execMsg src s
  | .hostMsg src whole => Sys2Proof.Machine.execHostMsg src whole s
  | .collData src => Sys2Proof.Machine.execCollData src s
  | .collCnt src => Sys2Proof.Machine.execCollCnt src s
  | .mgWr src => Sys2Proof.Machine.execMgWr src s
  | .mgRd src => Sys2Proof.Machine.execMgRd src s
  | .mgRsp src => Sys2Proof.Machine.execMgRsp src s
  | .histSample => Sys2Proof.Machine.execHistSample s
  | .rtrBankArm p bank => Sys2Proof.Machine.execRtrBankArm p bank s
  | .rtrBankDisarm p bank => Sys2Proof.Machine.execRtrBankDisarm p bank s
  | .rtrDrainArm p w => Sys2Proof.Machine.execRtrDrainArm p w s
  | .rtrFepArm p ep => Sys2Proof.Machine.execRtrFepArm p ep s
  | .rtrFepDisarm p ep => Sys2Proof.Machine.execRtrFepDisarm p ep s
  | .grpSlotWrite p stage slot word w => Sys2Proof.Machine.execGrpSlotWrite p stage slot word w s
  | .doorbell p q w => Sys2Proof.Machine.execDoorbell p q w s
  | .doorbellVisible q => Sys2Proof.Machine.execDoorbellVisible q s
  | .abort q => Sys2Proof.Machine.execAbort q s
  | .hcopy q ans => Sys2Proof.Machine.execHcopy q ans s
  | .send q ans => Sys2Proof.Machine.execSend q ans s
  | .nop q => Sys2Proof.Machine.execNop q s
  | .completionPost q => Sys2Proof.Machine.execCompletionPost q s
  | .mrqStageTimeout q => Sys2Proof.Machine.execMrqStageTimeout q s
  | .mrqSlotsFree q => Sys2Proof.Machine.execMrqSlotsFree q s
  | .queueReset p q => Sys2Proof.Machine.execQueueReset p q s
  | .queueEnable p q w => Sys2Proof.Machine.execQueueEnable p q w s
  | .bind p c func part gen => Sys2Proof.Machine.execBind p c func part gen s
  | .teardown p c => Sys2Proof.Machine.execTeardown p c s
  | .flr func => Sys2Proof.Machine.execFlr func s
  | .teardownDrainEnd c => Sys2Proof.Machine.execTeardownDrainEnd c s
  | .teardownDone c => Sys2Proof.Machine.execTeardownDone c s
  | .hotReset => Sys2Proof.Machine.execHotReset s
  | .zeroGo p => Sys2Proof.Machine.execZeroGo p s
  | .zeroDone => Sys2Proof.Machine.execZeroDone s
  | .create p j => Sys2Proof.Machine.execCreate p j s
  | .lendActivate j => Sys2Proof.Machine.execLendActivate j s
  | .hdmCommit j ways dpa size => Sys2Proof.Machine.execHdmCommit j ways dpa size s
  | .release p j zero => Sys2Proof.Machine.execRelease p j zero s
  | .lendFree j => Sys2Proof.Machine.execLendFree j s
  | .cxlMemRead dpa => Sys2Proof.Machine.execCxlMemRead dpa s
  | .cxlMemWrite dpa bytes => Sys2Proof.Machine.execCxlMemWrite dpa bytes s
  | .hostLinkTrained speed width flit cxl => Sys2Proof.Machine.execHostLinkTrained speed width flit cxl s
  | .resetNRelease i0 => Sys2Proof.Machine.execResetNRelease i0 s
  | .resetNAssert => Sys2Proof.Machine.execResetNAssert s
  | .getMeasurements index sign nonce => Sys2Proof.Machine.execGetMeasurements index sign nonce s
  | .getMeasurementExtensionLog => Sys2Proof.Machine.execGetMeasurementExtensionLog s
  | .getCertificate slot => Sys2Proof.Machine.execGetCertificate slot s
  | .getDigests => Sys2Proof.Machine.execGetDigests s
  | .challenge nonce => Sys2Proof.Machine.execChallenge nonce s
  | .keyExchange nonce => Sys2Proof.Machine.execKeyExchange nonce s
  | .ideKm session => Sys2Proof.Machine.execIdeKm session s
  | .spdmRequest supported endSession => Sys2Proof.Machine.execSpdmRequest supported endSession s
  | .pldmDiscovery => Sys2Proof.Machine.execPldmDiscovery s
  | .pldmSensorRead id => Sys2Proof.Machine.execPldmSensorRead id s
  | .pldmFwTransfer off bytes => Sys2Proof.Machine.execPldmFwTransfer off bytes s
  | .pldmFwVerify => Sys2Proof.Machine.execPldmFwVerify s
  | .pldmFwActivate => Sys2Proof.Machine.execPldmFwActivate s
  | .debugOpen p => Sys2Proof.Machine.execDebugOpen p s
  | .secMeasRead p slot => Sys2Proof.Machine.execSecMeasRead p slot s
  | .pwrPstateWrite p w => Sys2Proof.Machine.execPwrPstateWrite p w s
  | .pwrCapWrite p w => Sys2Proof.Machine.execPwrCapWrite p w s
  | .pwrSuspectClear p => Sys2Proof.Machine.execPwrSuspectClear p s
  | .vrStatusPoll rails busErr => Sys2Proof.Machine.execVrStatusPoll rails busErr s
  | .avsUpdate => Sys2Proof.Machine.execAvsUpdate s
  | .thermSample sensors near ports far => Sys2Proof.Machine.execThermSample sensors near ports far s
  | .thermDutyStep => Sys2Proof.Machine.execThermDutyStep s
  | .thermtrip => Sys2Proof.Machine.execThermtrip s
  | .pllUnlock pll i0 => Sys2Proof.Machine.execPllUnlock pll i0 s
  | .frefDrift tenthPpm => Sys2Proof.Machine.execFrefDrift tenthPpm s
  | .rstCore p n => Sys2Proof.Machine.execRstCore p n s
  | .rstBay p b => Sys2Proof.Machine.execRstBay p b s
  | .rstPort p port => Sys2Proof.Machine.execRstPort p port s
  | .rstRouter p => Sys2Proof.Machine.execRstRouter p s
  | .warm p i0 => Sys2Proof.Machine.execWarm p i0 s
  | .domainResetDone => Sys2Proof.Machine.execDomainResetDone s
  | .rstTimeout i0 => Sys2Proof.Machine.execRstTimeout i0 s
  | .vaonLoss => Sys2Proof.Machine.execVaonLoss s
  | .hangConsent p => Sys2Proof.Machine.execHangConsent p s
  | .coreHang n => Sys2Proof.Machine.execCoreHang n s
  | .queueHang q => Sys2Proof.Machine.execQueueHang q s
  | .portHang port => Sys2Proof.Machine.execPortHang port s
  | .cmpHang i0 => Sys2Proof.Machine.execCmpHang i0 s
  | .bayFence p b slot => Sys2Proof.Machine.execBayFence p b slot s
  | .baySwitch p b => Sys2Proof.Machine.execBaySwitch p b s
  | .spareZeroDone b => Sys2Proof.Machine.execSpareZeroDone b s
  | .retest p b slot => Sys2Proof.Machine.execRetest p b slot s
  | .retestDone b pass => Sys2Proof.Machine.execRetestDone b pass s
  | .shdwCtrlWrite p w => Sys2Proof.Machine.execShdwCtrlWrite p w s
  | .ras src => Sys2Proof.Machine.execRas src s
  | .tele src => Sys2Proof.Machine.execTele src s
  | .heartbeat src => Sys2Proof.Machine.execHeartbeat src s
  | .log src => Sys2Proof.Machine.execLog src s
  | .commitGen src => Sys2Proof.Machine.execCommitGen src s
  | .config src => Sys2Proof.Machine.execConfig src s
  | .configAck src => Sys2Proof.Machine.execConfigAck src s
  | .congest src => Sys2Proof.Machine.execCongest src s
  | .congestPeriod => Sys2Proof.Machine.execCongestPeriod s
  | .collect src => Sys2Proof.Machine.execCollect src s
  | .collectRsp src => Sys2Proof.Machine.execCollectRsp src s
  | .takeover => Sys2Proof.Machine.execTakeover s
  | .capVerWrite ms => Sys2Proof.Machine.execCapVerWrite ms s
  | .linkExpEpochWrite p port ep => Sys2Proof.Machine.execLinkExpEpochWrite p port ep s
  | .ctxScrWrite p c w => Sys2Proof.Machine.execCtxScrWrite p c w s
  | .pmbAlertN rails => Sys2Proof.Machine.execPmbAlertN rails s
  | .pcieUe => Sys2Proof.Machine.execPcieUe s
  | .hdmDecoderUncommit j => Sys2Proof.Machine.execHdmDecoderUncommit j s
  | .dmaFinished l index => Sys2Proof.Machine.execDmaFinished l index s
  | .windowAccessDone => Sys2Proof.Machine.execWindowAccessDone s

end Sys2Proof.Machine
end

