-- ==== Sys2Proof/WellFormed.lean ====
section
/-! DEFINITION. When a command is well formed: its operands have the sizes that the spec gives what they stand for, and an Ethaqua
instruction meets the checks of the translator (R87, R244, R257 to R282, R344, R349, R363, R373, R441, R465, R488, R505). -/

namespace Sys2Proof

namespace Machine

/-- A path names a function that exists: the PF is function 0, the VFs 1 to 255 (R441). -/
def Path.ok : Path → Bool
  | .host f => decide (f < 256)
  | .chaise | .mgmt => true

/-- The header fields of a packet fit their widths, and LEN is the payload's length (R373). -/
def Packet.ok (k : Packet) : Bool :=
  decide (k.dst < 2 ^ 16 ∧ k.src < 2 ^ 16 ∧ k.ctx < 2 ^ 8 ∧ k.gen < 2 ^ 4 ∧ k.bank < 2 ∧ k.vc < 8 ∧ k.opc < 2 ^ 8) &&
    decide (k.fep < 2 ^ 8 ∧ k.addr < 2 ^ 48 ∧ k.len < 2 ^ 13 ∧ k.beat < 8 ∧ k.pseq < 64 ∧ k.tag < 2 ^ 23) && decide (k.len = k.payload.length)

/-- A packet that enters from a port is one. -/
def PktSrc.ok : PktSrc → Bool
  | .port _ k => k.ok
  | .here => true

/-- A DATA flit carries at most 240 B of a packet (R349, R350). -/
def Flit.ok (f : Flit) : Bool := decide (f.seq < 4096 ∧ f.vc < 8 ∧ f.bytes.length ≤ 240)

/-- The first flit of an uncorrectable codeword is bad (R348). -/
def FlitRx.ok (r : FlitRx) : Bool := !r.ucw || r.bad

/-- Fuse words named as failing lie in the FUSE page (R492). -/
def BootIn.ok (i : BootIn) : Bool := i.badFuses.all fun x => decide (x.1 < 0x1000 ∧ x.1 % 4 = 0)

end Machine

open Machine

/-- The command is well formed. -/
def Instr.wf : Instr → Bool
  | .beatBoundary => true
  | .capWindowEnd _ => true
  | .syncMarkerRx _ rx _ _ => rx.ok
  | .syncEmit _ => true
  | .holdover => true
  | .holdoverLong => true
  | .beatServoCtrlWrite p _ => p.ok
  | .clrMax p => p.ok
  | .beatSetArm p => p.ok
  | .beatSetDisarm p => p.ok
  | .beatLenArm p _ => p.ok
  | .beatLenDisarm p _ => p.ok
  | .revote p _ => p.ok
  | .withdraw p _ => p.ok
  | .resume p _ => p.ok
  | .beatCmdRefused p _ _ => p.ok
  | .vote src => src.pkt.ok
  | .result src _ => src.ok
  | .jrnlReplayStart p => p.ok
  | .jrnlTailWrite p _ => p.ok
  | .registerWrite p off _ bs => p.ok && decide (1 ≤ bs.length ∧ bs.length ≤ 64 ∧ off.toNat + bs.length ≤ 2 ^ 26)
  | .holeAccess p _ _ => p.ok
  | .rsnSnapshotRead p off len => p.ok && decide (1 ≤ len.val ∧ off.toNat + len.val ≤ 2 ^ 26)
  | .counterClearWrite p _ _ => p.ok
  | .blockReset p _ => p.ok
  | .blockResetDone _ => true
  | .clrCnt p _ => p.ok
  | .lock p _ => p.ok
  | .fence p _ => p.ok
  | .enable p _ _ => p.ok
  | .pgIntForce p _ _ => p.ok
  | .mmode _ x0 => CoreInsn.wf (.mmode x0)
  | .mload _ x0 => CoreInsn.wf (.mload x0)
  | .mloadComplete _ => true
  | .mstream _ x0 => CoreInsn.wf (.mstream x0)
  | .mdrain _ x0 => CoreInsn.wf (.mdrain x0)
  | .haltReq p _ _ => p.ok
  | .dbgResume p _ _ => p.ok
  | .vop _ x0 => CoreInsn.wf (.vop x0)
  | .vtens _ x0 => CoreInsn.wf (.vtens x0)
  | .vtensLd _ x0 => CoreInsn.wf (.vtensLd x0)
  | .vtensSt _ x0 => CoreInsn.wf (.vtensSt x0)
  | .vred _ x0 => CoreInsn.wf (.vred x0)
  | .vcvt _ x0 => CoreInsn.wf (.vcvt x0)
  | .vrngSeed _ x0 => CoreInsn.wf (.vseed x0)
  | .vrngDraw _ x0 => CoreInsn.wf (.vdraw x0)
  | .vmask _ x0 => CoreInsn.wf (.vmask x0)
  | .gcall _ x0 => CoreInsn.wf (.gcall x0)
  | .gcallDispatch _ => true
  | .ret _ => true
  | .addSubAndOrXor _ _ _ _ _ => true
  | .shlShrSra _ _ _ _ _ => true
  | .sltSltu _ _ _ _ _ => true
  | .mul _ _ _ _ => true
  | .divRem _ _ _ _ _ => true
  | .lih _ _ _ => true
  | .ldlStl _ _ _ _ => true
  | .ldsSts _ _ _ _ => true
  | .ldp _ _ _ => true
  | .ldcap _ _ _ => true
  | .gigBranch _ _ _ _ _ => true
  | .popf _ _ => true
  | .waitf _ => true
  | .waitfWake _ => true
  | .mflush _ => true
  | .trap _ => true
  | .gigFifoFlush p _ => p.ok
  | .loadModule _ => true
  | .loadModuleDone _ => true
  | .unloadModule _ => true
  | .launch _ => true
  | .cset _ x0 x1 x2 => CoreInsn.wf (.cset x0 x1 x2)
  | .cinc _ x0 x1 => CoreInsn.wf (.cinc x0 x1)
  | .ccmp _ x0 x1 x2 x3 => CoreInsn.wf (.ccmp x0 x1 x2 x3)
  | .loop _ x0 x1 => CoreInsn.wf (.loop x0 x1)
  | .br _ x0 x1 => CoreInsn.wf (.br x0 x1)
  | .beat _ x0 => CoreInsn.wf (.beat x0)
  | .waitarr _ x0 => CoreInsn.wf (.waitarr x0)
  | .fenceInsn _ x0 x1 => CoreInsn.wf (.fence x0 x1)
  | .signal _ x0 x1 x2 => CoreInsn.wf (.signal x0 x1 x2)
  | .wait _ x0 x1 => CoreInsn.wf (.wait x0 x1)
  | .dcopy _ x0 => CoreInsn.wf (.dcopy x0)
  | .dgather _ x0 => CoreInsn.wf (.dgather x0)
  | .dscatter _ x0 => CoreInsn.wf (.dscatter x0)
  | .dstash _ x0 => CoreInsn.wf (.dstash x0)
  | .dunstash _ x0 => CoreInsn.wf (.dunstash x0)
  | .xput _ x0 => CoreInsn.wf (.xput x0)
  | .xget _ x0 => CoreInsn.wf (.xget x0)
  | .xatom _ x0 => CoreInsn.wf (.xatom x0)
  | .xmsg _ x0 => CoreInsn.wf (.xmsg x0)
  | .callr _ x0 => CoreInsn.wf (.callr x0)
  | .crscat _ x0 => CoreInsn.wf (.crscat x0)
  | .cagath _ x0 => CoreInsn.wf (.cagath x0)
  | .cbcast _ x0 => CoreInsn.wf (.cbcast x0)
  | .ca2a _ x0 => CoreInsn.wf (.ca2a x0)
  | .ca2av _ x0 => CoreInsn.wf (.ca2av x0)
  | .cperm _ x0 => CoreInsn.wf (.cperm x0)
  | .collectiveComplete _ => true
  | .urecipe _ x0 => CoreInsn.wf (.urecipe x0)
  | .uapply _ x0 => CoreInsn.wf (.uapply x0)
  | .suuRequestStart _ => true
  | .uapplyComplete => true
  | .suuSlotPartWrite p _ _ => p.ok
  | .scrub _ => true
  | .wcbEntryTimeout _ => true
  | .wcbFlush p _ => p.ok
  | .xlInvalAll p => p.ok
  | .xlInvalCtx p _ => p.ok
  | .xlInvalRange p _ => p.ok
  | .xlInvalDone => true
  | .xlWinRead p => p.ok
  | .xlWinWrite p => p.ok
  | .laserLost _ => true
  | .trainingStart _ => true
  | .laserCheckPass _ _ _ => true
  | .lockDone _ _ => true
  | .eqDone _ _ => true
  | .fecAlignDone _ => true
  | .id _ f _ => f.rx.ok
  | .idResend _ => true
  | .idExchangeDone _ _ => true
  | .trainStateTimeout _ => true
  | .trainRetry _ => true
  | .data _ rx f => rx.ok && f.ok
  | .idle _ rx => rx.ok
  | .ackTimeout _ => true
  | .widthReq _ rx _ _ => rx.ok
  | .retrainReq _ rx _ => rx.ok
  | .accept _ rx _ _ => rx.ok
  | .switch _ rx _ => rx.ok
  | .widthChangeTimeout _ => true
  | .laneBerWindow _ _ bits cws syms bad => decide (bad ≤ cws ∧ syms ≤ 15 * cws ∧ bits ≤ 10 * syms)
  | .laneLockLost _ _ => true
  | .tuneLost _ _ => true
  | .ucwPersist _ _ => true
  | .retrain p _ => p.ok
  | .holdOff p _ _ => p.ok
  | .maxWidthWrite p _ _ => p.ok
  | .packetGrant _ => true
  | .put src => src.ok
  | .putScr src => src.ok
  | .getReq src => src.ok
  | .getRsp src => src.ok
  | .getRspScr src => src.ok
  | .atom src => src.ok
  | .atomAck src => src.ok
  | .msg src => src.ok
  | .hostMsg src _ => src.ok
  | .collData src => src.ok
  | .collCnt src => src.ok
  | .mgWr src => src.ok
  | .mgRd src => src.ok
  | .mgRsp src => src.ok
  | .histSample => true
  | .rtrBankArm p _ => p.ok
  | .rtrBankDisarm p _ => p.ok
  | .rtrDrainArm p _ => p.ok
  | .rtrFepArm p _ => p.ok
  | .rtrFepDisarm p _ => p.ok
  | .grpSlotWrite p _ _ _ _ => p.ok
  | .doorbell p _ _ => p.ok
  | .doorbellVisible _ => true
  | .abort _ => true
  | .hcopy _ _ => true
  | .send _ _ => true
  | .nop _ => true
  | .completionPost _ => true
  | .mrqStageTimeout _ => true
  | .mrqSlotsFree _ => true
  | .queueReset p _ => p.ok
  | .queueEnable p _ _ => p.ok
  | .bind p _ _ _ _ => p.ok
  | .teardown p _ => p.ok
  | .flr _ => true
  | .teardownDrainEnd _ => true
  | .teardownDone _ => true
  | .hotReset => true
  | .zeroGo p => p.ok
  | .zeroDone => true
  | .create p _ => p.ok
  | .lendActivate _ => true
  | .hdmCommit _ ways _ _ => decide (1 ≤ ways)
  | .release p _ _ => p.ok
  | .lendFree _ => true
  | .cxlMemRead dpa => decide (dpa % 64 = 0)
  | .cxlMemWrite dpa bs => decide (dpa % 64 = 0 ∧ bs.length = 64)
  | .hostLinkTrained _ _ _ _ => true
  | .resetNRelease i => i.ok
  | .resetNAssert => true
  | .getMeasurements _ _ n => decide (n.length = 32)
  | .getMeasurementExtensionLog => true
  | .getCertificate _ => true
  | .getDigests => true
  | .challenge n => decide (n.length = 32)
  | .keyExchange n => decide (n.length = 32)
  | .ideKm _ => true
  | .spdmRequest _ _ => true
  | .pldmDiscovery => true
  | .pldmSensorRead _ => true
  | .pldmFwTransfer _ bs => decide (bs.length ≤ 4096)
  | .pldmFwVerify => true
  | .pldmFwActivate => true
  | .debugOpen p => p.ok
  | .secMeasRead p _ => p.ok
  | .pwrPstateWrite p _ => p.ok
  | .pwrCapWrite p _ => p.ok
  | .pwrSuspectClear p => p.ok
  | .vrStatusPoll _ _ => true
  | .avsUpdate => true
  | .thermSample ss ns ps _ => decide (ss.length = 20 ∧ ns.length = 8 ∧ ps.length = 10)
  | .thermDutyStep => true
  | .thermtrip => true
  | .pllUnlock _ _ => true
  | .frefDrift _ => true
  | .rstCore p _ => p.ok
  | .rstBay p _ => p.ok
  | .rstPort p _ => p.ok
  | .rstRouter p => p.ok
  | .warm p _ => p.ok
  | .domainResetDone => true
  | .rstTimeout _ => true
  | .vaonLoss => true
  | .hangConsent p => p.ok
  | .coreHang _ => true
  | .queueHang _ => true
  | .portHang _ => true
  | .cmpHang _ => true
  | .bayFence p _ _ => p.ok
  | .baySwitch p _ => p.ok
  | .spareZeroDone _ => true
  | .retest p _ _ => p.ok
  | .retestDone _ _ => true
  | .shdwCtrlWrite p _ => p.ok
  | .ras src => src.ok
  | .tele src => src.ok
  | .heartbeat src => src.ok
  | .log src => src.ok
  | .commitGen src => src.ok
  | .config src => src.ok
  | .configAck src => src.ok
  | .congest src => src.ok
  | .congestPeriod => true
  | .collect src => src.ok
  | .collectRsp src => src.ok
  | .takeover => true
  | .capVerWrite _ => true
  | .linkExpEpochWrite p _ _ => p.ok
  | .ctxScrWrite p _ _ => p.ok
  | .pmbAlertN _ => true
  | .pcieUe => true
  | .hdmDecoderUncommit _ => true
  | .dmaFinished _ _ => true
  | .windowAccessDone => true

/-- The access path of a command that accesses register space. -/
def Instr.path? : Instr → Option Path
  | .beatBoundary => none
  | .capWindowEnd _ => none
  | .syncMarkerRx _ _ _ _ => none
  | .syncEmit _ => none
  | .holdover => none
  | .holdoverLong => none
  | .beatServoCtrlWrite p _ => some p
  | .clrMax p => some p
  | .beatSetArm p => some p
  | .beatSetDisarm p => some p
  | .beatLenArm p _ => some p
  | .beatLenDisarm p _ => some p
  | .revote p _ => some p
  | .withdraw p _ => some p
  | .resume p _ => some p
  | .beatCmdRefused p _ _ => some p
  | .vote _ => none
  | .result _ _ => none
  | .jrnlReplayStart p => some p
  | .jrnlTailWrite p _ => some p
  | .registerWrite p _ _ _ => some p
  | .holeAccess p _ _ => some p
  | .rsnSnapshotRead p _ _ => some p
  | .counterClearWrite p _ _ => some p
  | .blockReset p _ => some p
  | .blockResetDone _ => none
  | .clrCnt p _ => some p
  | .lock p _ => some p
  | .fence p _ => some p
  | .enable p _ _ => some p
  | .pgIntForce p _ _ => some p
  | .mmode _ _ => none
  | .mload _ _ => none
  | .mloadComplete _ => none
  | .mstream _ _ => none
  | .mdrain _ _ => none
  | .haltReq p _ _ => some p
  | .dbgResume p _ _ => some p
  | .vop _ _ => none
  | .vtens _ _ => none
  | .vtensLd _ _ => none
  | .vtensSt _ _ => none
  | .vred _ _ => none
  | .vcvt _ _ => none
  | .vrngSeed _ _ => none
  | .vrngDraw _ _ => none
  | .vmask _ _ => none
  | .gcall _ _ => none
  | .gcallDispatch _ => none
  | .ret _ => none
  | .addSubAndOrXor _ _ _ _ _ => none
  | .shlShrSra _ _ _ _ _ => none
  | .sltSltu _ _ _ _ _ => none
  | .mul _ _ _ _ => none
  | .divRem _ _ _ _ _ => none
  | .lih _ _ _ => none
  | .ldlStl _ _ _ _ => none
  | .ldsSts _ _ _ _ => none
  | .ldp _ _ _ => none
  | .ldcap _ _ _ => none
  | .gigBranch _ _ _ _ _ => none
  | .popf _ _ => none
  | .waitf _ => none
  | .waitfWake _ => none
  | .mflush _ => none
  | .trap _ => none
  | .gigFifoFlush p _ => some p
  | .loadModule _ => none
  | .loadModuleDone _ => none
  | .unloadModule _ => none
  | .launch _ => none
  | .cset _ _ _ _ => none
  | .cinc _ _ _ => none
  | .ccmp _ _ _ _ _ => none
  | .loop _ _ _ => none
  | .br _ _ _ => none
  | .beat _ _ => none
  | .waitarr _ _ => none
  | .fenceInsn _ _ _ => none
  | .signal _ _ _ _ => none
  | .wait _ _ _ => none
  | .dcopy _ _ => none
  | .dgather _ _ => none
  | .dscatter _ _ => none
  | .dstash _ _ => none
  | .dunstash _ _ => none
  | .xput _ _ => none
  | .xget _ _ => none
  | .xatom _ _ => none
  | .xmsg _ _ => none
  | .callr _ _ => none
  | .crscat _ _ => none
  | .cagath _ _ => none
  | .cbcast _ _ => none
  | .ca2a _ _ => none
  | .ca2av _ _ => none
  | .cperm _ _ => none
  | .collectiveComplete _ => none
  | .urecipe _ _ => none
  | .uapply _ _ => none
  | .suuRequestStart _ => none
  | .uapplyComplete => none
  | .suuSlotPartWrite p _ _ => some p
  | .scrub _ => none
  | .wcbEntryTimeout _ => none
  | .wcbFlush p _ => some p
  | .xlInvalAll p => some p
  | .xlInvalCtx p _ => some p
  | .xlInvalRange p _ => some p
  | .xlInvalDone => none
  | .xlWinRead p => some p
  | .xlWinWrite p => some p
  | .laserLost _ => none
  | .trainingStart _ => none
  | .laserCheckPass _ _ _ => none
  | .lockDone _ _ => none
  | .eqDone _ _ => none
  | .fecAlignDone _ => none
  | .id _ _ _ => none
  | .idResend _ => none
  | .idExchangeDone _ _ => none
  | .trainStateTimeout _ => none
  | .trainRetry _ => none
  | .data _ _ _ => none
  | .idle _ _ => none
  | .ackTimeout _ => none
  | .widthReq _ _ _ _ => none
  | .retrainReq _ _ _ => none
  | .accept _ _ _ _ => none
  | .switch _ _ _ => none
  | .widthChangeTimeout _ => none
  | .laneBerWindow _ _ _ _ _ _ => none
  | .laneLockLost _ _ => none
  | .tuneLost _ _ => none
  | .ucwPersist _ _ => none
  | .retrain p _ => some p
  | .holdOff p _ _ => some p
  | .maxWidthWrite p _ _ => some p
  | .packetGrant _ => none
  | .put _ => none
  | .putScr _ => none
  | .getReq _ => none
  | .getRsp _ => none
  | .getRspScr _ => none
  | .atom _ => none
  | .atomAck _ => none
  | .msg _ => none
  | .hostMsg _ _ => none
  | .collData _ => none
  | .collCnt _ => none
  | .mgWr _ => none
  | .mgRd _ => none
  | .mgRsp _ => none
  | .histSample => none
  | .rtrBankArm p _ => some p
  | .rtrBankDisarm p _ => some p
  | .rtrDrainArm p _ => some p
  | .rtrFepArm p _ => some p
  | .rtrFepDisarm p _ => some p
  | .grpSlotWrite p _ _ _ _ => some p
  | .doorbell p _ _ => some p
  | .doorbellVisible _ => none
  | .abort _ => none
  | .hcopy _ _ => none
  | .send _ _ => none
  | .nop _ => none
  | .completionPost _ => none
  | .mrqStageTimeout _ => none
  | .mrqSlotsFree _ => none
  | .queueReset p _ => some p
  | .queueEnable p _ _ => some p
  | .bind p _ _ _ _ => some p
  | .teardown p _ => some p
  | .flr _ => none
  | .teardownDrainEnd _ => none
  | .teardownDone _ => none
  | .hotReset => none
  | .zeroGo p => some p
  | .zeroDone => none
  | .create p _ => some p
  | .lendActivate _ => none
  | .hdmCommit _ _ _ _ => none
  | .release p _ _ => some p
  | .lendFree _ => none
  | .cxlMemRead _ => none
  | .cxlMemWrite _ _ => none
  | .hostLinkTrained _ _ _ _ => none
  | .resetNRelease _ => none
  | .resetNAssert => none
  | .getMeasurements _ _ _ => none
  | .getMeasurementExtensionLog => none
  | .getCertificate _ => none
  | .getDigests => none
  | .challenge _ => none
  | .keyExchange _ => none
  | .ideKm _ => none
  | .spdmRequest _ _ => none
  | .pldmDiscovery => none
  | .pldmSensorRead _ => none
  | .pldmFwTransfer _ _ => none
  | .pldmFwVerify => none
  | .pldmFwActivate => none
  | .debugOpen p => some p
  | .secMeasRead p _ => some p
  | .pwrPstateWrite p _ => some p
  | .pwrCapWrite p _ => some p
  | .pwrSuspectClear p => some p
  | .vrStatusPoll _ _ => none
  | .avsUpdate => none
  | .thermSample _ _ _ _ => none
  | .thermDutyStep => none
  | .thermtrip => none
  | .pllUnlock _ _ => none
  | .frefDrift _ => none
  | .rstCore p _ => some p
  | .rstBay p _ => some p
  | .rstPort p _ => some p
  | .rstRouter p => some p
  | .warm p _ => some p
  | .domainResetDone => none
  | .rstTimeout _ => none
  | .vaonLoss => none
  | .hangConsent p => some p
  | .coreHang _ => none
  | .queueHang _ => none
  | .portHang _ => none
  | .cmpHang _ => none
  | .bayFence p _ _ => some p
  | .baySwitch p _ => some p
  | .spareZeroDone _ => none
  | .retest p _ _ => some p
  | .retestDone _ _ => none
  | .shdwCtrlWrite p _ => some p
  | .ras _ => none
  | .tele _ => none
  | .heartbeat _ => none
  | .log _ => none
  | .commitGen _ => none
  | .config _ => none
  | .configAck _ => none
  | .congest _ => none
  | .congestPeriod => none
  | .collect _ => none
  | .collectRsp _ => none
  | .takeover => none
  | .capVerWrite _ => none
  | .linkExpEpochWrite p _ _ => some p
  | .ctxScrWrite p _ _ => some p
  | .pmbAlertN _ => none
  | .pcieUe => none
  | .hdmDecoderUncommit _ => none
  | .dmaFinished _ _ => none
  | .windowAccessDone => none

end Sys2Proof
end

