-- ==== Sys2Proof/Safety.lean ====
section
/-! DEFINITION. What claims about the machine speak of: when a register write is admitted, when no injection is armed, when a core dispatches
or its Gig runs, when a packet is taken, and the two states in which the device is held (R41, R78 to R90, R209, R260, R378, R507, R514,
R529). -/

namespace Sys2Proof.Machine

/-! ## Registers -/

/-- A 32-bit write of the register at pg and off on a path is admitted: the path sees the page, the page is not in reset, the register stands
in that page, the path may write it, and it has written fields that LOCK does not hold (R76, R78, R82, R89). What the page's own rules say of
the value and the moment comes after. -/
def Hw.admits (path : Path) (pg off : Nat) (h : Hw) : Bool :=
  h.pg.sees path pg && !(hasHeader pg && (h.pg.inReset pg || decide (off < 0x40))) && decide (homePage pg off = pg) &&
    (regRow pg off).any fun r => (r.who.denies path).isNone && (decide (r.kind = .plain) || (decide (r.kind = .locked) && !h.pg.bit (Reg.PG_CTRL pg) 2)) &&
      !(decide (r.wr = 0) && decide (r.c1 = 0) && decide (r.wo = 0))

/-- What a plain register holds after w is written over old: its written fields, and what a 1 clears (R79). -/
def mixed (pg off : Nat) (old w : W32) : W32 := ((regRow pg off).map fun r => r.mix old w).getD old

/-- No detector of a page is armed (R529). -/
def Pages.unarmed (pg : Nat) (p : Pages) : Bool := decide (p.rd (Reg.PG_ERR_INJ pg) = 0)

/-! ## Cores -/

/-- Logical core l is held by context c, can be reached, and c's launch runs with no event that halts it (R41, R446, R543). -/
def Hw.runsOn (l c : Nat) (h : Hw) : Bool :=
  decide (h.coreCtx l = some c) && h.reach l && decide ((h.core (h.pg.physOf l)).owner = some c) && h.goes c

/-- Core l takes instruction i of context c now (R260). -/
def Hw.takes (l c : Nat) (i : CoreInsn) (h : Hw) : Bool :=
  decide (h.coreCtx l = some c) && (h.core (h.pg.physOf l)).wait.isNone && h.canDispatch (h.ciOf l c) i

/-- The index in its block of the instruction that a core takes next. -/
def Hw.nextIdx (n : Nat) (h : Hw) : Nat := ((h.core n).blk.map (·.idx)).getD 0

/-- The Gig of a core runs a routine r: it does not wait, has not stopped, is not frozen, its page works (R209, R213, R224). -/
def Hw.gigRuns (l c : Nat) (h : Hw) : Bool :=
  let n := h.pg.physOf l
  h.runsOn l c && ((h.core n).grun.any fun r => !r.waiting && decide (r.pc < r.call.len)) && !(h.core n).failed && !(h.core n).gStop && !h.pg.bit (Reg.GIG_DBG_CTRL n) 30 &&
    h.pg.enabled (Pg.gig n) && h.pg.unarmed (Pg.gig n)

/-- Instruction i joins the queue of its place at core n (R260). -/
def Hw.enqueue (n : Nat) (i : CoreInsn) (h : Hw) : Hw :=
  let e := (h.nextIdx n, i)
  h.modCore n fun c => match i.place with
    | 0 => { c.next with mxq := c.mxq ++ [e], ord := c.ord ++ [0] }
    | 1 => { c.next with tvq := c.tvq ++ [e], ord := c.ord ++ [1] }
    | k => { c.next with held := c.held ++ [e], ord := c.ord ++ [k] }

/-! ## Packets -/

/-- A packet command finds packet k, and the device as it takes it is t: k is one of its opcode that enters by the port the command names or
is held for this node, of a bound context and its generation (R378). -/
def Hw.accepts (test : Packet → Bool) (src : PktSrc) (k : Packet) (h t : Hw) : Prop :=
  ∃ inp, h.arrive test src = (some (k, inp), (h.arrive test src).2) ∧ (h.arrive test src).2.ctxCheck k = (true, t)

/-- The same of a management packet, which is of no context. -/
def Hw.acceptsMg (test : Packet → Bool) (src : PktSrc) (k : Packet) (h t : Hw) : Prop := ∃ inp, h.arrive test src = (some (k, inp), t)

/-- A message of a KIND as the Chaise takes it. -/
def mgTest (kind : Nat) (k : Packet) : Bool := k.opc = 0x23 && (leAt k.payload 0 1 = kind || !mgKnown (leAt k.payload 0 1))

/-- The body of a message. -/
def Packet.mgBody (k : Packet) : List Byte := slice 16 (min 4080 (leAt k.payload 2 2)) k.payload

/-! ## Queue entries -/

/-- The device once entry e of queue q, at ring index i, has been read and started (R452). -/
def Hw.startedAt (q i : Nat) (e : SqEntry) (h : Hw) : Hw := (h.ringTried q).sqStart i e

/-- The same of the entry at the head. -/
def Hw.entryStarted (q : Nat) (e : SqEntry) (h : Hw) : Hw := h.startedAt q (h.pg.get (Reg.Q_HEAD q) 15 0) e

/-- What follows the read of a ring's slot i: the outcome t where the host answers the read, else the fault of the queue (R467). -/
def Hw.afterRead (q i : Nat) (h t : Hw) : Hw :=
  let r := h.ringReach q (h.pg.slotBus q 64 i)
  if r.1 then t else r.2

/-- The same of the slot at the head. -/
def Hw.afterHead (q : Nat) (h t : Hw) : Hw := h.afterRead q (h.pg.get (Reg.Q_HEAD q) 15 0) t

/-- The next entry of queue q is e, of opcode op, with its reserved bytes zero, and the HIF page works (R453). -/
def Hw.entryReady (q op : Nat) (e : SqEntry) (h : Hw) : Bool :=
  h.pg.works Pg.hif && decide (h.nextEntry q = some e) && decide (e.f 0 1 = op) && e.clean

/-! ## The held device -/

/-- Every laser is dark: OPE_STAT.LASER_EN of each port reads 0 (R343). -/
def Hw.dark (h : Hw) : Bool := (List.range 10).all fun k => !h.pg.bit (Reg.OPE_STAT k) 30

/-- RESET_N holds the device in cold reset: every laser is dark, no core, context, link, collective, queue or packet holds anything (R514). -/
def Hw.held (h : Hw) : Bool :=
  h.power.inReset && h.dark && h.cores.isEmpty && h.parks.isEmpty && h.ctxs.isEmpty && h.links.isEmpty && h.colls.isEmpty &&
    h.hif.queues.isEmpty && decide (h.rtr = Router.reset) && decide (h.suu = Suu.reset)

/-- A thermal trip has stopped every clock but the Chaise's (R507). -/
def Hw.frozen (h : Hw) : Bool := h.power.tripped && h.dark

/-- What those clocks move. -/
def Hw.sameClocked (a b : Hw) : Prop :=
  a.pg.fbc = b.pg.fbc ∧ a.pg.beatNum = b.pg.beatNum ∧ a.cores = b.cores ∧ a.parks = b.parks ∧ a.ctxs = b.ctxs ∧ a.rtr = b.rtr ∧
    a.links = b.links ∧ a.colls = b.colls ∧ a.bcu = b.bcu ∧ a.suu = b.suu ∧ a.hif = b.hif ∧ a.servo = b.servo ∧ a.pod = b.pod ∧
    a.dev.mem = b.dev.mem

/-- A command that acts on pins or supplies: RESET_N, VAON. -/
def isPin : Instr → Bool
  | .resetNRelease _ | .resetNAssert | .vaonLoss => true
  | _ => false

/-- The port of a command that is an event of a link: its laser, its training, a flit that it receives, its timers and its lanes. -/
def linkPort? : Instr → Option (Fin 10)
  | .laserLost k | .trainingStart k | .laserCheckPass k _ _ | .lockDone k _ | .eqDone k _ | .fecAlignDone k | .id k _ _ | .idResend k => some k
  | .idExchangeDone k _ | .trainStateTimeout k | .trainRetry k | .data k _ _ | .idle k _ | .ackTimeout k | .widthReq k _ _ _ => some k
  | .retrainReq k _ _ | .accept k _ _ _ | .switch k _ _ | .widthChangeTimeout k | .laneBerWindow k _ _ _ _ _ | .laneLockLost k _ => some k
  | .tuneLost k _ | .ucwPersist k _ => some k
  | _ => none

/-- Nothing of the device beyond registers, links and the router differs: memory, contexts, collectives, update units, host interface, spares,
Chaise, servo, power, pod and the data of reads, and of the cores all but the entries that their FIFOs reserve for messages in arrival (R215). -/
def Hw.sameBeyondLinks (a b : Hw) : Prop :=
  a.dev.mem = b.dev.mem ∧ (∀ n : Nat, { b.core n with fifoResv := (a.core n).fifoResv } = a.core n) ∧ a.parks = b.parks ∧ a.ctxs = b.ctxs ∧
    a.colls = b.colls ∧ a.bcu = b.bcu ∧ a.grpLost = b.grpLost ∧ a.suu = b.suu ∧ a.hif = b.hif ∧ a.shdw = b.shdw ∧ a.bays = b.bays ∧ a.chaise = b.chaise ∧
    a.servo = b.servo ∧ a.power = b.power ∧ a.pod = b.pod ∧ a.reads = b.reads

/-- The native instruction that a command carries, with its logical core (R260). -/
def coreInsn? : Instr → Option (Fin 96 × CoreInsn)
  | .mmode l o => some (l, .mmode o)
  | .mload l o => some (l, .mload o)
  | .mstream l o => some (l, .mstream o)
  | .mdrain l o => some (l, .mdrain o)
  | .vop l o => some (l, .vop o)
  | .vtens l o => some (l, .vtens o)
  | .vtensLd l o => some (l, .vtensLd o)
  | .vtensSt l o => some (l, .vtensSt o)
  | .vred l o => some (l, .vred o)
  | .vcvt l o => some (l, .vcvt o)
  | .vrngSeed l o => some (l, .vseed o)
  | .vrngDraw l o => some (l, .vdraw o)
  | .vmask l o => some (l, .vmask o)
  | .gcall l o => some (l, .gcall o)
  | .cset l d clr src => some (l, .cset d clr src)
  | .cinc l d src => some (l, .cinc d src)
  | .ccmp l d a r src => some (l, .ccmp d a r src)
  | .loop l a t => some (l, .loop a t)
  | .br l cond t => some (l, .br cond t)
  | .beat l n => some (l, .beat n)
  | .waitarr l tag => some (l, .waitarr tag)
  | .fenceInsn l sc cgs => some (l, .fence sc cgs)
  | .signal l host e v => some (l, .signal host e v)
  | .wait l e v => some (l, .wait e v)
  | .dcopy l o => some (l, .dcopy o)
  | .dgather l o => some (l, .dgather o)
  | .dscatter l o => some (l, .dscatter o)
  | .dstash l o => some (l, .dstash o)
  | .dunstash l o => some (l, .dunstash o)
  | .xput l o => some (l, .xput o)
  | .xget l o => some (l, .xget o)
  | .xatom l o => some (l, .xatom o)
  | .xmsg l o => some (l, .xmsg o)
  | .callr l o => some (l, .callr o)
  | .crscat l o => some (l, .crscat o)
  | .cagath l o => some (l, .cagath o)
  | .cbcast l o => some (l, .cbcast o)
  | .ca2a l o => some (l, .ca2a o)
  | .ca2av l o => some (l, .ca2av o)
  | .cperm l o => some (l, .cperm o)
  | .urecipe l o => some (l, .urecipe o)
  | .uapply l o => some (l, .uapply o)
  | _ => none

end Sys2Proof.Machine
end

