-- ==== Sys2Proof/Certificates/Slice0/Obligations.lean ====
section
/-! DEFINITION. What is claimed of the machine, for the provers. A statement whose conclusion is "exec answers next" says where its commands
complete: its hypotheses are on the state and the operands alone, and s.done E is the state after the command's effect E on the hardware,
with the management messages that E made sent to the router. -/

open Sys2Proof Sys2Proof.Machine

/-! ## One step -/

/-- For every command c and state s: a step of s with c at the front of its queue is exec of c on s with the queue's rest. (Readings of the model: log
entry 16.) -/
def Obligations.StepRunsFront : Prop :=
  ∀ (s : State) (c : Instr) (rest : List Instr), step { s with pending := c :: rest } = exec c { s with pending := rest }

/-- On an empty queue the block idles (log entry 1: the model's choice). -/
def Obligations.StepIdles : Prop := ∀ s : State, s.pending = [] → step s = .next s

/-- No command's effect touches the queue of commands. (Readings of the model: log entry 16.) -/
def Obligations.ExecKeepsQueue : Prop := ∀ (c : Instr) (s t : State), exec c s = .next t → t.pending = s.pending

/-- A command is refused in one case only: it carries a native instruction that the translator does not accept; then it always is. (Readings of the
model: log entry 80.) -/
def Obligations.RefusesOnlyIllFormed : Prop :=
  ∀ (c : Instr) (s : State), match coreInsn? c with
    | some x => (x.2.wf = false → exec c s = .refused .illFormed) ∧ (x.2.wf = true → ∃ t, exec c s = .next t)
    | none => ∃ t, exec c s = .next t

/-! ## Beats (R26 to R71) -/

/-- The events of the beat and of its servo complete: the boundary; the end of a capping window, with the cap enabled; a marker of the parent; a
marker sent on an ACTIVE link, which comes back under loopback; the parent's silence, and its silence for 8 beats. Each asks that the block that does
it works (R81). (Readings of the model: log entries 59, 75 and 86.) -/
def Obligations.BeatEventsRun : Prop :=
  ∀ s : State, s.hw.up = true →
    (s.hw.pg.works Pg.beat = true → exec .beatBoundary s = .next (s.done fun h => h.pumpAll.boundary)) ∧
    (∀ w : W16, s.hw.pg.works Pg.pwr = true → s.hw.chaiseDead = false → s.hw.pg.bit Reg.PWR_CAP 31 = true →
      exec (.capWindowEnd w) s = .next (s.done fun h =>
        let cap := h.pg.get Reg.PWR_CAP 15 0
        ({ (h.onPg (Pages.count Reg.PWR_ENERGY_LO (w.toNat * h.pg.capWin))) with
            power := { h.power with capStep := if cap < w.toNat then 1 else if w.toNat * 100 < cap * 95 then 2 else 0 } } : Hw).onPg fun p =>
          (p.put Reg.PWR_PKG 15 0 w.toNat).maxFld Reg.PWR_PKG_MAX 15 0 w.toNat)) ∧
    (∀ (k : Fin 10) (rx : FlitRx) (m now : W64), rx.bad = false → s.hw.pg.looped k.val = false →
      (s.hw.syncTaken k.val rx now).pg.works Pg.beat = true → (s.hw.syncTaken k.val rx now).pg.bit Reg.BEAT_SERVO_CTRL 8 = true → (s.hw.syncTaken k.val rx now).pg.get Reg.BEAT_SERVO_CTRL 3 0 = k.val →
      (s.hw.syncTaken k.val rx now).pg.marks k.val = true →
      exec (.syncMarkerRx k rx m now) s = .next (s.done fun h => (h.syncTaken k.val rx now).marker k.val m.toNat)) ∧
    (∀ k : Fin 10, s.hw.pg.works (Pg.link k.val) = true → s.hw.pg.linkActive k.val = true →
      exec (.syncEmit k) s = .next (s.done fun h =>
        let h1 := h.onLink0 k.val fun v => (v.head k.val none).2.onLk fun l => { l with sent := .sync (v.head k.val none).1 v.pg.fbc :: l.sent }
        if h.pg.looped k.val then h1.servoTake k.val h.pg.fbc.toNat else h1)) ∧
    (s.hw.pg.works Pg.beat = true → s.hw.pg.bit Reg.BEAT_SERVO_CTRL 8 = true → s.hw.pg.get Reg.BEAT_SERVO_CTRL 3 0 ≠ 15 → s.hw.pg.bit Reg.BEAT_SERVO_STAT 30 = false →
      exec .holdover s = .next (s.done fun h => ({ h with servo := { h.servo with run := 0 } } : Hw).onPg fun p =>
        (((p.setb Reg.BEAT_SERVO_STAT 30 true).setb Reg.BEAT_SERVO_STAT 31 false).put Reg.BEAT_SERVO_STAT 23 16 0).raise Pg.beat 0 0 none)) ∧
    (s.hw.pg.works Pg.beat = true → s.hw.pg.bit Reg.BEAT_SERVO_STAT 30 = true → 8 ≤ s.hw.pg.get Reg.BEAT_SERVO_STAT 23 16 →
      exec .holdoverLong s = .next (s.done (Hw.onPg (Pages.raise Pg.beat 1 0 none))))

/-- The registers of the beat page act when an admitted write finds their conditions met: BEAT_SERVO_CTRL keeps its written fields, and under a parent
starts acquisition; CLR_MAX clears the maxima; BEAT_SET_CTRL and BEAT_LEN_NEXT are armed two beats ahead on whole beats with no launch, and disarmed.
(Readings of the model: log entries 75 and 86.) -/
def Obligations.BeatRegisterWrites : Prop :=
  ∀ (s : State) (p : Path), s.hw.up = true → s.hw.pg.unarmed Pg.beat = true →
    (s.hw.admits p Pg.beat 0x064 = true →
      (∀ w : W32, s.hw.anyLaunch = false → wbit w 8 = true → s.hw.pg.bit Reg.BEAT_SERVO_CTRL 8 = false → wbit w 31 = false → fld w 3 0 ≠ 15 →
        exec (.beatServoCtrlWrite p w) s = .next (s.done fun h =>
          { (h.onPg (Pages.wr Reg.BEAT_SERVO_CTRL (w &&& 0x001F010F#32))) with servo := { h.servo with acq := true, run := 0 } })) ∧
      (∀ w : W32, wbit w 8 = false → wbit w 31 = false →
        exec (.beatServoCtrlWrite p w) s = .next (s.done fun h =>
          { (h.onPg (Pages.wr Reg.BEAT_SERVO_CTRL (w &&& 0x001F010F#32))) with servo := { h.servo with acq := false, run := 0 } })) ∧
      (s.hw.pg.bit Reg.BEAT_SERVO_CTRL 8 = true →
        exec (.clrMax p) s = .next (s.done (Hw.onPg fun g =>
          ((g.wr Reg.BEAT_SKEW_MAX 0).wr Reg.BEAT_CONF_MAX 0).wr Reg.BEAT_SERVO_CTRL (g.rd Reg.BEAT_SERVO_CTRL &&& 0x001F010F#32))))) ∧
    (s.hw.admits p Pg.beat 0x0D0 = true →
      (s.hw.pg.bit Reg.BEAT_LEN_NEXT 31 = false → s.hw.anyLaunch = false → (s.hw.pg.rd64 Reg.BEAT_SET_AT_LO).toNat % s.hw.pg.beatLen = 0 →
        s.hw.pg.fbc.toNat + 2 * s.hw.pg.beatLen ≤ (s.hw.pg.rd64 Reg.BEAT_SET_AT_LO).toNat →
        exec (.beatSetArm p) s = .next (s.done (Hw.onPg fun g => g.setb Reg.BEAT_SET_CTRL 31 true))) ∧
      exec (.beatSetDisarm p) s = .next (s.done (Hw.onPg fun g => g.setb Reg.BEAT_SET_CTRL 31 false))) ∧
    (s.hw.admits p Pg.beat 0x054 = true → ∀ k : Fin 32,
      (s.hw.anyLaunch = false → s.hw.pg.bit Reg.BEAT_SET_CTRL 31 = false → 10 ≤ k.val → k.val ≤ 17 →
        (s.hw.pg.rd64 Reg.BEAT_LEN_AT_LO).toNat % s.hw.pg.beatLen = 0 → (s.hw.pg.rd64 Reg.BEAT_LEN_AT_LO).toNat % 2 ^ k.val = 0 →
        s.hw.pg.fbc.toNat + 2 * s.hw.pg.beatLen ≤ (s.hw.pg.rd64 Reg.BEAT_LEN_AT_LO).toNat →
        exec (.beatLenArm p k) s = .next (s.done (Hw.onPg (Pages.wr Reg.BEAT_LEN_NEXT (BitVec.ofNat 32 (2 ^ 31 + k.val)))))) ∧
      exec (.beatLenDisarm p k) s = .next (s.done (Hw.onPg (Pages.wr Reg.BEAT_LEN_NEXT (BitVec.ofNat 32 k.val)))))

/-- The commands of the Dareder in BEAT_CMD: REVOTE sends the oldest round that has not ended again, WITHDRAW ends the open rounds of a running launch
without a result and holds the context, RESUME names the beat at which a held context goes on; a code that names no command raises CMD_REFUSED and is
flagged STATE. (Readings of the model: log entries 44 and 87.) -/
def Obligations.BeatCommands : Prop :=
  ∀ (s : State) (p : Path) (c : Byte), s.hw.up = true → s.hw.pg.unarmed Pg.beat = true → s.hw.admits p Pg.beat 0x0AC = true →
    s.hw.pg.works Pg.beat = true →
    (∀ r : Round, (s.hw.ctx c.toNat).rounds.find? (fun r => r.vote.isSome && !r.ended) = some r →
      exec (.revote p c) s = .next (s.done fun h => (h.modRound c.toNat r.beat fun r => { r with sent := [], withdrawn := false }).roundGo c.toNat
        (((h.ctx c.toNat).launch.map (·.group)).getD 255) r.beat (h.pg.fbc.toNat - h.servo.top))) ∧
    ((s.hw.ctx c.toNat).launch.any (fun l => l.running) = true →
      exec (.withdraw p c) s = .next (s.done fun h =>
        let openR (r : Round) : Bool := r.vote.isSome && !r.ended && !r.withdrawn
        let h1 := (h.discardSpec c.toNat).modCtx c.toNat fun x =>
          { x with rounds := x.rounds.map fun r => { r with withdrawn := r.withdrawn || openR r } }
        ((h1.onPg (Pages.sat Reg.BEAT_WDRAW_CNT ((h.ctx c.toNat).rounds.filter openR).length)).enterHold c.toNat 2 0).showParts)) ∧
    (exec (.resume p c) s = .next (s.done fun h => h.modLaunch c.toNat fun l =>
      if l.hold ≠ 0 then { l with resumeAt := some ((h.pg.rd64 Reg.BEAT_CMD_ARG_LO).toNat % 2 ^ 48) } else l)) ∧
    (∀ code : Fin 13, exec (.beatCmdRefused p code c) s = .next (s.done fun h => (h.onPg (Pages.raise Pg.beat 7 0 none)).flag Pg.beat 0x0AC p .state))

/-- VOTE and RESULT packets that the device accepts while the BEAT page works: a vote of a neighbour joins its round, which moves on; a result is
passed on along the reduction's paths and delivered here. (Readings of the model: log entry 43.) -/
def Obligations.VotesAndResults : Prop :=
  ∀ (s : State) (src : PktSrc) (k : Packet) (t : Hw), s.hw.up = true → t.pg.works Pg.beat = true →
    (s.hw.accepts (fun k => k.opc = 0x18) src k t →
      (∀ (ax : Nat) (lat : W16), t.pg.fromAxis k.src = some ax → exec (.vote ⟨src, lat⟩) s = .next (s.done fun _ =>
        let g := ofBytesLE (slice 4 1 k.payload)
        let v := (ax, ofBytesLE (slice 0 2 k.payload), ofBytesLE (slice 2 2 k.payload))
        let h1 := if (t.ctx k.ctx).rounds.any fun r => r.beat = k.addr then t
          else t.modCtx k.ctx fun y => { y with rounds := y.rounds ++ [⟨k.addr, 0, none, [], [], false, false, false⟩] }
        (h1.modRound k.ctx k.addr fun r =>
          { r with sent := if r.got.any fun y => y.1 = ax then [] else r.sent, got := v :: r.got.filter fun y => y.1 ≠ ax }).roundGo k.ctx g k.addr lat.toNat))) ∧
    (∀ lat : W16, s.hw.pg.isDareder = false → s.hw.accepts (fun k => k.opc = 0x19) src k t →
      exec (.result src lat) s = .next (s.done fun _ =>
        let got := (((t.ctx k.ctx).rounds.find? fun r => r.beat = k.addr).map (·.got)).getD []
        ((t.spread k.ctx k.addr got k.payload).result k.ctx k.addr (ofBytesLE (slice 5 1 k.payload)) (ofBytesLE (slice 0 2 k.payload))
          lat.toNat).pumpAll))

/-- A replay of the Input Journal starts at JRNL_TAIL, and JRNL_TAIL moves to a multiple of 32 B that lies from the tail up to the head. (Readings of
the model: log entries 37 and 85.) -/
def Obligations.JournalRegisters : Prop :=
  ∀ (s : State) (p : Path), s.hw.up = true →
    (s.hw.admits p Pg.jrnl 0x040 = true → s.hw.pg.bit Reg.JRNL_CTRL 1 = false →
      exec (.jrnlReplayStart p) s = .next (s.done fun h => (h.onPg (Pages.wr Reg.JRNL_CTRL (BitVec.ofNat 32 (2 + (h.pg.bit Reg.JRNL_CTRL 0).toNat)))).jStart)) ∧
    (∀ v : W64, s.hw.admits p Pg.jrnl 0x060 = true → s.hw.pg.tailBad v.toNat = false →
      exec (.jrnlTailWrite p v) s = .next (s.done (Hw.onPg (Pages.wr64 Reg.JRNL_TAIL_LO v))))

/-! ## Register space (R72 to R101) -/

/-- A 32-bit write that the access rules admit, at an address that leads to a register: in a page whose registers have no rule of their own it stores
the written fields; in any other it does what that page does with it, or is refused and flagged STATE. (Readings of the model: log entry 68.) -/
def Obligations.AdmittedRegisterWrite : Prop :=
  ∀ (s : State) (p : Path) (a : BitVec 26) (pg off : Nat) (r : RegRow) (w : W32), s.hw.up = true → a.toNat % 4 = 0 →
    s.hw.pg.target p a.toNat = .page pg off → s.hw.admits p pg off = true → regRow pg off = some r →
    (pageKind pg ∈ [PageKind.dev, .scr, .ntc, .ftc, .bcu, .clk, .therm, .ras, .tele] →
      exec (.registerWrite p a true (bytesLE 4 w.toNat)) s = .next (s.done (Hw.onPg (Pages.upd (regKey pg off) fun old => r.mix old w)))) ∧
    ((s.hw.blockWrite WarmIn.good pg off r w).1 = true →
      exec (.registerWrite p a true (bytesLE 4 w.toNat)) s = .next (s.done fun h => (h.blockWrite WarmIn.good pg off r w).2)) ∧
    ((s.hw.blockWrite WarmIn.good pg off r w).1 = false →
      exec (.registerWrite p a true (bytesLE 4 w.toNat)) s = .next (s.done fun h => (h.blockWrite WarmIn.good pg off r w).2.flag pg off p .state))

/-- A write that the access rules turn away changes no register but the page's PG_ACC_ERR: one of a register that only the management VC may write, on
any other path; one of a read-only register; one that LOCK holds; one with a byte enable clear or of no whole word. (Readings of the model: log entry
68.) -/
def Obligations.TurnedAwayWrites : Prop :=
  ∀ (s : State) (p : Path) (a : BitVec 26) (pg off : Nat) (w : W32), s.hw.up = true → s.hw.pg.target p a.toNat = .page pg off →
    (∀ r : RegRow, a.toNat % 4 = 0 → s.hw.pg.inReset pg = false → (hasHeader pg = true → 0x40 ≤ off) → regRow pg off = some r → homePage pg off = pg →
      (r.who = .dareder → p ≠ .mgmt →
        exec (.registerWrite p a true (bytesLE 4 w.toNat)) s = .next (s.done fun h => h.flag pg off p .hostDenied)) ∧
      (r.who.denies p = none → r.kind = .plain → r.wr = 0 → r.c1 = 0 → r.wo = 0 →
        exec (.registerWrite p a true (bytesLE 4 w.toNat)) s = .next (s.done fun h => h.flag pg off p .ro)) ∧
      (r.who.denies p = none → r.kind = .locked → r.wr ≠ 0 → s.hw.pg.bit (Reg.PG_CTRL pg) 2 = true →
        exec (.registerWrite p a true (bytesLE 4 w.toNat)) s = .next (s.done fun h => h.flag pg off p .locked))) ∧
    (∀ (full : Bool) (bs : List Byte), (full && decide (a.toNat % 4 = 0) && decide (bs.length % 4 = 0)) = false →
      exec (.registerWrite p a full bs) s = .next (s.done fun h => h.flag pg off p .narrow))

/-- Accesses with an effect of their own: a hole page raises HOLE and reads zero; a 64-bit read of BEAT_FBC takes the snapshot of its high word; a
write of either word of an event-counter pair clears the pair. (Readings of the model: log entry 71.) -/
def Obligations.SpecialAccesses : Prop :=
  ∀ (s : State) (p : Path), s.hw.up = true →
    (∀ a : BitVec 26, s.hw.pg.target p (a.toNat / 4 * 4) = .hole →
      exec (.holeAccess p a true) s = .next (s.done (Hw.onPg (Pages.holeAt p (a.toNat / 4 * 4)))) ∧
      exec (.holeAccess p a false) s = .next (s.done fun h =>
        { (h.onPg (Pages.holeAt p (a.toNat / 4 * 4))) with reads := (p, [0, 0, 0, 0]) :: h.reads })) ∧
    (p ∈ [Path.host 0, .chaise, .mgmt] → s.hw.pg.inReset Pg.beat = false →
      exec (.rsnSnapshotRead p 0x1040#26 8) s = .next (s.done fun h =>
        { (h.onPg fun g => { g with snap := tset (fun _ => 0) g.snap (snapKey Pg.beat 0x040 p) (hi32 g.fbc) }) with
          reads := (p, bytesLE 8 h.pg.fbc.toNat) :: h.reads })) ∧
    (∀ (a : BitVec 26) (w : W32) (pg off : Nat) (r : RegRow), s.hw.pg.target p (a.toNat / 4 * 4) = .page pg off → regRow pg off = some r →
      s.hw.pg.inReset pg = false → (hasHeader pg = true → 0x40 ≤ off) → homePage pg off = pg → r.who.denies p = none →
      (r.kind = .eventLo → exec (.counterClearWrite p a w) s = .next (s.done (Hw.onPg (Pages.wr64 (regKey pg off) 0)))) ∧
      (r.kind = .eventHi → exec (.counterClearWrite p a w) s = .next (s.done (Hw.onPg (Pages.wr64 (regKey pg (off - 4)) 0)))))

/-- The fields of PG_CTRL and PG_INT_FORCE of a page with the common header that is not under reset. CLR_CNT, LOCK and FENCE leave ENABLE as it is; a
block reset ends with IN_RESET cleared. (Readings of the model: log entries 63, 65, 66, 67 and 88.) -/
def Obligations.PageHeaderCommands : Prop :=
  ∀ (s : State) (p : Path) (n : BitVec 14) (pg : Nat), s.hw.up = true → hasHeader pg = true →
    (s.hw.pg.inReset pg = false → s.hw.pg.target p (4096 * n.toNat) = .page pg 0 → s.hw.pg.target p (4096 * n.toNat + 8) = .page pg 8 →
      (s.hw.pg.blockResetBad pg = false →
        exec (.blockReset p n) s = .next (s.done fun h => ((h.enablePage pg (h.pg.enabled pg)).blockReset pg).2)) ∧
      exec (.clrCnt p n) s = .next (s.done fun h => (h.clrCnt pg).enablePage pg (h.pg.enabled pg)) ∧
      exec (.lock p n) s = .next (s.done fun h => (h.onPg (Pages.setb (Reg.PG_CTRL pg) 2 true)).enablePage pg (h.pg.enabled pg)) ∧
      exec (.fence p n) s = .next (s.done fun h => (h.fencePage pg).enablePage pg (h.pg.enabled pg)) ∧
      ∀ on : Bool, exec (.enable p n on) s = .next (s.done (Hw.enablePage pg on))) ∧
    (s.hw.pg.inReset pg = false → s.hw.pg.target p (4096 * n.toNat + 0x18) = .page pg 0x18 → ∀ w : W32,
      exec (.pgIntForce p n w) s = .next (s.done (Hw.onPg (Pages.upd (Reg.PG_INT_STAT pg) fun o => o ||| (w &&& 0x7FFFFFFF#32))))) ∧
    (s.hw.pg.inReset pg = true → s.hw.pg.targetPf (4096 * n.toNat) = .page pg 0 →
      exec (.blockResetDone n) s = .next (s.done (Hw.onPg (Pages.setb (Reg.PG_STAT pg) 31 false))))

/-- PG_STAT as it reads in every page with the common header. -/
def Obligations.PageStatusReads : Prop :=
  ∀ (h : Hw) (p : Path) (pg : Nat), hasHeader pg = true →
    (h.readReg p pg 0x00C).2 = h ∧
    wbit (h.readReg p pg 0x00C).1 31 = h.pg.inReset pg ∧ wbit (h.readReg p pg 0x00C).1 30 = h.pg.fenced pg ∧
    wbit (h.readReg p pg 0x00C).1 29 = h.pg.bit (Reg.PG_CTRL pg) 2 ∧ wbit (h.readReg p pg 0x00C).1 28 = h.pg.enabled pg ∧
    ∀ i, i < 28 → wbit (h.readReg p pg 0x00C).1 i = h.pg.bit (Reg.PG_STAT pg) i

/-- An event-counter pair counts in bits [62:0]; passing 2^63 - 1 wraps and sets OVF, bit 63, which stays; no other register changes. -/
def Obligations.EventCountersWrap : Prop :=
  ∀ (p : Pages) (k n : Nat), n < 2 ^ 63 →
    ((p.count k n).rd64 k).toNat % 2 ^ 63 = ((p.rd64 k).toNat % 2 ^ 63 + n) % 2 ^ 63 ∧
    wbit ((p.count k n).rd64 k) 63 = (wbit (p.rd64 k) 63 || decide (2 ^ 63 ≤ (p.rd64 k).toNat % 2 ^ 63 + n)) ∧
    ∀ j, j ≠ k → j ≠ k + 1 → (p.count k n).rd j = p.rd j

/-! ## Cores (R130 to R282) -/

/-- Every instruction that a unit's queue takes: the matrix, vector, data movement, fabric, collective and update instructions. Where the core takes
it, it joins the queue of its place behind what is there, and the core goes on with what it can start. (Readings of the model: log entries 24 and 27.)
-/
def Obligations.QueuedInstructions : Prop :=
  ∀ (s : State) (c : Instr) (l : Fin 96) (i : CoreInsn) (cx : Nat), s.hw.up = true → coreInsn? c = some (l, i) → i.wf = true → i.place < 4 →
    s.hw.takes l.val cx i = true →
    exec c s = .next (s.done fun h => (h.enqueue (h.pg.physOf l.val) i).pumpCore (h.ciOf l.val cx))

/-- The head of a queue starts when it can: the array's and the vector unit's heads run and leave their queues; the head of the XFER queue is issued,
and stands as outstanding until its last byte, with the pages of the core's own scratch that it has still to write. (Readings of the model: log
entries 25 and 40.) -/
def Obligations.QueueHeadsRun : Prop :=
  (∀ (ci : CInfo) (n idx : Nat) (i : CoreInsn) (rest : List (Nat × CoreInsn)) (v w : CV), v.core.failed = false → v.core.mStop = false →
    v.core.mWait = false → v.mxaHalted ci = false → v.core.mayStart 0 = true → v.core.mxq = (idx, i) :: rest → mxaHeld ci i v = false →
    mxaStart ci idx i v = .ran w → w.core.mStop = false →
    mxaPump ci (n + 1) v = mxaPump ci n (w.onCore fun c => { c with mxq := rest, ord := eraseKind 0 c.ord })) ∧
  (∀ (ci : CInfo) (n idx : Nat) (i : CoreInsn) (rest : List (Nat × CoreInsn)) (v w : CV), v.core.failed = false → v.core.tStop = false →
    v.core.tWait = false → v.pg.bit (Reg.TVU_DBG_CTRL ci.n) 30 = false → v.core.mayStart 1 = true → v.core.tvq = (idx, i) :: rest →
    tvuStart ci idx i v = .ran w → w.core.tStop = false →
    tvuPump ci (n + 1) v = tvuPump ci n (w.onCore fun c => { c with tvq := rest, ord := eraseKind 1 c.ord })) ∧
  (∀ (ci : CInfo) (n idx : Nat) (i : CoreInsn) (rest : List (Nat × CoreInsn)) (h g : Hw) (out : Option OutKind),
    (h.core ci.n).failed = false → (h.core ci.n).xStop = false → (h.core ci.n).exc = false → (h.core ci.n).spec = none →
    (h.core ci.n).mayStart 2 = true → (h.core ci.n).held = (idx, i) :: rest → i.isLocalFence = false → h.dmaPar ci i = (false, h) →
    h.xgo ci idx i = .ok out g →
    h.xpump ci (n + 1) = Hw.xpump ci n (g.modCore ci.n fun c => ({ c with
      held := rest, outs := c.outs ++ (match out with | some k => [⟨k, i.cg, idx, h.landPages ci i⟩] | none => []) } : Core).started 2))

/-- The control instructions that end at once, where the core takes them: counters, comparators, loops, branches and the end of a block act on the
block's own copies, and the core goes on. (Readings of the model: log entries 24 and 27.) -/
def Obligations.ControlAtOnce : Prop :=
  ∀ (s : State) (l : Fin 96) (cx : Nat), s.hw.up = true →
    (∀ (d : Fin 16) (clr : Bool) (src : Sop), clr = false ∨ src.noFlg = true → s.hw.takes l.val cx (.cset d clr src) = true →
      (CoreInsn.cset d clr src).wf = true → exec (.cset l d clr src) s = .next (s.done fun h =>
        (h.onCv (h.ciOf l.val cx) fun v => v.onCore fun c => (c.setCtr d (src.val (h.ciOf l.val cx) v)).next).pumpCore (h.ciOf l.val cx))) ∧
    (∀ (d : Fin 16) (t : Bool), s.hw.takes l.val cx (.cset d true (.flg t)) = true → (CoreInsn.cset d true (.flg t)).wf = true →
      exec (.cset l d true (.flg t)) s = .next (s.done fun h =>
        (h.onCv (h.ciOf l.val cx) fun v =>
          let w := Sop.val (.flg t) (h.ciOf l.val cx) v
          ((v.onCore (Core.setCtr d w)).flagClr (h.ciOf l.val cx) t w.toNat).onCore Core.next).pumpCore (h.ciOf l.val cx))) ∧
    (∀ (d : Fin 16) (src : Sop), s.hw.takes l.val cx (.cinc d src) = true → (CoreInsn.cinc d src).wf = true →
      exec (.cinc l d src) s = .next (s.done fun h =>
        (h.onCv (h.ciOf l.val cx) fun v => v.onCore fun c => (c.setCtr d (c.c d + src.val (h.ciOf l.val cx) v)).next).pumpCore (h.ciOf l.val cx))) ∧
    (∀ (d : Fin 8) (a : Fin 16) (r : Rel) (src : Sop), s.hw.takes l.val cx (.ccmp d a r src) = true → (CoreInsn.ccmp d a r src).wf = true →
      exec (.ccmp l d a r src) s = .next (s.done fun h =>
        (h.onCv (h.ciOf l.val cx) fun v => v.onCore fun c =>
          (c.setCmp d (r.holds (c.c a) (src.val (h.ciOf l.val cx) v))).next).pumpCore (h.ciOf l.val cx))) ∧
    (∀ (a : Fin 16) (t : BitVec 24), s.hw.takes l.val cx (.loop a t) = true → (CoreInsn.loop a t).wf = true →
      exec (.loop l a t) s = .next (s.done fun h =>
        (h.onCv (h.ciOf l.val cx) fun v => v.onCore fun c =>
          if c.c a - 1 ≠ 0 then (c.setCtr a (c.c a - 1)).goto t.toNat else (c.setCtr a 0).next).pumpCore (h.ciOf l.val cx))) ∧
    (∀ t : BitVec 24, s.hw.takes l.val cx (.br none t) = true → (CoreInsn.br none t).wf = true →
      exec (.br l none t) s = .next (s.done fun h =>
        (h.onCv (h.ciOf l.val cx) fun v => v.onCore (Core.goto t.toNat)).pumpCore (h.ciOf l.val cx))) ∧
    (∀ (k : Fin 8) (neg : Bool) (t : BitVec 24), s.hw.takes l.val cx (.br (some (k, neg)) t) = true → (CoreInsn.br (some (k, neg)) t).wf = true →
      exec (.br l (some (k, neg)) t) s = .next (s.done fun h =>
        (h.onCv (h.ciOf l.val cx) fun v => v.onCore fun c => if c.k k = neg then c.next else c.goto t.toNat).pumpCore (h.ciOf l.val cx))) ∧
    (∀ n : BeatNext, s.hw.takes l.val cx (.beat n) = true → (CoreInsn.beat n).wf = true →
      exec (.beat l n) s = .next (s.done fun h =>
        (h.onCv (h.ciOf l.val cx) fun v => v.onCore (Core.endBlock n)).pumpCore (h.ciOf l.val cx)))

/-- The control instructions that may hold dispatch, where the core takes them in a block that is not speculative: WAITARR, WAIT and FENCE make the
core wait; SIGNAL adds to the event counter, which ends the WAITs it meets, and posts an event of kind 1 when it names the host; GCALL queues a call,
and a SYNC call makes the core wait; in a speculative block each of them waits for the commit first. A FENCE of scope LOCAL never holds dispatch:
where matrix, vector or Gig work dispatched before it has still to start or return, what follows it starts after that. (Readings of the model: log
entries 24 and 40.) -/
def Obligations.ControlThatHolds : Prop :=
  ∀ (s : State) (l : Fin 96) (cx : Nat), s.hw.up = true →
    let n := s.hw.pg.physOf l.val
    let ci := s.hw.ciOf l.val cx
    let v : CV := { pg := s.hw.pg, core := s.hw.core n }
    ((s.hw.core n).spec = none →
      (∀ t : Option W16, s.hw.takes l.val cx (.waitarr t) = true →
        exec (.waitarr l t) s = .next (s.done fun h => (h.modCore n fun c => { c.next with wait := some (.arr t) }).pumpCore ci)) ∧
      (∀ (e : Fin 16) (x : Sop), s.hw.takes l.val cx (.wait e x) = true → (CoreInsn.wait e x).wf = true →
        exec (.wait l e x) s = .next (s.done fun h => (h.modCore n fun c => { c.next with wait := some (.event e (x.val ci v)) }).pumpCore ci)) ∧
      (∀ (sc : FScope) (g : BitVec 8), sc ≠ .local → s.hw.takes l.val cx (.fence sc g) = true → (CoreInsn.fence sc g).wf = true →
        exec (.fenceInsn l sc g) s = .next (s.done fun h =>
          ((h.modCore n fun c => { c.next with wait := some (.fence sc g) }).fenceFlush ci (.fence sc g)).pumpCore ci)) ∧
      (∀ (e : Fin 16) (x : Sop), s.hw.takes l.val cx (.signal false e x) = true → (CoreInsn.signal false e x).wf = true →
        exec (.signal l false e x) s = .next (s.done fun h =>
          (((h.onPg fun p => p.wr64 (Reg.CTX_E cx e.val) (p.rd64 (Reg.CTX_E cx e.val) + x.val ci v)).modCore n Core.next).wakeWaiters cx).pumpCore ci)) ∧
      (∀ (e : Fin 16) (x : Sop), s.hw.takes l.val cx (.signal true e x) = true → (CoreInsn.signal true e x).wf = true →
        exec (.signal l true e x) s = .next (s.done fun h =>
          let w := h.pg.rd64 (Reg.CTX_E cx e.val) + x.val ci v
          (((((h.onPg (Pages.wr64 (Reg.CTX_E cx e.val) w)).modCore n Core.next).wakeWaiters cx).event 1 cx (bytesLE 4 e.val ++ bytesLE 8 w.toNat))).pumpCore ci)) ∧
      (∀ o : GcallOp, s.hw.takes l.val cx (.gcall o) = true → (CoreInsn.gcall o).wf = true →
        exec (.gcall l o) s = .next (s.done fun h => (h.modCore n fun c =>
          { c.next with gq := c.gq ++ [⟨o.routine.toNat, s.hw.routineLen cx o.routine.toNat, o.args.map fun x => x.val ci v, o.retv, o.sync, s.hw.nextIdx n⟩],
                        ord := c.ord ++ [5], wait := if o.sync then some .gcall else c.wait }).pumpCore ci))) ∧
    (∀ g : BitVec 8, s.hw.takes l.val cx (.fence .local g) = true →
      exec (.fenceInsn l .local g) s = .next (s.done fun h => (h.modCore n fun c =>
        { c.next with ord := if c.ord.all fun k => decide (k ≠ 0 ∧ k ≠ 1 ∧ k ≠ 5) then c.ord else c.ord ++ [4] }).pumpCore ci)) ∧
    (∀ (c : Instr) (i : CoreInsn), coreInsn? c = some (l, i) → i.wf = true → i.place = 4 → i.isScalar = false → i.isLocalFence = false →
      (s.hw.core n).spec.isSome = true → s.hw.takes l.val cx i = true →
      exec c s = .next (s.done fun h => (h.modCore n fun c => { c with wait := some (.commit (s.hw.nextIdx n) i) }).pumpCore ci))

/-- The Gig's arithmetic where the Gig runs: RD takes the result modulo 2^64, G0 reads zero and takes nothing, and the routine goes on; a division by
zero raises DIVZ, code 4. (Readings of the model: log entries 6 and 8.) -/
def Obligations.GigArithmetic : Prop :=
  ∀ (s : State) (l : Fin 96) (cx : Nat) (rd ra : Fin 32) (b : GSrc), s.hw.up = true → s.hw.gigRuns l.val cx = true →
    let ci := s.hw.ciOf l.val cx
    let x := (s.hw.core ci.n).g ra
    let y := b.val (s.hw.core ci.n)
    (∀ op : GAlu, exec (.addSubAndOrXor l op rd ra b) s = .next (s.done fun h => (h.onCv ci (CV.gigSet ci rd
      (match op with | .add => x + y | .sub => x - y | .and => x &&& y | .or => x ||| y | .xor => x ^^^ y))).pumpCore ci)) ∧
    (∀ op : GShift, exec (.shlShrSra l op rd ra b) s = .next (s.done fun h => (h.onCv ci (CV.gigSet ci rd
      (match op with | .shl => x <<< (y.toNat % 64) | .shr => x >>> (y.toNat % 64) | .sra => x.sshiftRight (y.toNat % 64)))).pumpCore ci)) ∧
    (∀ sg : Bool, exec (.sltSltu l sg rd ra b) s = .next (s.done fun h => (h.onCv ci (CV.gigSet ci rd
      (if (if sg then x.slt y else x.ult y) then 1 else 0))).pumpCore ci)) ∧
    exec (.mul l rd ra b) s = .next (s.done fun h => (h.onCv ci (CV.gigSet ci rd (x * y))).pumpCore ci) ∧
    (∀ op : GDiv, y ≠ 0 → exec (.divRem l op rd ra b) s = .next (s.done fun h => (h.onCv ci (CV.gigSet ci rd (op.eval x y))).pumpCore ci)) ∧
    (∀ op : GDiv, y = 0 → exec (.divRem l op rd ra b) s = .next (s.done fun h => (h.onCv ci fun v => v.gigExc ci 4).pumpCore ci)) ∧
    (∀ imm : W32, exec (.lih l rd imm) s = .next (s.done fun h =>
      (h.onCv ci (CV.gigSet ci rd (join32 (lo32 ((s.hw.core ci.n).g rd)) imm))).pumpCore ci))

/-- What setting a general register of the Gig does to its core and to register space: the register reads the value, G0 reads zero, every other
register and all the rest of the core but the routine's position stays, and one instruction is counted. -/
def Obligations.GigSetFrame : Prop :=
  ∀ (ci : CInfo) (rd : Fin 32) (w : W64) (v : CV),
    (v.gigSet ci rd w).core.g rd = (if rd.val = 0 then 0 else w) ∧
    (∀ k : Nat, k ≠ rd.val → (v.gigSet ci rd w).core.g k = v.core.g k) ∧
    (v.gigSet ci rd w).core.grun = v.core.grun.map (fun r => { r with pc := r.pc + 1, held := false }) ∧
    { (v.gigSet ci rd w).core with greg := v.core.greg, grun := v.core.grun } = v.core ∧
    (v.gigSet ci rd w).pg = v.pg.count (Reg.GIG_INSN_LO ci.n) 1

/-- The Gig's loads, stores, branches and reads of parameters where the Gig runs. A local-store or scratch access that leaves its bounds or is not
aligned raises RANGE 2 or ALIGN 3 and moves nothing; a block form that no valid code holds raises ILLEGAL 1; a scratch access that meets pages which
an earlier matrix instruction has still to write waits. (Readings of the model: log entry 8.) -/
def Obligations.GigMemoryAndBranches : Prop :=
  ∀ (s : State) (l : Fin 96) (cx : Nat) (rd ra : Fin 32), s.hw.up = true → s.hw.gigRuns l.val cx = true →
    let ci := s.hw.ciOf l.val cx
    let c := s.hw.core ci.n
    (∀ m : GMem, m.illegal rd false = false → m.bad c 0 65536 = none →
      exec (.ldlStl l false rd m) s = .next (s.done fun h => (h.onCv ci (CV.gigSet ci rd
        (BitVec.ofNat 64 (ofBytesLE (tgetList (fun _ => 0) c.ls (m.addr c) m.size))))).pumpCore ci) ∧
      exec (.ldlStl l true rd m) s = .next (s.done fun h => (h.onCv ci fun v =>
        (v.onCore fun k => { k with ls := tsetList (fun _ => 0) k.ls (m.addr c) (bytesLE m.size (c.g rd).toNat) }).gigNext ci (· + 1)).pumpCore ci)) ∧
    (∀ m : GMem, m.illegal rd true = false → m.bad c ci.winLo ci.winHi = none →
      (∀ r : GRun, c.grun = some r → CV.gigHeld ci r m { pg := s.hw.pg, core := c } = false) →
      (exec (.ldsSts l true rd m) s = .next (s.done fun h => (h.onCv ci fun v =>
        (v.scrWriteI ci (m.addr c) (if m.blk then c.g8 rd else bytesLE m.size (c.g rd).toNat)).gigNext ci (· + 1)).pumpCore ci)) ∧
      (c.scrFlips = [] → c.spec = none → m.blk = false →
        exec (.ldsSts l false rd m) s = .next (s.done fun h => (h.onCv ci (CV.gigSet ci rd
          (BitVec.ofNat 64 (ofBytesLE ((rangeFrom (m.addr c) m.size).map c.byteC))))).pumpCore ci))) ∧
    (∀ (st : Bool) (m : GMem) (r : GRun), m.illegal rd true = false → m.bad c ci.winLo ci.winHi = none → c.grun = some r →
      CV.gigHeld ci r m { pg := s.hw.pg, core := c } = true →
      exec (.ldsSts l st rd m) s = .next (s.done fun h => (h.onCv ci CV.gigHold).pumpCore ci)) ∧
    (∀ (st : Bool) (m : GMem), (m.illegal rd false = true → exec (.ldlStl l st rd m) s = .next (s.done fun h => (h.onCv ci fun v => v.gigExc ci 1).pumpCore ci)) ∧
      (m.illegal rd true = true → exec (.ldsSts l st rd m) s = .next (s.done fun h => (h.onCv ci fun v => v.gigExc ci 1).pumpCore ci))) ∧
    (∀ (st : Bool) (m : GMem) (e : Nat), m.illegal rd false = false → m.bad c 0 65536 = some e →
      exec (.ldlStl l st rd m) s = .next (s.done fun h => (h.onCv ci fun v => v.gigExc ci e).pumpCore ci)) ∧
    (∀ (st : Bool) (m : GMem) (e : Nat), m.illegal rd true = false → m.bad c ci.winLo ci.winHi = some e →
      exec (.ldsSts l st rd m) s = .next (s.done fun h => (h.onCv ci fun v => v.gigExc ci e).pumpCore ci)) ∧
    (∀ p : BitVec 8, exec (.ldp l rd p) s = .next (s.done fun h => (h.onCv ci (CV.gigSet ci rd (ci.p p.toNat))).pumpCore ci)) ∧
    (∀ off : BitVec 12, exec (.ldcap l rd off) s = .next (s.done fun h =>
      (h.onCv ci (CV.gigSet ci rd ((s.hw.pg.ctxCap cx off.toNat).zeroExtend 64))).pumpCore ci)) ∧
    (∀ (op : GBr) (rb : Option (Fin 32)) (imm : W32), exec (.gigBranch l op ra rb imm) s = .next (s.done fun h => (h.onCv ci fun v =>
      let y : W64 := match rb with | some b => c.g b | none => imm.signExtend 64
      v.gigNext ci fun pc =>
        if (match op with
          | .beq => c.g ra = y | .bne => c.g ra ≠ y | .blt => (c.g ra).slt y | .bge => !(c.g ra).slt y
          | .bltu => (c.g ra).ult y | .bgeu => !(c.g ra).ult y | .j => true : Bool)
        then ((pc : Int) + imm.toInt).toNat else pc + 1).pumpCore ci))

/-- The Gig's calls, FIFO and waits: a queued call starts with its arguments in G1 on; RET writes G1 to the return counter and ends the routine; POPF
takes the next entry; WAITF waits for one and WAITF_WAKE ends the wait; MFLUSH and GIG_FIFO_CTRL empty the FIFO; TRAP raises code 6; a POPF of no
legal register, and any step past the routine's code, raise ILLEGAL 1. (Readings of the model: log entries 8 and 30.) -/
def Obligations.GigCallsAndFifo : Prop :=
  ∀ (s : State) (l : Fin 96) (cx : Nat), s.hw.up = true →
    let ci := s.hw.ciOf l.val cx
    let c := s.hw.core ci.n
    (s.hw.runsOn l.val cx = true → c.failed = false → c.gStop = false → s.hw.pg.bit (Reg.GIG_DBG_CTRL ci.n) 30 = false →
      (∀ (g : GCallRec) (rest : List GCallRec), c.grun = none → c.gq = g :: rest → s.hw.pg.enabled (Pg.gig ci.n) = true →
        exec (.gcallDispatch l) s = .next (s.done fun h => (h.onCv ci fun v => v.onCore fun k =>
          { k with gq := rest, grun := some ⟨g, 0, false, false, false⟩,
                   greg := g.args.zipIdx.foldl (fun t a => tset (fun _ => 0) t (a.2 + 1) a.1) [] }).pumpCore ci)) ∧
      (∀ r : GRun, c.grun = some r → r.waiting = true → (c.fifo ≠ [] ∨ r.woken = true) →
        exec (.waitfWake l) s = .next (s.done fun h => (h.onCv ci fun v =>
          (v.onCore fun k => { k with grun := some { r with waiting := false, woken := false } }).gigNext ci (· + 1)).pumpCore ci)) ∧
      (∀ r : GRun, c.grun = some r → r.waiting = false → r.call.len ≤ r.pc → s.hw.pg.enabled (Pg.gig ci.n) = true → s.hw.pg.unarmed (Pg.gig ci.n) = true →
        exec (.ret l) s = .next (s.done fun h => (h.onCv ci fun v => v.gigExc ci 1).pumpCore ci))) ∧
    (s.hw.gigRuns l.val cx = true →
      (∀ r : GRun, c.grun = some r → exec (.ret l) s = .next (s.done fun h => (h.onCv ci fun v =>
        (v.gigNext ci id).onCore fun k =>
          let k1 := match r.call.retc with | some i => k.setCtr i (k.g 1) | none => k
          { k1 with grun := none, ord := eraseKind 5 k1.ord }).pumpCore ci)) ∧
      (∀ rd : Fin 32, popfOk rd = false → exec (.popf l rd) s = .next (s.done fun h => (h.onCv ci fun v => v.gigExc ci 1).pumpCore ci)) ∧
      (∀ rd : Fin 32, popfOk rd = true → exec (.popf l rd) s = .next (s.done fun h => (h.onCv ci fun v =>
        ((v.fifoPop ci).2.onCore (Core.setG8 rd (v.fifoPop ci).1)).gigNext ci (· + 1)).pumpCore ci)) ∧
      (c.fifo = [] → exec (.waitf l) s = .next (s.done fun h => (h.onCv ci fun v =>
        v.onCore fun k => { k with grun := k.grun.map fun r => { r with waiting := true, woken := false } }).pumpCore ci)) ∧
      (c.fifo ≠ [] → exec (.waitf l) s = .next (s.done fun h => (h.onCv ci fun v => v.gigNext ci (· + 1)).pumpCore ci)) ∧
      exec (.mflush l) s = .next (s.done fun h => (h.onCv ci fun v => (v.fifoFlush ci).gigNext ci (· + 1)).pumpCore ci) ∧
      exec (.trap l) s = .next (s.done fun h => (h.onCv ci fun v => v.gigExc ci 6).pumpCore ci)) ∧
    (∀ (p : Path) (n : Fin 108) (k : Nat), s.hw.admits p (Pg.gig n.val) 0x050 = true → s.hw.pg.logOf n.val = some k →
      exec (.gigFifoFlush p n) s = .next (s.done fun h =>
        let h1 := h.onPg fun g => g.put (Reg.GIG_FIFO_CTRL n.val) 6 0 (g.get (Reg.GIG_FIFO_CTRL n.val) 6 0)
        let cf := h1.ciOf k ((h1.coreCtx k).getD 0)
        h1.onCv cf (CV.fifoFlush cf)))

/-! ## The host's queues (R242 to R256, R438 to R470) -/

/-- The entries of a submission queue that the host interface starts and ends by itself: NOP; ABORT, which ends at once where nothing is to be aborted
and otherwise waits for the boundary, and starts from anywhere in the ring; SEND, whose payload leaves as a MSG packet; HCOPY in both directions, with
its ends checked before a byte moves. Each takes effect where the host answers the read of the entry, which the model leaves free; else the queue is
faulted. (Readings of the model: log entries 23, 42, 49 and 95.) -/
def Obligations.QueueEntries : Prop :=
  ∀ (s : State) (q : BitVec 14) (e : SqEntry), s.hw.up = true →
    let g := s.hw.entryStarted q.toNat e
    (s.hw.entryReady q.toNat 7 e = true →
      exec (.nop q) s = .next (s.done fun h => h.afterHead q.toNat (g.complete e.q e.cookie 7 0))) ∧
    (∀ i c : Nat, s.hw.pg.works Pg.hif = true → s.hw.pg.qOwner q.toNat = some c → s.hw.abortAt q.toNat = some i → e = s.hw.sqRead q.toNat c i →
      e.clean = true →
      let a := s.hw.startedAt q.toNat i e
      ((a.ctx c).launch = none → exec (.abort q) s = .next (s.done fun h => h.afterRead q.toNat i (a.complete q.toNat e.cookie 4 2))) ∧
      (∀ l : Launch, (a.ctx c).launch = some l → l.abort = none → exec (.abort q) s = .next (s.done fun h => h.afterRead q.toNat i
        (a.modLaunch c fun l => { l with abortPend := l.abortPend ++ [(q.toNat, e.cookie)] }))) ∧
      (∀ l : Launch, (a.ctx c).launch = some l → l.abort.isSome = true → exec (.abort q) s = .next (s.done fun h => h.afterRead q.toNat i
        (a.complete q.toNat e.cookie 4 2)))) ∧
    (s.hw.entryReady q.toNat 6 e = true → e.f 20 2 ≤ 4096 → exec (.send q .ok) s = .next (s.done fun h =>
      let bs := g.dev.mem.hostRead (g.pg.ctxFunc e.ctx) (e.f 8 8) (e.f 20 2)
      let h1 := g.onPg (Pages.hostRx (e.f 20 2))
      h.afterHead q.toNat ((h1.inject (h1.pg.mkPacket (e.f 16 2) 0x08 6 e.ctx (h1.pg.ctxGen e.ctx) (512 + e.f 18 2 % 16384 * 1024) 0 (e.f 22 2) true true (crc64 bs) bs 0xFF)).complete
        e.q e.cookie 6 0))) ∧
    (s.hw.entryReady q.toNat 5 e = true → e.f 24 8 ≠ 0 → e.f 24 8 < 2 ^ 32 → ∀ (segs : List Seg) (d : Dev),
      (e.f 1 1 % 2 = 0 → g.dev.translate .host 0xFF e.ctx (e.f 16 8) (e.f 24 8) true = (.ok segs, d) → (Pages.hostRx (e.f 24 8) d.pg).jIgnores e.ctx = false →
        exec (.hcopy q .ok) s = .next (s.done fun h =>
          let bs := d.mem.hostRead (g.pg.ctxFunc e.ctx) (e.f 8 8) (e.f 24 8)
          let h2 := ({ g with dev := d } : Hw).onPg (Pages.hostRx (e.f 24 8))
          h.afterHead q.toNat ((h2.onDev (Dev.writeSegs .host (h2.pg.ctxId e.ctx) segs bs)).journal e.ctx 1 (e.f 16 8) bs |>.complete e.q e.cookie 5 0))) ∧
      (e.f 1 1 % 2 ≠ 0 → g.dev.translate .host 0xFF e.ctx (e.f 16 8) (e.f 24 8) false = (.ok segs, d) → ∀ (bs : List Byte) (d2 : Dev),
        d.readSegs .host (d.pg.ctxId e.ctx) segs = (some bs, d2) → exec (.hcopy q .ok) s = .next (s.done fun h => h.afterHead q.toNat
          (((({ g with dev := d2 } : Hw).onMem (Mem.hostWrite (g.pg.ctxFunc e.ctx) (e.f 8 8) bs)).onPg (Pages.hostTx (e.f 24 8))).complete e.q e.cookie 5 0))) ∧
      (∀ (x : XlReason) (w : Bool), w = decide (e.f 1 1 % 2 = 0) → g.dev.translate .host 0xFF e.ctx (e.f 16 8) (e.f 24 8) w = (.error x, d) → ∀ a : HostAns,
        exec (.hcopy q a) s = .next (s.done fun h => h.afterHead q.toNat (({ g with dev := d } : Hw).complete e.q e.cookie 5 0x0302))))

/-- Doorbells, completions and staged messages: a doorbell waits until it is visible, and the oldest becomes visible while its context's do not wait
for the boundary; the oldest waiting completion is posted once its ring has room; the oldest staged message is dropped when it is too old, and written
when its slots are free and its context is BOUND. (Readings of the model: log entries 23 and 50.) -/
def Obligations.QueueEvents : Prop :=
  ∀ (s : State) (q : BitVec 14), s.hw.up = true → s.hw.pg.works Pg.hif = true →
    (∀ (p : Path) (w : W32), s.hw.pg.seesBell p q.toNat = true → (s.hw.pg.qOwner q.toNat).any s.hw.pg.jIgnores = false →
      exec (.doorbell p q w) s = .next (s.done (Hw.modQueue q.toNat fun x => { x with pend := x.pend ++ [w] }))) ∧
    (∀ (w : W32) (rest : List W32), (s.hw.pg.qOwner q.toNat).any s.hw.dbSync = false → (s.hw.queue q.toNat).pend = w :: rest →
      exec (.doorbellVisible q) s = .next (s.done fun h => (h.modQueue q.toNat fun x => { x with pend := rest }).dbVisible q.toNat w)) ∧
    (∀ (e : List Byte) (rest : List (List Byte)), (s.hw.queue q.toNat).waiting = e :: rest → s.hw.pg.qIs q.toNat 1 = true → s.hw.pg.ringFree q.toNat ≠ 0 →
      exec (.completionPost q) s = .next (s.done fun h =>
        let h1 := (h.modQueue q.toNat fun x => { x with waiting := rest }).ringPut q.toNat 32 31 e
        if h1.stalled (cqSq e) then h1 else h1.onPg (Pages.setb (Reg.Q_STAT (cqSq e)) 28 false))) ∧
    (∀ (c : Nat) (m : Staged) (rest : List Staged), s.hw.pg.qOwner q.toNat = some c → s.hw.pg.ctxSt c = 1 → (s.hw.queue q.toNat).staged = m :: rest →
      exec (.mrqStageTimeout q) s = .next (s.done fun h => ((h.modQueue q.toNat fun x => { x with staged := rest }).mrqDrop q.toNat).showStage q.toNat) ∧
      ((s.hw.queue q.toNat).writing = none → s.hw.pg.qIs q.toNat 2 = true → s.hw.mrqReady q.toNat m = true → s.hw.pg.unarmed Pg.hif = true →
        exec (.mrqSlotsFree q) s = .next (s.done fun h =>
          ((h.modQueue q.toNat fun x => { x with staged := rest }).mrqWrite q.toNat m).showStage q.toNat))) ∧
    (∀ (c : Nat) (m : Staged), s.hw.pg.qOwner q.toNat = some c → s.hw.pg.ctxSt c = 1 → (s.hw.queue q.toNat).writing = some m → s.hw.pg.qIs q.toNat 2 = true →
      exec (.mrqSlotsFree q) s = .next (s.done fun h => (h.modQueue q.toNat fun x => { x with writing := none }).mrqWrite q.toNat m))

/-- Q_CTRL of a queue: RESET of a submission or completion queue that is disabled empties it; RESET of a message queue drops and truncates what it
holds; a write that passes R469's checks enables a queue. -/
def Obligations.QueueControl : Prop :=
  ∀ (s : State) (p : Path) (q : BitVec 14), s.hw.up = true → s.hw.admits p (0x0900 + q.toNat / 64) (q.toNat % 64 * 64) = true →
    (s.hw.pg.bit (Reg.Q_CTRL q.toNat) 31 = false → s.hw.pg.get (Reg.Q_CTRL q.toNat) 29 28 ≠ 2 →
      exec (.queueReset p q) s = .next (s.done fun h =>
        ((h.modQueue q.toNat fun _ => Queue.reset).onPg fun g => (g.put (Reg.Q_HEAD q.toNat) 15 0 0).put (Reg.Q_TAIL q.toNat) 15 0 0).onPg
          (Pages.wr (Reg.Q_CTRL q.toNat) (h.pg.rd (Reg.Q_CTRL q.toNat) &&& 0xB01F1FFF#32)))) ∧
    (s.hw.pg.get (Reg.Q_CTRL q.toNat) 29 28 = 2 →
      exec (.queueReset p q) s = .next (s.done fun h =>
        (h.mrqReset q.toNat).onPg (Pages.wr (Reg.Q_CTRL q.toNat) (h.pg.rd (Reg.Q_CTRL q.toNat) &&& 0xB01F1FFF#32)))) ∧
    (∀ w : W32, wbit w 30 = false → s.hw.pg.bit (Reg.Q_CTRL q.toNat) 31 = false → s.hw.pg.qEnableOk q.toNat (setBit w 31 true) = true →
      exec (.queueEnable p q w) s = .next (s.done (Hw.onPg (Pages.wr (Reg.Q_CTRL q.toNat) (setBit w 31 true &&& 0xB01F1FFF#32)))))

/-- The entries of modules and launches: a LOAD_MODULE joins those that the Chaise serves; its service ends with the translation of the image that it
read once, and with the result buffer, unless CAP_GEN has moved; UNLOAD_MODULE frees a handle that no launch uses; a LAUNCH without a patch list whose
checks pass is accepted. An entry takes effect where the host answers its read, which the model leaves free; else the queue is faulted. (Readings of
the model: log entries 10, 46, 48 and 89.) -/
def Obligations.ModulesAndLaunch : Prop :=
  ∀ (s : State) (q : BitVec 14) (e : SqEntry), s.hw.up = true →
    let g := s.hw.entryStarted q.toNat e
    (s.hw.entryReady q.toNat 1 e = true → exec (.loadModule q) s = .next (s.done fun h => h.afterHead q.toNat
      (g.modLoads fun l => l ++ [⟨e.ctx, g.pg.ctxGen e.ctx, e.q, e.cookie, e.f 1 1, e.f 8 8, e.f 16 8, e.f 24 8, none, 0, 0, 0, false⟩]).loadBegin)) ∧
    (∀ (us : Nat) (r : LoadReq) (rest : List LoadReq) (bs : List Byte), s.hw.hif.loads = r :: rest → r.begun = true → r.image = some bs → r.err = 0 →
      r.capGen = s.hw.pg.rd Reg.CAP_GEN →
      exec (.loadModuleDone us) s = .next (s.done fun h =>
        h.hashed.loadFinish r us (sha384 bs) (h.hashed.loadVerdict r (sha384 bs) bs false))) ∧
    (∀ x : Nat × Nat, s.hw.entryReady q.toNat 3 e = true → (g.ctx e.ctx).handles.find? (fun x => x.1 = e.f 2 1) = some x →
      (g.ctx e.ctx).launch.any (fun l => l.handle = e.f 2 1) = false →
      exec (.unloadModule q) s = .next (s.done fun h => h.afterHead q.toNat
        ((((g.modCtx e.ctx fun y =>
          let hs := y.handles.filter fun z => z.1 ≠ e.f 2 1
          { y with handles := hs, cache := if hs.any (fun z => z.2 = x.2) then y.cache else y.cache.filter fun z => z.1 ≠ x.2 }).showHandles
            e.ctx).showCache).complete e.q e.cookie 3 0))) ∧
    (∀ m : Module, s.hw.entryReady q.toNat 2 e = true → (g.ctx e.ctx).modOf (e.f 2 1) = some m →
      let mode := max (e.f 1 1 % 4) m.minMode
      let slip := if e.f 1 1 / 4 % 2 = 1 then decide (e.f 1 1 / 8 % 2 = 1) else g.pg.bit Reg.BEAT_OVR_CTRL 0
      g.launchPre e mode slip = none → (e.f 3 1 = 0xFF ∨ g.pg.unarmed (Pg.stg 0) = true) → e.f 24 2 = 0 → patchCode m [] = none →
      (g.pg.beatNum.toNat + 4 ≤ e.f 8 6 ∨ (e.f 8 6 = 0 ∧ e.f 3 1 = 0xFF)) →
      exec (.launch q) s = .next (s.done fun h => h.afterHead q.toNat (g.acceptLaunch e m mode slip [])))

/-! ## Units, engines and memory (R143, R163, R279, R283 to R337, R424) -/

/-- What ends or stops the work of units and engines: the load of a tile ends, and BACK holds it; HALT_REQ freezes a unit and RESUME releases one,
while the debug lock is open; a data movement, a collective and an update stand no longer as outstanding at their core once they have ended; an update
unit processes the groups of its next request, where every check of its slot and its path passes; a slot's partition changes while no context of
either has a launch. (Readings of the model: log entries 38, 69 and 90.) -/
def Obligations.UnitEvents : Prop :=
  ∀ s : State, s.hw.up = true →
    (∀ (n : Fin 108) (l cx : Nat) (t : Tile), s.hw.pg.logOf n.val = some l → s.hw.coreCtx l = some cx → (s.hw.core n.val).owner = some cx →
      (s.hw.core n.val).loading = some t →
      exec (.mloadComplete n) s = .next (s.done fun h => (h.modCore n.val fun c => { c with loading := none, back := some t }).pumpPhys n.val)) ∧
    (∀ (p : Path) (n : Fin 108) (u : Fin 3), s.hw.admits p (unitPage u.val n.val) 0x080 = true → s.hw.pg.dbgAvail = true →
      exec (.haltReq p n u) s = .next (s.done fun h => (h.onPg (Pages.upd (dbgCtrlReg u.val n.val) fun old => old ||| 1#32)).dbgFreeze u.val n.val) ∧
      exec (.dbgResume p n u) s = .next (s.done fun h =>
        (h.onPg (Pages.upd (dbgCtrlReg u.val n.val) fun old => old &&& ~~~1#32)).dbgRelease u.val n.val)) ∧
    (∀ (l : Fin 96) (i cx : Nat), s.hw.coreCtx l.val = some cx →
      exec (.dmaFinished l i) s = .next (s.done fun h => (h.modOwned (h.pg.physOf l.val) cx fun co =>
        { co with outs := co.outs.filter fun o => !((o.kind = .dma || o.kind = .urecipe) && o.index = i) }).pumpPhys (h.pg.physOf l.val))) ∧
    (∀ (i : Nat) (c : Coll), s.hw.colls[i]? = some c → (c.finished || c.bad) = true → (∀ r ∈ c.axes, s.hw.pg.unarmed (Pg.stg r.ax) = true) →
      exec (.collectiveComplete i) s = .next (s.done fun h =>
        let h1 := c.judge true (c.writeTaps (c.writeOut h))
        let h2 := h1.onDev (Dev.wcbFlushAll fun e => c.ctx ∈ e.ctxs)
        ((c.cores.foldl (fun h l => h.modOwned (h.pg.physOf l) c.ctx fun co =>
          { co with outs := co.outs.filter fun o => !(o.kind = .coll && o.index = c.index) }) h2).dropColl i).pumpAll)) ∧
    (∀ (u : Fin 32) (r : UReq) (x : Recipe), s.hw.pg.works (Pg.suu (u.val / 4)) = true →
      (s.hw.suu.queued u.val).find? (fun r => !((s.hw.ctx r.ctx).launch.any fun l => l.exc)) = some r →
      tget (fun _ => none) s.hw.suu.slots (u.val * 8 + r.slot) = some x →
      let qs := s.hw.suu.mine u.val r
      (Hw.suuGroups u.val x r (r.groups s.hw.pg qs) s.hw).1 = [] →
      exec (.suuRequestStart u) s = .next (s.done fun h =>
        let y := (Hw.suuGroups u.val x r (r.groups h.pg qs) h).2
        (y.2.onSuu fun t => { t with reqs := t.reqs.map fun z => if z.id = r.id then z.worked h.pg qs [] y.1 else z }).pumpAll)) ∧
    (∀ r : UReq, s.hw.suu.reqs.find? (fun r => r.left.isEmpty) = some r → r.poisoned = false →
      exec .uapplyComplete s = .next (s.done fun h =>
        ((h.onSuu fun t => { t with reqs := t.reqs.filter fun x => x.id ≠ r.id }).modOwned (h.pg.physOf r.core) r.ctx fun c =>
          { c with outs := c.outs.filter fun o => !(o.kind = .uapply && o.index = r.index) }).pumpAll)) ∧
    (∀ (p : Path) (st : Fin 8) (w : W32), s.hw.admits p (Pg.suu st.val) 0x048 = true →
      let moved := (List.range 8).filter fun n => fld w (4 * n + 3) (4 * n) ≠ s.hw.pg.slotPart n
      (moved.any fun n => s.hw.partLaunch (s.hw.pg.slotPart n) || s.hw.partLaunch (fld w (4 * n + 3) (4 * n))) = false →
      exec (.suuSlotPartWrite p st w) s = .next (s.done fun h =>
        (h.onPg fun g => (List.range 8).foldl (fun g k => g.wr (Reg.SUU_SLOT_PART k) w) g).suuClear fun n _ => n ∈ moved))

/-- The commands of the memory tiers, the write-combining buffers and translation: a scrub that is enabled, with the on-die corrections that the stack
reports and the lines that a spoilt check line leaves, the flush of an entry or of every entry of a stack, invalidations of all of the translations,
of a context's and of a range's, which keep XL_INVAL_STAT.BUSY until they are done, and an access through the window, which keeps XL_WIN_STAT.BUSY
until it is done. (Readings of the model: log entries 21, 54 and 63.) -/
def Obligations.MemoryCommands : Prop :=
  ∀ s : State, s.hw.up = true →
    (∀ u : Fin 16, s.hw.pg.works (if u.val < 8 then Pg.ntc u.val else Pg.ftc (u.val - 8)) = true →
      (∀ (n : W16) (chk : Option (BitVec 15)), u.val < 8 → s.hw.pg.bit (Reg.NT_SCRUB_CTRL u.val) 0 = true →
        exec (.scrub ⟨u, n, chk⟩) s = .next (s.done (Hw.onDev fun d => (d.onPg (Pages.onDie u.val n.toNat)).scrubNear u.val))) ∧
      (∀ n : W16, 8 ≤ u.val → s.hw.pg.bit (Reg.FT_SCRUB_CTRL (u.val - 8)) 0 = true →
        exec (.scrub ⟨u, n, none⟩) s = .next (s.done (Hw.onDev (Dev.scrubFar (u.val - 8)))) ∧
        ∀ lost : BitVec 15, exec (.scrub ⟨u, n, some lost⟩) s = .next (s.done (Hw.onDev fun d => (d.chkCrc (u.val - 8) lost).scrubFar (u.val - 8))))) ∧
    (s.hw.pg.works Pg.wcb = true → ∀ (st : Fin 8) (e : WcbEntry) (rest : List WcbEntry), s.hw.dev.wcbStack st.val = e :: rest →
      exec (.wcbEntryTimeout st) s = .next (s.done (Hw.onDev fun d => d.wcbFlush e))) ∧
    (∀ (p : Path) (m : Byte), s.hw.admits p Pg.wcb 0x044 = true →
      exec (.wcbFlush p m) s = .next (s.done (Hw.onDev fun d => d.wcbFlushAll fun e => wbit m (s.hw.pg.channelOf (64 * e.line) / 32)))) ∧
    (∀ p : Path, s.hw.admits p Pg.memxl 0x048 = true → s.hw.pg.bit Reg.XL_INVAL_STAT 0 = false →
      exec (.xlInvalAll p) s = .next (s.done (Hw.onDev fun d =>
        (d.onMem (Mem.xlDrop (fun _ => true) 0 (2 ^ 64))).onPg (Pages.setb Reg.XL_INVAL_STAT 0 true))) ∧
      (∀ c : Byte, exec (.xlInvalCtx p c) s = .next (s.done (Hw.onDev fun d =>
        (d.onMem (Mem.xlDrop (fun x => decide (x = c.toNat)) 0 (2 ^ 64))).onPg (Pages.setb Reg.XL_INVAL_STAT 0 true)))) ∧
      (∀ c : Byte, exec (.xlInvalRange p c) s = .next (s.done (Hw.onDev fun d =>
        let va := (d.pg.rd64 Reg.XL_INVAL_VA_LO).toNat
        (d.onMem (Mem.xlDrop (fun x => decide (x = c.toNat)) va (va + 65536 * (d.pg.rd Reg.XL_INVAL_PAGES).toNat))).onPg
          (Pages.setb Reg.XL_INVAL_STAT 0 true))))) ∧
    (s.hw.invalWaits = false →
      exec .xlInvalDone s = .next (s.done fun h => (h.onMem fun m => { m with inval := [] }).onPg (Pages.setb Reg.XL_INVAL_STAT 0 false))) ∧
    (∀ p : Path, s.hw.admits p Pg.memxl 0x070 = true → s.hw.pg.bit Reg.XL_WIN_STAT 0 = false →
      exec (.xlWinRead p) s = .next (s.done (Hw.onDev fun d =>
        let r := d.winAccess false
        (r.2.onPg (Pages.wr Reg.XL_WIN_STAT 1)).onMem fun m => { m with win := some r.1 })) ∧
      exec (.xlWinWrite p) s = .next (s.done (Hw.onDev fun d =>
        let r := d.winAccess true
        (r.2.onPg (Pages.wr Reg.XL_WIN_STAT 1)).onMem fun m => { m with win := some r.1 }))) ∧
    (∀ f : Nat, s.hw.dev.mem.win = some f →
      exec .windowAccessDone s = .next (s.done (Hw.onDev fun d =>
        (d.onPg (Pages.wr Reg.XL_WIN_STAT (BitVec.ofNat 32 f))).onMem fun m => { m with win := none })))

/-! ## Links (R338 to R371) -/

/-- Training of a link, state by state, where the port works: from OFF to ACTIVE, one command each; LASER_CHECK marks the lanes below MAX_WIDTH whose
monitor reads outside +9.0 to +16.0 dBm; an ID flit is recorded, a first one answered, and a reply ends the delay measurement; a state that passes its
limit is a failed attempt, and a failed attempt restarts at LASER_CHECK. The loss of the laser of a link that trains or carries flits retrains it with
cause 7, whatever the port's pages let it do. (Readings of the model: log entries 32 and 91.) -/
def Obligations.LinkTraining : Prop :=
  ∀ (s : State) (k : Fin 10), s.hw.up = true →
    let st := s.hw.pg.get (Reg.LINK_STAT k.val) 31 28
    let lk := s.hw.link k.val
    (s.hw.pg.portWorks k.val = true →
      (st = 0 → s.hw.pg.bit (Reg.LINK_CTRL k.val) 30 = false → exec (.trainingStart k) s = .next (s.done (Hw.onLink0 k.val fun v =>
        (((v.onPg (Pages.setb (Reg.OPE_STAT k.val) 30 true)).setSt k.val 1).onPg (Pages.put (Reg.LINK_STAT k.val) 23 20 9)).onLk fun l =>
          { l with cold := true, waiting := false }))) ∧
      (∀ low high : W64, let mon := bytesLE 8 low.toNat ++ bytesLE 8 high.toNat
        st = 1 → lk.waiting = false → ∃ w : W16, exec (.laserCheckPass k low high) s = .next (s.done (Hw.onLink0 k.val fun v =>
          ((v.onPg fun g => mon.zipIdx.foldl (fun g m => g.put (Reg.OPE_LANE k.val m.2) 31 24 m.1.toNat) (g.setb (Reg.OPE_STAT k.val) 31 true)).setSt k.val
            2).onLk fun l => { l with laser := w })) ∧
        ∀ i : Nat, i < 16 → wbit w i =
          !(decide (i < widthOf (s.hw.pg.get (Reg.OPE_CTRL k.val) 17 16)) && mon[i]?.any fun b => decide (b.toInt < 90) || decide (160 < b.toInt))) ∧
      (∀ w : W16, st = 2 → lk.waiting = false → exec (.lockDone k w) s = .next (s.done (Hw.onLink0 k.val fun v =>
        ((v.setSt k.val 3).onPg (Pages.put (Reg.OPE_STAT k.val) 15 0 w.toNat)).onLk fun l => { l with good := l.laser &&& w }))) ∧
      (∀ w : W16, st = 3 → lk.waiting = false → exec (.eqDone k w) s = .next (s.done (Hw.onLink0 k.val fun v =>
        ((v.setSt k.val 4).onLk fun l => { l with good := l.good &&& w, cold := false, failWin := [] }).onPg
          (Pages.upd (Reg.OPE_LANE_FAIL k.val) fun x => x &&& ~~~((v.lk.good &&& w).setWidth 32))))) ∧
      (st = 4 → lk.waiting = false → exec (.fecAlignDone k) s = .next (s.done fun h => h.onLink0 k.val fun v =>
        ((v.setSt k.val 5).onLk fun l =>
          { l with peer := none, replied := false
                   good := l.good &&& ~~~(BitVec.ofNat 16 (v.pg.get (Reg.OPE_CTRL k.val) 15 0)) &&&
                     BitVec.ofNat 16 (2 ^ widthOf (v.pg.get (Reg.OPE_CTRL k.val) 17 16) - 1) }).sendId k.val h.pod.cfgEp false v.pg.fbc 0 0)) ∧
      (∀ (rx : FlitRx) (f : IdFlit) (now : W64), st = 5 → s.hw.pg.looped k.val = false → rx.rsvdType = false →
        let rec' (v : LV) : Pages := ((v.pg.wr64 (Reg.LINK_PEER_SER_LO k.val) f.serial).wr (Reg.LINK_PEER_ID k.val)
          (BitVec.ofNat 32 (f.nodeValid.toNat * 2 ^ 31 + f.role.toNat * 2 ^ 30 + (v.pg.get (Reg.LINK_PEER_ID k.val) 29 29) * 2 ^ 29 +
            f.port.val * 2 ^ 24 + f.node.toNat))).wr (Reg.LINK_PEER_EPOCH k.val) (BitVec.ofNat 32 (f.cfgEp.toNat * 256 + f.fenceEp.toNat))
        (rx.bad = true → exec (.id k ⟨rx, f⟩ now) s = .next (s.done (Hw.onLink0 k.val (LV.rxLost k.val rx)))) ∧
        (rx.bad = false → f.reply = false → exec (.id k ⟨rx, f⟩ now) s = .next (s.done fun h => h.onLink0 k.val fun v =>
          (({ v with pg := rec' v } : LV).onLk fun l => { l with peer := some f }).sendId k.val h.pod.cfgEp true f.t1 now now)) ∧
        (rx.bad = false → f.reply = true → exec (.id k ⟨rx, f⟩ now) s = .next (s.done (Hw.onLink0 k.val fun v =>
          ({ v with pg := (rec' v).put (Reg.LINK_DELAY k.val) 15 0 (ofSigned 16 (((now - f.t1).toInt - (f.t3 - f.t2).toInt) / 2)) } : LV).onLk fun l =>
            { l with peer := some f, replied := true })))) ∧
      (st = 5 → lk.replied = false → exec (.idResend k) s = .next (s.done fun h => h.onLink0 k.val fun v =>
        v.sendId k.val h.pod.cfgEp false v.pg.fbc 0 0)) ∧
      (∀ (us : W16) (f : IdFlit), st = 5 → lk.peer = some f → lk.replied = true →
        laneSet (lk.good &&& f.good) (LV.limit k.val ⟨s.hw.pg, lk⟩) = none →
        exec (.idExchangeDone k us) s = .next (s.done (Hw.onLink0 k.val fun v =>
          (v.onPg (Pages.put (Reg.LINK_STAT k.val) 23 20 11)).tryFail k.val))) ∧
      (∀ (us : W16) (f : IdFlit) (set : W16), st = 5 → lk.peer = some f → lk.replied = true → s.hw.pg.unarmed (Pg.link k.val) = true →
        laneSet (lk.good &&& f.good) (LV.limit k.val ⟨s.hw.pg, lk⟩) = some set →
        LV.quarCause k.val f ⟨s.hw.pg, lk⟩ = 0 → (lk.discard = true ∨ lk.lastSer ≠ some f.serial) →
        exec (.idExchangeDone k us) s = .next (s.done (Hw.onLink0 k.val fun v =>
          ((((v.discardAll k.val).onPg (Pages.setLanes k.val (some set))).setSt k.val 6).onPg fun g =>
            (((g.put (Reg.LINK_STAT k.val) 27 26 0).put (Reg.LINK_STAT k.val) 19 16 0).setb (Reg.LINK_PEER_ID k.val) 29 true).put
              (Reg.LINK_TRAIN_LAST k.val) 15 0 us.toNat).onLk fun l => { l with lastSer := some f.serial, discard := false, timeouts := 0 }))) ∧
      (1 ≤ st → st ≤ 5 → lk.waiting = false → exec (.trainStateTimeout k) s = .next (s.done (Hw.onLink0 k.val (LV.tryFail k.val)))) ∧
      (lk.waiting = true → exec (.trainRetry k) s = .next (s.done (Hw.onLink0 k.val fun v =>
        (v.setSt k.val 1).onLk fun l => { l with waiting := false, peer := none, replied := false })))) ∧
    (s.hw.pg.bit (Reg.OPE_STAT k.val) 30 = true → 1 ≤ st → st ≠ 8 → exec (.laserLost k) s = .next (s.done (Hw.onLink0 k.val fun v =>
      ((v.onPg (Pages.setb (Reg.OPE_STAT k.val) 31 false)).onPg (Pages.raise (Pg.ope k.val) 0 0 none)).retrain k.val 7)))

/-- Flits at a link that is ACTIVE, where the port works and is not looped back: a sequenced flit that is good and next in order is delivered after
its ACK and CREDIT fields, and so are those that waited for it; a bad one is discarded and counted, and a NAK is due for what its lane misses; an IDLE
flit delivers its fields, or is counted when bad; with flits outstanding a timeout of the ACK resends all of them, and the fourth in a row retrains
with cause 5. Under loopback nothing of the partner arrives. (Readings of the model: log entry 91.) -/
def Obligations.FlitsAtLinks : Prop :=
  ∀ (s : State) (k : Fin 10) (rx : FlitRx), s.hw.up = true → s.hw.pg.portWorks k.val = true → s.hw.pg.linkActive k.val = true →
    let v0 : LV := ⟨s.hw.pg, s.hw.link k.val⟩
    let sequenced (c : Instr) (f : Flit) : Prop := (∃ g : Flit, c = .data k rx g ∧ f = { g with ctl := none }) ∨
       (∃ (q : BitVec 12) (good : W16), (c = .widthReq k rx q good ∧ f = ctlFlit q 2 good) ∨ (c = .retrainReq k rx q ∧ f = ctlFlit q 3 0) ∨
         (c = .accept k rx q good ∧ f = ctlFlit q 4 good) ∨ (c = .switch k rx q ∧ f = ctlFlit q 5 0))
    (s.hw.pg.looped k.val = false → s.hw.pg.unarmed (Pg.link k.val) = true → ∀ (c : Instr) (f : Flit), sequenced c f →
      (rx.bad = true → exec c s = .next (s.done (Hw.onLink0 k.val (LV.rxBad k.val rx)))) ∧
      (rx.bad = false → rx.rsvdType = false → (v0.rxHead k.val rx).st k.val = 6 → f.seq < 4096 → f.seq = (v0.rxHead k.val rx).lk.rxSeq →
        ((v0.rxHead k.val rx).lk.reorder.any fun x => x.seq = f.seq) = false →
        exec c s = .next (s.done (Hw.onLink k.val fun v =>
          let r := (v.rxHead k.val rx).deliver k.val f
          let r2 := r.2.drain k.val (r.2.lk.reorder.length + 1)
          (r.1 ++ r2.1, r2.2.onLk fun l => { l with naked := l.naked.filter fun q => decide ((q + 4096 - l.rxSeq) % 4096 < 2048) }))))) ∧
    (s.hw.pg.looped k.val = true → ∀ (c : Instr) (f : Flit), sequenced c f → exec c s = .next (s.done id)) ∧
    (s.hw.pg.looped k.val = false → rx.bad = false → rx.rsvdType = false → exec (.idle k rx) s = .next (s.done (Hw.onLink0 k.val (LV.rxHead k.val rx)))) ∧
    (s.hw.pg.looped k.val = false → rx.bad = true → exec (.idle k rx) s = .next (s.done (Hw.onLink0 k.val (LV.rxLost k.val rx)))) ∧
    ((s.hw.link k.val).outstanding ≠ 0 → (s.hw.link k.val).timeouts < 3 → exec (.ackTimeout k) s = .next (s.done (Hw.onLink0 k.val fun v =>
      (v.onLk fun l => { l with timeouts := l.timeouts + 1 }).resend k.val fun _ => true))) ∧
    ((s.hw.link k.val).outstanding ≠ 0 → 3 ≤ (s.hw.link k.val).timeouts →
      exec (.ackTimeout k) s = .next (s.done (Hw.onLink0 k.val (LV.retrain k.val 5))))

/-- What a link does with its lanes, and the writes of a port's registers, where the port works: a width change that does not end retrains with cause
10; a lane that fails leaves the good mask; codewords that stay uncorrectable retrain with cause 3; software asks for a retrain; HOLD_OFF turns the
laser off and the link OFF; MAX_WIDTH, which narrows an ACTIVE port, and the expected epoch are written. (Readings of the model: log entries 32 and
91.) -/
def Obligations.LanesAndPorts : Prop :=
  ∀ (s : State) (k : Fin 10), s.hw.up = true →
    let st := s.hw.pg.get (Reg.LINK_STAT k.val) 31 28
    let lk := s.hw.link k.val
    (s.hw.pg.portWorks k.val = true →
      (st = 7 ∨ (st = 6 ∧ lk.req = some true) →
        exec (.widthChangeTimeout k) s = .next (s.done (Hw.onLink0 k.val (LV.retrain k.val 10)))) ∧
      (∀ ln : Fin 16, exec (.laneLockLost k ln) s = .next (s.done (Hw.onLink0 k.val fun v =>
        (v.onPg (Pages.setb (Reg.OPE_STAT k.val) ln.val false)).laneFail k.val ln.val))) ∧
      (∀ ln : Fin 16, exec (.tuneLost k ln) s = .next (s.done (Hw.onLink0 k.val fun v =>
        (v.onPg (Pages.raise (Pg.ope k.val) 2 ln.val none)).laneFail k.val ln.val))) ∧
      (∀ (ln : Fin 16) (pw : Byte) (b c y w : Nat), 16 ≤ w → s.hw.pg.get (Reg.OPE_THRESH k.val) 15 0 < min (b / 4) 65535 →
        min (b / 4) 65535 ≤ s.hw.pg.get (Reg.OPE_THRESH k.val) 31 16 →
        exec (.laneBerWindow k ⟨ln, pw⟩ b c y w) s = .next (s.done (Hw.onLink0 k.val fun v =>
          ((v.onPg fun g => ((((((g.put (Reg.OPE_LANE k.val ln.val) 23 16 pw.toNat).put (Reg.OPE_LANE k.val ln.val) 15 0 (min (b / 4) 65535)).count (Reg.LINK_CW_LO k.val) c).count
            (Reg.LINK_CORR_LO k.val) y).setb (Reg.OPE_LANE_DEG k.val) ln.val true).sat (Reg.OPE_DEG_CNT k.val) 1)).onLk fun l =>
              { l with failWin := tset (fun _ => 0) l.failWin ln.val 0 }).laneFail k.val ln.val))) ∧
      (∀ n : Nat, st = 6 ∨ st = 7 → s.hw.pg.get (Reg.LINK_CTRL k.val) 7 0 ≠ 0 → s.hw.pg.get (Reg.LINK_CTRL k.val) 7 0 ≤ n →
        exec (.ucwPersist k n) s = .next (s.done (Hw.onLink0 k.val (LV.retrain k.val 3))))) ∧
    (∀ p : Path, s.hw.admits p (Pg.link k.val) 0x040 = true →
      exec (.retrain p k) s = .next (s.done fun h =>
        (h.onPg (Pages.upd (Reg.LINK_CTRL k.val) fun o => mixed (Pg.link k.val) 0x040 o (setBit o 31 true))).onLink0 k.val fun v => v.softRetrain k.val) ∧
      ∀ on : Bool, on ≠ s.hw.pg.bit (Reg.LINK_CTRL k.val) 30 → wbit (s.hw.pg.rd (Reg.LINK_CTRL k.val)) 31 = false →
        exec (.holdOff p k on) s = .next (s.done fun h =>
          (h.onPg (Pages.upd (Reg.LINK_CTRL k.val) fun o => mixed (Pg.link k.val) 0x040 o (setBit o 30 on))).onLink0 k.val fun v => v.holdOff k.val on)) ∧
    (∀ (p : Path) (w : Fin 4), s.hw.admits p (Pg.ope k.val) 0x040 = true →
      (widthOf w.val < widthOf (s.hw.pg.get (Reg.OPE_CTRL k.val) 17 16) → exec (.maxWidthWrite p k w) s = .next (s.done fun h =>
        (h.onPg (Pages.upd (Reg.OPE_CTRL k.val) fun o => mixed (Pg.ope k.val) 0x040 o (setFld o 17 16 w.val))).onLink0 k.val fun v =>
          v.narrow k.val (widthOf w.val))) ∧
      (widthOf (s.hw.pg.get (Reg.OPE_CTRL k.val) 17 16) ≤ widthOf w.val → exec (.maxWidthWrite p k w) s = .next (s.done
        (Hw.onPg (Pages.upd (Reg.OPE_CTRL k.val) fun o => mixed (Pg.ope k.val) 0x040 o (setFld o 17 16 w.val)))))) ∧
    (∀ (p : Path) (ep : Byte), s.hw.admits p (Pg.link k.val) 0x058 = true →
      exec (.linkExpEpochWrite p k ep) s = .next (s.done (Hw.onLink0 k.val fun v => v.expEpoch k.val ep.toNat)))

/-! ## Packets, the router and the group slots (R372 to R403) -/

/-- The packets of a context, once the device accepts them: data lands, in memory or in scratch, and the last byte of a response ends its XGET; a read
is answered out of memory or scratch; an atomic is applied in FAST mode, held to the boundary in the others while there is room, and acknowledged, and
the acknowledgement ends the oldest one outstanding there; a message goes to its core's FIFO, or to its queue of messages for the host; data and
counts of collectives join their collective. (Readings of the model: log entries 9, 30, 34, 36 and 94.) -/
def Obligations.ArrivingPackets : Prop :=
  ∀ (s : State) (src : PktSrc) (k : Packet) (t : Hw), s.hw.up = true →
    (s.hw.accepts (fun k => k.opc = 0x01) src k t → exec (.put src) s = .next (s.done fun _ => (t.landCva k).2.pumpAll)) ∧
    (s.hw.accepts (fun k => k.opc = 0x02) src k t → exec (.putScr src) s = .next (s.done fun _ => (t.landScr k).2.pumpAll)) ∧
    (s.hw.accepts (fun k => k.opc = 0x04) src k t → exec (.getRsp src) s = .next (s.done fun _ =>
      (if (t.landCva k).1 then (t.landCva k).2.getDone k else (t.landCva k).2).pumpAll)) ∧
    (s.hw.accepts (fun k => k.opc = 0x05) src k t → exec (.getRspScr src) s = .next (s.done fun _ =>
      (if (t.landScr k).1 then (t.landScr k).2.getDone k else (t.landScr k).2).pumpAll)) ∧
    (s.hw.accepts (fun k => k.opc = 0x03) src k t → leAt k.payload 7 1 / 2 % 2 = 0 → ∀ (segs : List Seg) (d d2 : Dev) (bs : List Byte),
      t.dev.translate .remote (t.pg.lowBay k.ctx) k.ctx k.addr (leAt k.payload 8 4) false = (.ok segs, d) →
      d.readSegs .remote (some (k.ctx, k.gen)) segs = (some bs, d2) →
      exec (.getReq src) s = .next (s.done fun _ => ({ t with dev := d2 } : Hw).sendTransfer k.src (if leAt k.payload 7 1 % 2 = 1 then 0x05 else 0x04)
        2 k.ctx k.gen (leAt k.payload 0 6) k.tag 0 bs)) ∧
    (s.hw.accepts (fun k => k.opc = 0x03) src k t → leAt k.payload 7 1 / 2 % 2 = 1 → ∀ l : Nat,
      t.pg.scrTarget k.ctx (leAt k.payload 6 1 % 128) k.addr (leAt k.payload 8 4) = some l →
      exec (.getReq src) s = .next (s.done fun _ => (t.scrOutside l k.addr (leAt k.payload 8 4)).2.sendTransfer k.src
        (if leAt k.payload 7 1 % 2 = 1 then 0x05 else 0x04) 2 k.ctx k.gen (leAt k.payload 0 6) k.tag 0 (t.scrOutside l k.addr (leAt k.payload 8 4)).1)) ∧
    (s.hw.accepts (fun k => k.opc = 0x06) src k t → k.tag % 16 ≤ 6 →
      (t.mode k.ctx = 0 → (t.atomApply k.ctx (k.tag % 16) k.addr (BitVec.ofNat 64 (ofBytesLE k.payload))).1 = true →
        exec (.atom src) s = .next (s.done fun _ => (t.atomApply k.ctx (k.tag % 16) k.addr (BitVec.ofNat 64 (ofBytesLE k.payload))).2.atomAck k)) ∧
      (t.mode k.ctx ≠ 0 → (t.ctx k.ctx).held.length < 4096 → ∀ (segs : List Seg) (d : Dev),
        t.dev.translate .dma (t.pg.lowBay k.ctx) k.ctx k.addr (aopSize (k.tag % 16)) true = (.ok segs, d) →
        exec (.atom src) s = .next (s.done fun _ => (({ t with dev := d } : Hw).modCtx k.ctx fun x => { x with held := x.held ++ [⟨k.src, k.score, x.held.length, k.tag % 16, k.addr, BitVec.ofNat 64 (ofBytesLE k.payload)⟩] }).atomAck k))) ∧
    (s.hw.accepts (fun k => k.opc = 0x07) src k t → ∀ u : Nat × Nat, (t.ctx k.ctx).unacked.find? (fun u => u.2 = k.src) = some u →
      exec (.atomAck src) s = .next (s.done fun _ =>
        let h1 := t.modCtx k.ctx fun x => { x with unacked := x.unacked.filter (· ≠ u) }
        ((h1.pg.partCores (h1.pg.ctxPart k.ctx)).foldl (fun h l => h.modOwned (h.pg.physOf l) k.ctx fun co =>
          { co with outs := co.outs.filter fun o => o.kind ≠ .xatom u.1 }) h1).pumpAll)) ∧
    (s.hw.accepts (fun k => k.opc = 0x08 && k.addr / 512 % 2 = 0) src k t → ∀ l : Nat, t.pg.coreAt k.ctx (k.addr % 128) = some l → t.reach l = true →
      t.pg.jIgnores k.ctx = false → t.pg.inInstance (((t.ctx k.ctx).launch.map (·.group)).getD 0xFF) k.src = true →
      exec (.msg src) s = .next (s.done fun _ =>
        let ci := t.ciOf l k.ctx
        let r := CV.fifoArrive ci k.resvKey (t.coreCtx l = some k.ctx) (k.tag % 65536) k.score k.src k.payload { pg := t.pg, core := t.core ci.n }
        let h2 := { t with dev := { t.dev with pg := r.2.pg } }.setCore ci.n r.2.core
        if r.1 && (k.addr / 256 % 2 = 1) then h2.countDecl k else h2)) ∧
    (s.hw.accepts (fun k => k.opc = 0x08 && k.addr / 512 % 2 = 1) src k t →
      let q := k.addr / 1024 % 16384
      let m : Staged := ⟨k.src, k.score, k.tag % 65536, t.pg.beatNum.toNat, k.payload, t.pg.fbc.toNat⟩
      t.pg.qIs q 2 = true → t.pg.qOwner q = some k.ctx → t.pg.ctxSt k.ctx = 1 → t.pg.jIgnores k.ctx = false →
      t.pg.inInstance (((t.ctx k.ctx).launch.map (·.group)).getD 0xFF) k.src = true → (t.queue q).staged = [] → t.mrqReady q m = true →
      exec (.hostMsg src true) s = .next (s.done fun _ => t.mrqWrite q m) ∧
      exec (.hostMsg src false) s = .next (s.done fun _ => t.modQueue q fun x => { x with writing := some m })) ∧
    (s.hw.accepts (fun k => k.opc = 0x10) src k t → ∀ (i : Nat) (co : Coll), t.findColl k = some (i, co) →
      exec (.collData src) s = .next (s.done fun _ => ((co.take k t).2.putColl i (co.take k t).1).pumpAll)) ∧
    (s.hw.accepts (fun k => k.opc = 0x11) src k t → ∀ (i : Nat) (co : Coll) (m l : Nat) (cs : List Nat), t.findColl k = some (i, co) →
      co.nodes.findIdx? (· = k.src) = some m → co.kind = .ca2av → (co.counts.all fun x => x.1 ≠ m) = true → k.tag % 65536 = co.ctag →
      ofBytesLE k.payload ≤ co.count → co.cores = l :: cs →
      exec (.collCnt src) s = .next (s.done fun _ =>
        let n := ofBytesLE k.payload
        let h1 := t.scrInbound l (co.extra + 4 * (co.nodes.length + m)) (bytesLE 4 n)
        let c1 : Coll := { co with
          counts := co.counts ++ [(m, n)]
          ins := co.ins.map fun x =>
            if x.node = k.src then { x with want := some (n * co.esz), done := (x.done || n = 0) && decide (x.got = n * co.esz) } else x }
        let r := if co.ins.any fun x => x.node = k.src && decide (n * co.esz < x.got) then c1.fail 0 h1 else (c1, h1)
        (r.2.putColl i r.1).pumpAll))

/-- Management packets reach register space on the management path: a write, a read that is answered, and an answer that goes to who asked, and to the
work of the active Dareder. (Readings of the model: log entries 72, 79 and 93.) -/
def Obligations.ManagementPackets : Prop :=
  ∀ (s : State) (src : PktSrc) (k : Packet) (t : Hw), s.hw.up = true →
    (s.hw.acceptsMg (fun k => k.opc = 0x20) src k t →
      exec (.mgWr src) s = .next (s.done fun _ => t.writeBytes WarmIn.good .mgmt k.regOff true k.payload)) ∧
    (s.hw.acceptsMg (fun k => k.opc = 0x21) src k t → exec (.mgRd src) s = .next (s.done fun _ =>
      let r := t.readBytes .mgmt k.regOff (k.ext.toNat % 16)
      r.2.inject (r.2.mgPacket k.src 0x22 k.addr (crc64 r.1) r.1))) ∧
    (s.hw.acceptsMg (fun k => k.opc = 0x22) src k t → exec (.mgRsp src) s = .next (s.done fun _ => 
      ({ t with reads := (.mgmt, k.payload) :: t.reads } : Hw).darederAnswer k))

/-- The router and the registers of routing and groups: an output port grants the first packet of its order whose flits the link takes; the buffers
are sampled while sampling is on; changes of the bank and of the fence epoch are armed two beats ahead, and disarmed; draining is armed for a bank
that is not active and has no packet in flight; a word of a group slot that no launch uses is written. (Readings of the model: log entries 33 and 94.)
-/
def Obligations.RouterCommands : Prop :=
  ∀ s : State, s.hw.up = true →
    (∀ (k : Fin 10) (x : Held), s.hw.pg.works Pg.rtr = true → s.hw.pg.portWorks k.val = true →
      (s.hw.rtr.grantOrder k.val).find? (fun x => LV.canSend k.val x.pkt.vc (flitsOf x.pkt.payload.length) x.pkt.conf ⟨s.hw.pg, s.hw.link k.val⟩) = some x →
      exec (.packetGrant k) s = .next (s.done fun h =>
        let v1 := LV.sendPacket k.val x.pkt ⟨h.pg, h.link k.val⟩
        ({ h with
          dev := { h.dev with pg := v1.pg }
          links := tset (fun _ => Link.reset) h.links k.val v1.lk
          rtr := { h.rtr with
            held := dropFirst x h.rtr.held
            flying := h.rtr.flying ++ [(k.val, x.pkt.bank, (v1.lk.txSeq + 4095) % 4096)]
            rr := if x.pkt.vc < 7 ∧ !x.pkt.conf then tset (fun _ => 0) h.rtr.rr k.val ((x.pkt.vc + 1) % 7) else h.rtr.rr } } : Hw).giveCredit
          x.inp { x.pkt with vc := x.vin })) ∧
    (s.hw.pg.works Pg.rtr = true → s.hw.pg.bit Reg.RTR_HIST_CTRL 31 = true → exec .histSample s = .next (s.done fun h =>
      { h with rtr := { h.rtr with bins := (List.range 80).foldl (fun b i =>
          let k := i * 8 + histBin (h.occ (i / 8) (i % 8)) (creditInit (i % 8))
          tset (fun _ => 0) b k (min 65535 (tget (fun _ => 0) b k + 1))) h.rtr.bins } })) ∧
    (∀ p : Path, s.hw.admits p Pg.rtr 0x044 = true → ∀ b : Bool,
      (s.hw.pg.beatNum.toNat + 2 ≤ (s.hw.pg.rd64 Reg.RTR_BANK_AT_LO).toNat → exec (.rtrBankArm p b) s = .next (s.done (Hw.onPg fun g =>
        (g.wr Reg.RTR_BANK_NEXT (BitVec.ofNat 32 (2 ^ 31 + b.toNat))).setb Reg.RTR_BANK 16 true))) ∧
      exec (.rtrBankDisarm p b) s = .next (s.done (Hw.onPg fun g => (g.wr Reg.RTR_BANK_NEXT (BitVec.ofNat 32 b.toNat)).setb Reg.RTR_BANK 16 false))) ∧
    (∀ p : Path, s.hw.admits p Pg.rtr 0x060 = true → ∀ ep : Byte,
      (s.hw.pg.beatNum.toNat + 2 ≤ (s.hw.pg.rd64 Reg.RTR_FEP_AT_LO).toNat →
        exec (.rtrFepArm p ep) s = .next (s.done (Hw.onPg (Pages.wr Reg.RTR_FEP_NEXT (BitVec.ofNat 32 (2 ^ 31 + ep.toNat)))))) ∧
      exec (.rtrFepDisarm p ep) s = .next (s.done (Hw.onPg (Pages.wr Reg.RTR_FEP_NEXT (ep.setWidth 32))))) ∧
    (∀ (p : Path) (b : Bool), s.hw.admits p Pg.rtr 0x050 = true → s.hw.pg.get (inflightReg b.toNat) 15 0 = 0 → s.hw.pg.get Reg.RTR_BANK 0 0 ≠ b.toNat →
      exec (.rtrDrainArm p (BitVec.ofNat 32 (1 + b.toNat))) s = .next (s.done (Hw.onPg (Pages.setb Reg.RTR_BANK (8 + b.toNat) true)))) ∧
    (∀ (p : Path) (a : Fin 4) (j : Fin 64) (i : Fin 4) (w : W32),
      let off := 0x400 + 16 * j.val + 4 * i.val
      let h1 := s.hw.onPg (Pages.upd (regKey (Pg.stg a.val) off) fun o => mixed (Pg.stg a.val) off o w)
      s.hw.admits p (Pg.stg a.val) off = true → s.hw.slotUsed j.val = false → (h1.pg.bit (Reg.GRP_CFG j.val) 31 && h1.pg.grpBad j.val) = false →
      exec (.grpSlotWrite p a j i w) s = .next (s.done fun _ => { h1 with grpLost := s.hw.grpLost.filter (· ≠ j.val) }))

/-! ## Contexts, lending and the host's link (R441 to R470, R511) -/

/-- The life of a context: BIND where nothing speaks against it; TEARDOWN and a function level reset of a bound context other than 0 begin its end,
which drains and then frees it; a hot reset resets every function. Zeroing of a range of the usable tiers begins and ends. The scratch window of a
context without a launch moves where it meets no other. (Readings of the model: log entries 52 and 53.) -/
def Obligations.ContextLife : Prop :=
  ∀ s : State, s.hw.up = true →
    (∀ p : Path, s.hw.admits p Pg.hif 0x044 = true → ∀ c : Byte,
      (∀ (f : Byte) (part gen : Fin 16), s.hw.bindBad c.toNat f.toNat part.val gen.val = false →
        exec (.bind p c f part gen) s = .next (s.done fun h =>
          (h.bind c.toNat f.toNat part.val gen.val).onPg fun g => (g.setb Reg.HIF_CTX_STAT 24 false).put Reg.HIF_CTX_STAT 7 0 c.toNat)) ∧
      (c ≠ 0 → s.hw.pg.ctxSt c.toNat = 1 → s.hw.pg.anyTearing = false →
        exec (.teardown p c) s = .next (s.done fun h =>
          (h.tearBegin c.toNat).onPg fun g => (g.setb Reg.HIF_CTX_STAT 24 false).put Reg.HIF_CTX_STAT 7 0 c.toNat))) ∧
    (∀ f : Byte, s.hw.pg.funcCtx f.toNat ≠ 0xFF → s.hw.pg.funcCtx f.toNat ≠ 0 → s.hw.pg.ctxSt (s.hw.pg.funcCtx f.toNat) = 1 →
      exec (.flr f) s = .next (s.done fun h =>
        let h1 := (h.onPg fun p => ((p.put Reg.SRIOV_FLR 7 0 f.toNat).setb Reg.SRIOV_FLR 31 true).sat Reg.RST_FLR_CNT 1).tearBegin (h.pg.funcCtx f.toNat)
        { h1 with hif := { h1.hif with flr := some f.toNat } })) ∧
    (∀ c : Byte,
      ((s.hw.ctx c.toNat).tear = 2 → exec (.teardownDrainEnd c) s = .next (s.done fun h =>
        let h2 := (h.onDev (Dev.wcbFlushAll fun e => c.toNat ∈ e.ctxs)).suuClear fun _ r => r.ctx = c.toNat
        (((((h2.pg.ctxQueues c.toNat).foldl (fun h q => h.qDisable q) h2).modCtx c.toNat fun x => { x with tear := 3, handles := [], cache := [] }).showHandles
          c.toNat).showCache))) ∧
      ((s.hw.ctx c.toNat).tear = 3 → exec (.teardownDone c) s = .next (s.done (Hw.tearDone c.toNat)) ∧
        (s.hw.tearDone c.toNat).ctx c.toNat = { Ctx.reset with lastGen := (s.hw.ctx c.toNat).lastGen } ∧
        ∀ d : Nat, d ≠ c.toNat → (s.hw.tearDone c.toNat).ctx d = s.hw.ctx d)) ∧
    exec .hotReset s = .next (s.done fun h =>
      ((List.range (h.pg.get Reg.SRIOV_NUMVF 7 0 + 1)).foldl (fun h f => h.flr f) h).onPg fun p =>
        (p.put Reg.HIF_LINK 1 0 0).capSet (Pages.setb Reg.CAP_HOST 8 false) [Reg.CAP_HOST]) ∧
    (∀ p : Path, s.hw.admits p Pg.hif 0x05C = true → s.hw.pg.bit Reg.HIF_ZERO_STAT 31 = false →
      let a := (s.hw.pg.rd64 Reg.HIF_ZERO_ADDR_LO).toNat
      let n := (s.hw.pg.rd Reg.HIF_ZERO_LEN).toNat * 65536
      a % 65536 = 0 → (n = 0 ∨ s.hw.pg.rangeRegion a n = .near ∨ s.hw.pg.rangeRegion a n = .far) →
      exec (.zeroGo p) s = .next (s.done fun h =>
        let h1 := h.onPg (Pages.wr Reg.HIF_ZERO_STAT 0x80000000#32)
        { h1 with hif := { h1.hif with zero := some (a, n) } })) ∧
    (∀ a n : Nat, s.hw.hif.zero = some (a, n) → exec .zeroDone s = .next (s.done fun h =>
      let h1 := (h.onDev (Dev.zeroLines a n)).onPg (Pages.setb Reg.HIF_ZERO_STAT 31 false)
      { h1 with hif := { h1.hif with zero := none } })) ∧
    (∀ (p : Path) (c : Byte) (w : W32), s.hw.admits p (Pg.ctx c.toNat) 0x048 = true → s.hw.launched c.toNat = false →
      fld w 7 0 < fld w 15 8 → fld w 15 8 ≤ 128 →
      (s.hw.pg.ctxSt c.toNat ≠ 0 → ∀ x ∈ s.hw.pg.partMates c.toNat,
        s.hw.pg.get (Reg.CTX_SCR x) 15 8 ≤ fld w 7 0 ∨ fld w 15 8 ≤ s.hw.pg.get (Reg.CTX_SCR x) 7 0) →
      exec (.ctxScrWrite p c w) s = .next (s.done (Hw.onPg (Pages.capSet (Pages.wr (Reg.CTX_SCR c.toNat) (w &&& 0xFFFF#32)) [Reg.CTX_SCR c.toNat]))))

/-- Lending and the host's link: a region of the far tier goes from FREE through CREATING, ACTIVE, a committed decoder and RELEASING to FREE; a line
of committed memory is read and written over CXL; the host's link trains to ×16 or ×8, without the strap for ×8 to the former, and to nothing else; a
PCIe error raises detector 0 of the HIF page. (Readings of the model: log entries 50, 53 and 95.) -/
def Obligations.LendingAndHostLink : Prop :=
  ∀ s : State, s.hw.up = true →
    (∀ j : Fin 8,
      let r := s.hw.pg.lendRange j.val
      (∀ p : Path, s.hw.admits p Pg.hif (0x708 + 16 * j.val) = true →
        (s.hw.pg.lendSt j.val = 0 → r.2 ≠ 0 → s.hw.pg.rangeRegion r.1 r.2 = .far →
          (∀ k, k < 8 → k ≠ j.val → s.hw.pg.lendSt k ≠ 0 →
            (s.hw.pg.lendRange k).1 + (s.hw.pg.lendRange k).2 ≤ r.1 ∨ r.1 + r.2 ≤ (s.hw.pg.lendRange k).1) →
          exec (.create p j) s = .next (s.done (Hw.onPg (Pages.wr (Reg.LEND_STAT j.val) 1)))) ∧
        (s.hw.pg.lendSt j.val = 2 → s.hw.pg.bit (Reg.LEND_STAT j.val) 8 = false →
          exec (.release p j false) s = .next (s.done fun h => (h.onPg (Pages.wr (Reg.LEND_STAT j.val) 3)).lendFree j.val) ∧
          exec (.release p j true) s = .next (s.done fun h =>
            let h1 := h.onPg (Pages.wr (Reg.LEND_STAT j.val) 3)
            { h1 with hif := { h1.hif with zeroLend := sadd h1.hif.zeroLend j.val } }))) ∧
      (s.hw.pg.lendSt j.val = 1 → exec (.lendActivate j) s = .next (s.done fun h =>
        (h.onPg fun p => (p.wr (Reg.LEND_STAT j.val) 2).showLent).lendEvent j.val)) ∧
      (s.hw.pg.lendSt j.val = 2 → ftBase ≤ r.1 → exec (.hdmCommit j 1 (r.1 - ftBase) r.2) s = .next (s.done fun h =>
        ({ h with hif := { h.hif with hdmErr := sdel h.hif.hdmErr j.val } } : Hw).onPg (Pages.setb (Reg.LEND_STAT j.val) 8 true))) ∧
      (s.hw.pg.lendSt j.val = 3 → exec (.lendFree j) s = .next (s.done fun h =>
        let h1 := if j.val ∈ h.hif.zeroLend then h.onDev (Dev.zeroLines r.1 r.2) else h
        let h2 := h1.onPg fun p => (p.wr (Reg.LEND_STAT j.val) 0).showLent
        ({ h2 with hif := { h2.hif with zeroLend := sdel h2.hif.zeroLend j.val } } : Hw).lendEvent j.val)) ∧
      exec (.hdmDecoderUncommit j) s = .next (s.done fun h =>
        ({ h with hif := { h.hif with hdmErr := sdel h.hif.hdmErr j.val } } : Hw).onPg (Pages.setb (Reg.LEND_STAT j.val) 8 false))) ∧
    (∀ dpa : Nat, s.hw.pg.bit Reg.HIF_LINK 1 = true →
      (s.hw.pg.committed (dpa / 64 * 64) 64 = true → ∀ (bs : List Byte) (d : Dev), s.hw.dev.tierRead .host none (ftBase + dpa / 64 * 64) 64 = (some bs, d) →
        exec (.cxlMemRead dpa) s = .next (s.done fun h => ({ h with dev := d } : Hw).cxlAnswer (dpa / 64 * 64) bs false)) ∧
      (∀ bs : List Byte, s.hw.pg.committed dpa (bs.take (64 - dpa % 64)).length = true →
        exec (.cxlMemWrite dpa bs) s = .next (s.done (Hw.onDev (Dev.tierWrite .host none (ftBase + dpa) (bs.take (64 - dpa % 64))))))) ∧
    (∀ (v : Fin 7) (w : Fin 17) (flit cxl : Bool), 1 ≤ v.val → (w.val = 8 ∨ (w.val = 16 ∧ s.hw.pg.bit Reg.DEV_STRAP 6 = false)) → exec (.hostLinkTrained v w flit cxl) s = .next (s.done (Hw.onPg fun p =>
      ((((((p.put Reg.HIF_LINK 31 28 v.val).put Reg.HIF_LINK 20 16 w.val).setb Reg.HIF_LINK 8 flit).setb Reg.HIF_LINK 1 (cxl && decide (5 ≤ v.val))).setb
        Reg.HIF_LINK 0 true).setb Reg.CLK_STAT 13 true).capSet
          (fun p => (p.put Reg.CAP_HOST 4 0 w.val).setb Reg.CAP_HOST 8 (cxl && decide (5 ≤ v.val))) [Reg.CAP_HOST]))) ∧
    (∀ (v : Fin 7) (w : Fin 17) (flit cxl : Bool), (w.val ≠ 8 ∧ w.val ≠ 16) ∨ v.val = 0 → exec (.hostLinkTrained v w flit cxl) s = .next (s.done (Hw.onPg fun p =>
      (((((p.put Reg.HIF_LINK 31 28 0).put Reg.HIF_LINK 20 16 0).setb Reg.HIF_LINK 8 false).setb Reg.HIF_LINK 1 false).setb Reg.HIF_LINK 0 false).capSet
        (Pages.setb Reg.CAP_HOST 8 false) [Reg.CAP_HOST]))) ∧
    (s.hw.pg.unarmed Pg.hif = true → exec .pcieUe s = .next (s.done (Hw.onPg (Pages.raise Pg.hif 0 0 none))))

/-! ## Boot, attestation and update (R471 to R496, R514) -/

/-- Reset and boot: a release of RESET_N runs the cold boot; an assertion holds the device in cold reset, and so does the loss of VAON, which also
clears the latches; the boot ends with the write of CAP_VER, in READY, or in OUT_OF_SERVICE when that is latched. Slots of measurements are read out
of SEC_MEAS, and the debug lock opens, measured first. (Readings of the model: log entries 12, 19, 55 and 92.) -/
def Obligations.BootCommands : Prop :=
  ∀ s : State,
    (∀ i : BootIn, s.hw.power.inReset = true → exec (.resetNRelease i) s = .next { s with hw := (s.hw.coldBoot i).sendOut }) ∧
    exec .resetNAssert s = .next { s with hw := s.hw.coldState } ∧
    exec .vaonLoss s = .next { s with hw := ({ s.hw.coldState with power := Power.reset } : Hw).onPg (Pages.wr Reg.HANG_STAT 0) } ∧
    (∀ ms : W16, s.hw.up = true → s.hw.pg.get Reg.DEV_STATE 15 8 = 7 → s.hw.pg.devState = 1 → s.hw.power.escalate = false →
      exec (.capVerWrite ms) s = .next (s.done (Hw.onPg fun p =>
        ((((p.capSet (Pages.wr Reg.CAP_VER 0x1802) [Reg.CAP_VER]).bootCode 0x0F).put Reg.DEV_STATE 3 0 (if p.bit Reg.HANG_STAT 31 then 4 else 2)).stage 3).wr Reg.CMP_BOOT_MS
          (ms.setWidth 32)))) ∧
    (∀ (p : Path) (j : Fin 32), s.hw.up = true →
      exec (.secMeasRead p j) s = .next (s.done fun h =>
        let r := h.readBytes p (4096 * Pg.sec + 0x400 + 48 * j.val) 48
        { r.2 with reads := (p, r.1) :: r.2.reads })) ∧
    (∀ p : Path, s.hw.up = true → s.hw.admits p Pg.sec 0x048 = true → s.hw.fusePolicy.1 = false → s.hw.fusePolicy.2.2.pg.devState = 2 →
      s.hw.fusePolicy.2.2.pg.bit Reg.SEC_STAT 25 = false → s.hw.fusePolicy.2.2.anyLaunch = false →
      exec (.debugOpen p) s = .next (s.done fun h =>
        (((h.fusePolicy.2.2).extend 8 (sha384 (asciiOf "DBG_OPEN"))).onPg (Pages.setb Reg.SEC_STAT 25 true)).onPg (Pages.setb Reg.SEC_DBG_CTRL 0 true)))

/-- SPDM, where the extension firmware runs: measurements, the log of measurements, the certificate (InvalidRequest, code 1, where none is
provisioned), its digests, a challenge, a key exchange with fewer than four sessions open, a key for the link's encryption in an open session, and any
other request are answered; what needs a signature is answered where the signer has not failed. While the device boots, measurements are answered
BUSY, code 2. (Readings of the model: log entries 11, 12 and 57.) -/
def Obligations.SpdmRequests : Prop :=
  ∀ s : State, s.hw.power.inReset = false → s.hw.extUp = true →
    (∀ (i : Byte) (nonce : List Byte), s.hw.pg.devState ≠ 1 → (i = 0xFF ∨ (1 ≤ i.toNat ∧ i.toNat ≤ 32)) →
      exec (.getMeasurements i false nonce) s = .next (s.done fun h => h.answer (.measurements (h.chaise.blocks i.toNat) none)) ∧
      (∀ (sig : List Byte) (t : Hw), s.hw.sign (nonce ++ (s.hw.chaise.blocks i.toNat).flatMap (·.2)) = (some sig, t) →
        exec (.getMeasurements i true nonce) s = .next (s.done fun h => t.answer (.measurements (h.chaise.blocks i.toNat) (some sig))))) ∧
    (∀ (i : Byte) (sign : Bool) (nonce : List Byte), s.hw.pg.devState = 1 →
      exec (.getMeasurements i sign nonce) s = .next (s.done fun h => h.spdmError 2) ∧
      exec .getMeasurementExtensionLog s = .next (s.done fun h => h.spdmError 2)) ∧
    (s.hw.pg.devState ≠ 1 → exec .getMeasurementExtensionLog s = .next (s.done fun h => h.answer (.mel h.chaise.mel))) ∧
    exec (.getCertificate 0) s = .next (s.done fun h => match h.chain with | some c => h.answer (.certificate c) | none => h.spdmError 1) ∧
    exec .getDigests s = .next (s.done fun h => h.answer (.digests (h.chain.map sha384))) ∧
    (∀ (nonce sig : List Byte) (t : Hw), s.hw.sign nonce = (some sig, t) →
      exec (.challenge nonce) s = .next (s.done fun _ => t.answer (.challengeAuth sig)) ∧
      (s.hw.chaise.sessions.length < 4 → exec (.keyExchange nonce) s = .next (s.done fun _ =>
        let k := ((List.range 4).find? fun i => i ∉ t.chaise.sessions).getD 0
        (t.setSessions (k :: t.chaise.sessions)).answer (.keyExchange k sig)))) ∧
    (∀ k : Nat, k ∈ s.hw.chaise.sessions → exec (.ideKm k) s = .next (s.done fun h => (h.onPg (Pages.setb Reg.HIF_LINK 4 true)).answer .ideKeyed)) ∧
    exec (.spdmRequest true none) s = .next (s.done fun h => h.answer .answered) ∧
    (∀ k : Nat, exec (.spdmRequest true (some k)) s = .next (s.done fun h => (h.setSessions (sdel h.chaise.sessions k)).answer .answered)) ∧
    (∀ e : Option Nat, exec (.spdmRequest false e) s = .next (s.done fun h => h.spdmError 5))

/-- PLDM: discovery and the update of firmware, served by the extension firmware and by the recovery responder, and the reading of a sensor. A
transfer writes the slot that is not running, whose header the first transfer erases; a verified slot becomes the preferred one. (Readings of the
model: log entry 57.) -/
def Obligations.PldmCommands : Prop :=
  ∀ s : State, s.hw.power.inReset = false →
    (s.hw.pldmUp = true →
      exec .pldmDiscovery s = .next (s.done fun h => h.answer (.discovery (if h.extUp then [0, 2, 5] else [0, 5]))) ∧
      (∀ (off : Nat) (bs : List Byte), off % 4096 = 0 → bs.length ≤ 4096 → off + bs.length ≤ 0xC00000 →
        exec (.pldmFwTransfer off bs) s = .next (s.done fun h =>
          let k := if h.extUp then 1 - h.slot else 0
          let h1 := if h.chaise.update.isSome then h else h.onChaise fun c => c.flashPut (slotBase k) (List.replicate 512 0xFF)
          (h1.onChaise fun c => { (c.flashPut (slotBase k + off) bs) with update := some ⟨k, false⟩ }).answer (.fw true none))) ∧
      (∀ v : FwUpdate, s.hw.chaise.update = some v → exec .pldmFwVerify s = .next (s.done fun h =>
        let ok := h.chaise.slotOk v.slot
        (h.onChaise fun c => { c with update := some { v with verified := ok } }).answer (.fw ok (some (h.sigStatus (h.chaise.hdr v.slot)))))) ∧
      (∀ k : Nat, s.hw.chaise.update = some ⟨k, true⟩ → exec .pldmFwActivate s = .next (s.done fun h =>
        (h.onChaise fun c => { (c.flashPut 0 (bootDir k (c.dirSeq + 1))) with update := none }).answer (.fw true none)))) ∧
    (∀ (id : Byte) (v : Int), s.hw.extUp = true → s.hw.pg.pldmSensor id.toNat = some v →
      exec (.pldmSensorRead id) s = .next (s.done fun h => h.answer (.sensor id.toNat v)))

/-! ## Power, clocks, resets, hangs and spares (R497 to R559) -/

/-- Power, temperature and clocks: the writes of the P-state, of the cap and of the suspect record; what the Chaise reads of the rails and sets of
their voltages while it runs and the PWR page works; the junctions and their duty; a thermal trip, which darkens every laser; the loss of a PLL and
the drift of the reference, where the THERM and CLK pages work. (Readings of the model: log entries 14, 58, 59, 62 and 95.) -/
def Obligations.PowerAndClocks : Prop :=
  ∀ s : State,
    (s.hw.up = true → ∀ (p : Path) (w : W32),
      (s.hw.admits p Pg.pwr 0x040 = true → s.hw.anyExact = false → exec (.pwrPstateWrite p w) s = .next (s.done fun h =>
        ({ h with power := { h.power with pend := true } } : Hw).onPg (Pages.put Reg.PWR_PSTATE 2 0 (fld w 2 0)))) ∧
      (s.hw.admits p Pg.pwr 0x048 = true → (wbit w 31 = true → s.hw.anyExact = false) → exec (.pwrCapWrite p w) s = .next (s.done (Hw.onPg fun g =>
        (g.wr Reg.PWR_CAP (w &&& 0x8000FFFF#32)).setb Reg.PWR_STAT 0 (wbit w 31)))) ∧
      (s.hw.admits p Pg.pwr 0x070 = true → exec (.pwrSuspectClear p) s = .next (s.done (Hw.onPg fun g =>
        ((g.setb Reg.PWR_SUSPECT 31 false).wr64 Reg.PWR_UV_FIRST_LO 0).wr64 Reg.PWR_UV_LAST_LO 0)))) ∧
    (s.hw.power.inReset = false → s.hw.chaiseDead = false → s.hw.pg.works Pg.pwr = true →
      (∀ (rails : List (Fin 9 × VrRead)) (bad : List (Fin 9)),
        exec (.vrStatusPoll rails bad) s = .next (s.done (Hw.onPg fun p =>
          let p1 := p.railPoll rails bad
          (if p1.get Reg.CMP_STAT 31 29 = 3 then p1.upd Reg.CMP_HB (· + 1) else p1).sramCheck)) ∧
        exec (.pmbAlertN rails) s = .next (s.done (Hw.onPg fun p =>
          (rails.filter fun r => decide (3 ≤ r.1.val)).foldl (fun p r => p.railRead r.1.val r.2) p))) ∧
      exec .avsUpdate s = .next (s.done (Hw.onPg fun p => [0, 1, 2].foldl (fun p k =>
        p.upd (Reg.PWR_AVS_D0 + k) fun w => BitVec.ofNat 32 (avsStep (if k = 2 then 750 else 650) (fld w 15 0)
          (Config.avsTarget k (p.get Reg.FUSE_CODE 11 8) (p.railHot k)))) p))) ∧
    (s.hw.power.inReset = false → s.hw.pg.works Pg.therm = true →
      (∀ (sn : List Int) (near ports : List Nat) (far : List (Fin 8)), exec (.thermSample sn near ports far) s = .next (s.done (Hw.onPg fun p =>
        ((sn.zipIdx.foldl (fun p x => if x.2 < 20 then p.sensorRead x.2 x.1 else p) p).otherTemps near ports far).showHot))) ∧
      exec .thermDutyStep s = .next (s.done fun h => { h with power := { h.power with thermStep :=
        if (h.pg.thrLevel : Int) ≤ h.pg.hot.1 then 1 else if h.pg.hot.1 ≤ (h.pg.thrLevel : Int) - h.pg.thrHyst then 2 else 0 } })) ∧
    (let dark (p : Pages) : Pages := (List.range 10).foldl (fun p k => p.setb (Reg.OPE_STAT k) 30 false) p
     exec .thermtrip s = .next { s with hw := Hw.onPg dark { s.hw with power := { s.hw.power with tripped := true } } }) ∧
    (s.hw.up = true → s.hw.pg.works Pg.clk = true → ∀ (k : Fin 14) (i : WarmIn),
      let lose (h : Hw) : Hw := h.onPg fun p => ((p.raise Pg.clk 0 k.val none).setb Reg.CLK_STAT k.val false).sat Reg.CLK_LOCKLOSS_CNT 1
      (k.val = 0 → exec (.pllUnlock k i) s = .next (s.done fun h =>
        let h1 := lose h
        { h1 with chaise := { h1.chaise with stopped := true } })) ∧
      (k.val = 13 → exec (.pllUnlock k i) s = .next (s.done fun h => (lose h).hostLink 0 0 false false)) ∧
      (k.val ≠ 0 → k.val ≠ 13 → (lose s.hw).chaiseDead = false → (lose s.hw).pg.devState ≠ 1 →
        exec (.pllUnlock k i) s = .next (s.done fun h => (lose h).warmReset 2 i))) ∧
    (s.hw.up = true → s.hw.pg.works Pg.clk = true → s.hw.pg.unarmed Pg.clk = true → ∀ t : Int,
      (-1000 ≤ t → t ≤ 1000 → exec (.frefDrift t) s = .next (s.done (Hw.onPg (Pages.put Reg.CLK_FREF_PPM 15 0 (t % 65536).toNat)))) ∧
      ((t < -1000 ∨ 1000 < t) → exec (.frefDrift t) s = .next (s.done (Hw.onPg fun p =>
        (p.put Reg.CLK_FREF_PPM 15 0 (t % 65536).toNat).raise Pg.clk 1 0 none))))

/-- Resets of a domain, which RST_CMD begins where it is not refused, and their ends; a warm reset by RST_CMD, and by a domain reset that takes too
long. The monitors of hangs record what they judge and, where its action is on, act: a core is fenced, a queue's context ends, a port is reset, a
Chaise that hangs brings a warm reset; a device that is out of service takes the Dareder's consent. (Readings of the model: log entries 64 and 74.) -/
def Obligations.ResetsAndHangs : Prop :=
  ∀ s : State, s.hw.up = true →
    (∀ p : Path, s.hw.admits p Pg.rst 0x040 = true → s.hw.pg.works Pg.rst = true →
      let stat (dom tgt : Nat) (h : Hw) : Hw := h.onPg fun g => ((g.setb Reg.RST_STAT 30 false).put Reg.RST_STAT 27 24 dom).put Reg.RST_STAT 7 0 tgt
      (∀ n : Fin 108, s.hw.rstBad 1 n.val = false → exec (.rstCore p n) s = .next (s.done fun h => (stat 1 n.val h).domainReset 1 n.val)) ∧
      (∀ b : Fin 12, s.hw.rstBad 2 b.val = false → exec (.rstBay p b) s = .next (s.done fun h => (stat 2 b.val h).domainReset 2 b.val)) ∧
      (∀ k : Fin 10, s.hw.rstBad 3 k.val = false → exec (.rstPort p k) s = .next (s.done fun h => (stat 3 k.val h).domainReset 3 k.val)) ∧
      (s.hw.rstBad 4 0 = false → exec (.rstRouter p) s = .next (s.done fun h => (stat 4 0 h).domainReset 4 0)) ∧
      (∀ i : WarmIn, s.hw.rstBad 5 0 = false → exec (.warm p i) s = .next (s.done fun h => (stat 5 0 h).warmReset 1 i))) ∧
    (∀ (d : Nat × Nat) (rest : List (Nat × Nat)), s.hw.power.doms = d :: rest →
      (s.hw.power.escalate = false → exec .domainResetDone s = .next (s.done fun h =>
        ({ h with power := { h.power with doms := rest } } : Hw).onPg fun p => (p.enableAll (p.domEnable d.1 d.2)).setb Reg.RST_STAT 31 (!rest.isEmpty))) ∧
      (∀ i : WarmIn, s.hw.pg.unarmed Pg.rst = true → exec (.rstTimeout i) s = .next (s.done fun h =>
        (h.onPg (Pages.raise Pg.rst 0 (d.1 * 2 ^ 28 + d.2) none)).warmReset 4 i))) ∧
    (∀ n : Fin 108, s.hw.coreWatched n.val = true → exec (.coreHang n) s = .next (s.done fun h =>
      let h1 := h.hangEvent 1 n.val ((h.pg.slotCtx (h.pg.bayPart (n.val / 9))).bind h.pg.ctxId)
      if h.pg.hangAct 1 then h1.fence n.val 2 0 0 else h1)) ∧
    (∀ (q : BitVec 14) (c : Nat), s.hw.queueWatched q.toNat = true → s.hw.pg.qOwner q.toNat = some c → exec (.queueHang q) s = .next (s.done fun h =>
      let h1 := h.hangEvent 2 q.toNat (h.pg.ctxId c)
      if h.pg.hangAct 2 && decide (c ≠ 0) && h.pg.ctxSt c = 1 then h1.tearBegin c else h1)) ∧
    (∀ k : Fin 10, s.hw.portWatched k.val = true → exec (.portHang k) s = .next (s.done fun h =>
      let h1 := h.hangEvent 3 k.val (h.portCx k.val)
      if h.pg.hangAct 3 then h1.domainReset 3 k.val else h1)) ∧
    (∀ i : WarmIn, s.hw.cmpWatched = true → exec (.cmpHang i) s = .next (s.done fun h =>
      let h1 := h.hangEvent 4 0 none
      if h.pg.hangAct 4 then h1.warmReset 3 i else h1)) ∧
    (∀ p : Path, s.hw.admits p Pg.hang 0x04C = true → s.hw.pg.bit Reg.HANG_STAT 31 = true →
      exec (.hangConsent p) s = .next (s.done (Hw.onPg (Pages.setb Reg.HANG_STAT 30 true))))

/-- Spares and shadow mode: a fence of a core, the switch of a spare into a Bay that waits at its partition's idle or hold, the end of its zeroing,
and a retest with its outcome; the choice of shadow mode on an ACTIVE storage port without a launch. (Readings of the model: log entry 47.) -/
def Obligations.SparesAndShadow : Prop :=
  ∀ s : State, s.hw.up = true → ∀ b : Fin 12,
    (∀ p : Path, s.hw.admits p (Pg.bay b.val) 0x04C = true →
      (∀ k : Fin 9, exec (.bayFence p b k) s = .next (s.done fun h => h.fence (9 * b.val + k.val) 3 0 0)) ∧
      (∀ i k : Nat, s.hw.pg.mayswitch b.val = true → s.hw.pg.lostSlot b.val = some i → s.hw.pg.spareOf b.val = some k →
        s.hw.pg.bit (Reg.BAY_STAT b.val) 31 = false → (s.hw.bay b.val).zeroing = none →
        exec (.baySwitch p b) s = .next (s.done fun h =>
          (h.onPg fun g => ((g.put (Reg.BAY_L2P b.val) (4 * i + 3) (4 * i) k).setCoreSt (9 * b.val + k) 0).sat (Reg.BAY_SWITCH_CNT b.val) 1).modBay b.val
            fun x => { x with zeroing := some k })) ∧
      (∀ k : Fin 9, s.hw.pg.coreSt (9 * b.val + k.val) = 3 → (s.hw.bay b.val).retest = none →
        exec (.retest p b k) s = .next (s.done fun h =>
          (h.modBay b.val fun x => { x with retest := some k.val }).onPg (Pages.setb (Reg.BAY_STAT b.val) 30 true)))) ∧
    (∀ k : Nat, (s.hw.bay b.val).zeroing = some k → exec (.spareZeroDone b) s = .next (s.done fun h =>
      ((h.modCore (9 * b.val + k) fun c => { c with scr := [], scrFlips := [] }).modBay b.val fun x => { x with zeroing := none }).onPg (Pages.capBays 0 1))) ∧
    (∀ k : Nat, (s.hw.bay b.val).retest = some k → s.hw.pg.unarmed (Pg.bay b.val) = true →
      exec (.retestDone b true) s = .next (s.done fun h =>
        ((((h.modBay b.val fun x => { x with retest := none }).onPg (Pages.setb (Reg.BAY_STAT b.val) 30 false)).modCore (9 * b.val + k) fun _ => Core.reset).onPg
          fun p => ((corePages (9 * b.val + k)).foldl (fun p pg =>
            ((p.setb (Reg.PG_CTRL pg) 0 true).setb (Reg.PG_CTRL pg) 1 false).setb (Reg.PG_STAT pg) 30 false) p).setCoreSt (9 * b.val + k) 1)) ∧
      exec (.retestDone b false) s = .next (s.done fun h =>
        (((h.onPg (Pages.raise (Pg.bay b.val) 3 k (h.pg.bayCx b.val))).modBay b.val fun x => { x with retest := none }).onPg
          (Pages.setb (Reg.BAY_STAT b.val) 30 false)).onPg fun p => (corePages (9 * b.val + k)).foldl (fun p pg => p.setb (Reg.PG_CTRL pg) 0 false) p)) ∧
    (∀ (p : Path) (w : W32), s.hw.admits p (Pg.bay 0) 0x100 = true → s.hw.anyLaunch = false → (fld w 19 16 = 8 ∨ fld w 19 16 = 9) →
      s.hw.pg.linkActive (fld w 19 16) = true →
      exec (.shdwCtrlWrite p w) s = .next (s.done (Hw.onPg fun g =>
        (g.wr Reg.SHDW_CTRL (w &&& 0xC00F00FF#32)).setb Reg.SHDW_STAT 31 (fld w 31 30 = 1 || fld w 31 30 = 2))))

/-! ## The pod (R562 to R572) -/

/-- The messages of the pod, where the extension firmware runs and takes them: the active Dareder keeps what RAS, TELE, CONFIG_ACK, CONGEST and
COLLECT_RSP bring, and acts on it: a record of class DEVICE fences the device, an event of a link that fails changes the banks, and the last OK of a
configuration makes its epoch the pod's; a Dareder hears the other's heartbeat, and the standby keeps the log and commits it; a worker takes a CONFIG
that changes its place two beats ahead on a whole beat and arms BEAT_SET for it, and answers COLLECT; its Chaise reports congestion, and a standby
that misses two heartbeats takes over. (Readings of the model: log entries 15, 76, 77 and 93.) -/
def Obligations.PodMessages : Prop :=
  ∀ (s : State) (src : PktSrc) (k : Packet) (t : Hw), s.hw.up = true →
    (t.extUp = true → ∀ kind : Nat, s.hw.acceptsMg (mgTest kind) src k t → leAt k.payload 0 1 = kind →
      (t.pg.isDareder = true → t.pod.active = true →
        let ras (h : Hw) : Hw := h.onPod fun x => { x with ras := (k.src, k.mgBody) :: x.ras }
        let tele (h : Hw) : Hw := h.onPod fun x => { x with tele := (k.src, k.mgBody) :: x.tele }
        let acked (h : Hw) : Hw := h.onPod fun x => { x with acks := tinsert (terase x.acks k.src) k.src (leAt k.payload 1 1 * 256 + leAt k.mgBody 0 1) }
        (kind = 1 → leAt k.mgBody 1 1 / 16 % 8 ≠ 6 → exec (.ras src) s = .next (s.done fun _ => ras t)) ∧
        (kind = 1 → leAt k.mgBody 1 1 / 16 % 8 = 6 → exec (.ras src) s = .next (s.done fun _ => (ras t).fenceDevice k.src)) ∧
        (kind = 2 → leAt k.mgBody 3 1 ≠ 6 → leAt k.mgBody 3 1 ≠ 7 → exec (.tele src) s = .next (s.done fun _ => tele t)) ∧
        (kind = 2 → leAt k.mgBody 3 1 = 7 → leAt k.mgBody 1 1 % 16 = 8 → (k.src, leAt k.mgBody 2 1) ∉ t.pod.down →
          exec (.tele src) s = .next (s.done fun _ => ((tele t).onPod fun x => { x with down := (k.src, leAt k.mgBody 2 1) :: x.down }).reroute)) ∧
        (kind = 7 → t.pod.config = none → exec (.configAck src) s = .next (s.done fun _ => acked t)) ∧
        (∀ ep : Nat, kind = 7 → t.pod.config = some (ep, [k.src]) → leAt k.payload 1 1 = 0 → leAt k.mgBody 0 1 = ep →
          exec (.configAck src) s = .next (s.done fun _ => (acked t).onPod fun x => { x with config := none, cfgEp := ep })) ∧
        (kind = 8 → exec (.congest src) s = .next (s.done fun _ => t.onPod fun x => { x with congest := tinsert (terase x.congest k.src) k.src k.mgBody })) ∧
        (kind = 10 → exec (.collectRsp src) s = .next (s.done fun _ =>
          (t.onPod fun x => { x with collected := tinsert (terase x.collected k.src) k.src k.mgBody }).podWrites 7))) ∧
      (t.pg.isDareder = true → kind = 3 → exec (.heartbeat src) s = .next (s.done fun _ => t.onPod fun x =>
        let up := leAt k.mgBody 0 8 = 1 && decide (x.term < k.mgTerm)
        { x with heard := true, missed := 0, active := x.active && !up, term := if up then k.mgTerm else x.term
                 job := if up then none else x.job, config := if up then none else x.config, proven := x.proven && !up })) ∧
      (t.pg.isDareder = true → t.pod.active = false →
        (kind = 4 → exec (.log src) s = .next (s.done fun _ => t.onPod fun x =>
          { x with logs := x.logs ++ [(k.mgSeq, k.mgBody)], gap := x.gap || decide (x.gen + 1 < k.mgSeq) })) ∧
        (kind = 5 → t.pod.gen < k.mgSeq → (t.pod.logs.filter fun l => l.1 = k.mgSeq) ≠ [] → exec (.commitGen src) s = .next (s.done fun _ => t.onPod fun x =>
          { x with applied := if x.gap then x.logs.filter (fun l => l.1 = k.mgSeq) else x.applied ++ x.logs.filter (fun l => l.1 = k.mgSeq),
                   gen := k.mgSeq, gap := false, logs := x.logs.filter fun l => decide (k.mgSeq < l.1) }))) ∧
      (t.pg.isDareder = false →
        (kind = 6 → t.pg.cfgMoves (cfgOf k.mgBody) = true → t.anyLaunch = false → t.pg.fbc.toNat + 2 * t.pg.beatLen ≤ (cfgOf k.mgBody).atFbc →
          (cfgOf k.mgBody).atFbc % t.pg.beatLen = 0 → t.pg.bit Reg.BEAT_LEN_NEXT 31 = false →
          exec (.config src) s = .next (s.done fun _ => (t.onPg fun p => ((cfgOf k.mgBody).set p).setb Reg.BEAT_SET_CTRL 31 true).onPod fun x => { x with pending := some (cfgOf k.mgBody) })) ∧
        (kind = 9 → exec (.collect src) s = .next (s.done fun _ => t.mgMsg ⟨0xFFFF, 10, 0, 0, BitVec.ofNat 64 k.mgSeq, t.collectBody⟩)))) ∧
    (s.hw.pg.isDareder = false → s.hw.extUp = true → exec .congestPeriod s = .next (s.done fun h =>
      let body := (List.range 80).flatMap fun i => bytesLE 2 (tget (fun _ => 0) h.pod.busy i)
      (h.onPod fun x => { x with busy := [] }).mgMsg ⟨0xFFFF, 8, 0, 0, BitVec.setWidth 64 h.pg.beatNum, body⟩)) ∧
    (s.hw.pg.isDareder = true → s.hw.pod.active = false → s.hw.extUp = true → 2 ≤ s.hw.pod.missed → exec .takeover s = .next (s.done fun h =>
      let h1 := (h.podWrites 1).onPod fun x => { x with term := x.term + 1, active := true, logs := [], collected := [], acks := [], proven := false }
      let h2 := (h1.onPg (Pages.put Reg.BEAT_SERVO_CTRL 3 0 15)).podWrites 4
      (Config.podWorkers h2.pod.applied).foldl (fun h n => h.mgMsg ⟨n, 9, 0, BitVec.ofNat 32 h.pod.term, 0, []⟩) h2))

/-! ## Reset and the held device (R507, R514) -/

/-- RESET_N asserted: the reset state is held and does not run, no command waits, and these registers read the values the spec gives them; an
assertion of RESET_N in any state leaves the device held, with host memory and the flash as they are but for an update's erased end. (Readings of the
model: log entries 2 and 19.) -/
def Obligations.ResetState : Prop :=
  State.reset.pending = [] ∧ State.reset.hw.held = true ∧ State.reset.hw.up = false ∧
  ([(Reg.PWR_CAP, 0x800007D0#32), (Reg.BEAT_GUARD, 0x016F00F5#32), (Reg.HIF_CTX_STAT, 0), (Reg.RST_STAT, 0), (Reg.CAP_VER, 0)].all
    fun x => decide (State.reset.hw.pg.rd x.1 = x.2)) = true ∧
  ∀ s : State, ∃ t : State, exec .resetNAssert s = .next t ∧ t.hw.held = true ∧ t.pending = s.pending ∧ t.hw.dev.mem.host = s.hw.dev.mem.host ∧
    t.hw.chaise.flash = s.hw.chaise.endUpdate.flash

/-- While RESET_N holds the device, every step but the release of RESET_N leaves it held: lasers dark, nothing in any queue, core or context.
(Readings of the model: log entry 19.) -/
def Obligations.HeldStep : Prop :=
  ∀ s t : State, s.hw.held = true → (∀ i : BootIn, s.pending.head? ≠ some (.resetNRelease i)) → step s = .next t → t.hw.held = true

/-- After a thermal trip, every step but one of the pins and supplies leaves the lasers dark and what the stopped clocks move unchanged: the beat,
cores, contexts, links, router, collectives, update units, host interface, servo, pod and memory. (Readings of the model: log entry 20.) -/
def Obligations.TripStep : Prop :=
  ∀ (s t : State) (c : Instr) (rest : List Instr), s.pending = c :: rest → isPin c = false → s.hw.frozen = true → step s = .next t →
    t.hw.frozen = true ∧ Hw.sameClocked s.hw t.hw

/-! ## Packets and atomics (R273, R349, R373, R376) -/

/-- A packet's header and payload, read from its bytes, give the packet back: no bit of any field is dropped. (Readings of the model: log entry 9.) -/
def Obligations.PacketRoundTrip : Prop :=
  ∀ k : Packet, k.dst < 2 ^ 16 → k.src < 2 ^ 16 → k.ctx < 2 ^ 8 → k.gen < 16 → k.bank < 2 → k.vc < 8 → k.opc < 2 ^ 8 → k.fep < 2 ^ 8 →
    k.addr < 2 ^ 48 → k.len < 2 ^ 13 → k.beat < 8 → k.pseq < 64 → k.tag < 2 ^ 23 → k.score = Config.packetCore k.hcrc.toNat % 128 →
    Packet.parse k.bytes = k

/-- A packet sent on a link leaves as DATA flits which, delivered in order at a link that is not in QUARANTINE, give that packet and no other, and
leave no part of one. (Readings of the model: log entry 33.) -/
def Obligations.FlitsCarryPacket : Prop :=
  ∀ (p q : Nat) (k : Packet) (v w : LV), w.pg.get (Reg.LINK_STAT q) 27 26 = 0 → v.lk.replay = [] →
    let r := (v.sendPacket p k).lk.replay.foldl (fun a f => let x := a.2.deliver q f.1; (a.1 ++ x.1, x.2)) (([] : List Packet), w)
    r.1 = [Packet.parse k.bytes] ∧ r.2.lk.part = [] ∧ (v.sendPacket p k).lk.replay.length = flitsOf k.payload.length

/-- R349: a flit is 256 B, each field of its overhead at its place, little-endian, the CRC over all the other bytes, then the payload, zero beyond its
end. -/
def Obligations.FlitLayout : Prop :=
  ∀ (type vc seq : Nat) (sop eop : Bool) (h : TxHead) (payload : List Byte), type < 16 → vc < 8 → seq < 4096 → payload.length ≤ 240 →
    let b := flitBytes type vc sop eop seq h payload
    b.length = 256 ∧ leAt b 0 1 / 16 = type ∧ leAt b 0 1 % 16 = vc ∧ leAt b 1 1 = sop.toNat * 128 + eop.toNat * 64 ∧ leAt b 2 2 = seq ∧
    leAt b 4 2 = 0x8000 + h.nak.toNat * 0x4000 + h.num.toNat ∧ leAt b 6 2 = (match h.credit with | some c => c.1.val * 0x2000 + 0x1000 + c.2.toNat | none => 0) ∧
    leAt b 8 1 = (if eop then payload.length else 240) ∧ leAt b 9 3 = 0 ∧ leAt b 12 4 = (crc32 (b.take 12 ++ b.drop 16)).toNat ∧
    slice 16 payload.length b = payload ∧ ∀ i, 16 + payload.length ≤ i → b.getD i 0 = 0

/-- R376: the pieces of a transfer of n bytes to address a, in address order, each within one 4,096-byte block, together the whole transfer, as many
as ceil((o + n) / 4,096); packet i has PSEQ i and the transfer's VC; a packet of payload P is ceil((32 + P) / 240) flits, at most 18. -/
def Obligations.TransferPieces : Prop :=
  (∀ a n : Nat, 0 < n →
    (pieces a n).length = (a % 4096 + n + 4095) / 4096 ∧
    (∀ x ∈ pieces a n, 0 < x.2 ∧ x.1 % 4096 + x.2 ≤ 4096 ∧ (x.1 = a ∨ x.1 % 4096 = 0)) ∧
    (pieces a n).flatMap (fun x => List.range' x.1 x.2) = List.range' a n) ∧
  (∀ (g : Pages) (dst opc vc ctx gen addr tag score : Nat) (bs : List Byte) (x : (Nat × Nat) × Nat), x.2 < 64 →
    (g.piece dst opc vc ctx gen addr tag score bs x).pseq = x.2 ∧ (g.piece dst opc vc ctx gen addr tag score bs x).vc = vc ∧
    (g.piece dst opc vc ctx gen addr tag score bs x).addr = x.1.1) ∧
  (∀ n : Nat, flitsOf n = (32 + n + 239) / 240) ∧ (∀ n : Nat, n ≤ 4096 → flitsOf n ≤ 18) ∧ flitsOf 4096 = 18

/-- The atomics that a context holds for the boundary: what the boundary makes of them depends on each source's own order alone, and not on how the
arrivals of different sources interleave. (Readings of the model: log entry 9.) -/
def Obligations.AtomicsOrderFree : Prop :=
  ∀ (h : Hw) (c : Nat) (l1 l2 : List HeldAtom), (l1.map (·.seq)).Pairwise (· < ·) → (l2.map (·.seq)).Pairwise (· < ·) →
    (∀ n k : Nat, ((l1.filter fun a => a.node = n ∧ a.core = k).map fun a => (a.aop, a.cva, a.val)) =
      ((l2.filter fun a => a.node = n ∧ a.core = k).map fun a => (a.aop, a.cva, a.val))) →
    (h.modCtx c fun x => { x with held := l1 }).atomFlush c = (h.modCtx c fun x => { x with held := l2 }).atomFlush c

/-! ## Formats, memory and register space -/

/-- R123: a finite source of magnitude m * 2^e with 2^j <= m < 2^(j+1), whose floor(log2 |x|) is j + e, yields that plus 127 clamped to 0 to 255, and
SCALE_CLAMP where it is clamped, whatever its sign and RC; zero yields 0x00 and no flag, a NaN 0x00 and NAN_IN. R109: code s has the value 2^(s -
127). -/
def Obligations.ConversionToE8s : Prop :=
  ∀ (rc : Rc) (draw : Nat),
    (∀ (neg : Bool) (m j : Nat) (e : Int), 2 ^ j ≤ m → m < 2 ^ (j + 1) →
      let k : Int := (j : Int) + e + 127
      Fmt.e8s.encode rc draw (.num ⟨neg, m, e, false⟩) =
        (if k < 0 then (0, flScaleClamp) else if 255 < k then (255, flScaleClamp) else (k.toNat, 0))) ∧
    (∀ (neg : Bool) (e : Int), Fmt.e8s.encode rc draw (.num ⟨neg, 0, e, false⟩) = (0, 0)) ∧
    Fmt.e8s.encode rc draw .nan = (0, flNanIn) ∧
    (∀ s : Nat, s < 256 → Fmt.e8s.decode s = .num ⟨false, 1, (s : Int) - 127, false⟩)

/-- R114: M1 holds 0 or 1; any source that is not zero, a NaN included, converts into 1, and zero into 0; out of M1 comes what the destination format
makes of 0 or 1. -/
def Obligations.ConversionsOfM1 : Prop :=
  (∀ (rc : Rc) (draw : Nat) (v : Val), (Fmt.m1.encode rc draw v).1 = (match v with | .nan => 1 | .num x => if x.isZero then 0 else 1)) ∧
  Fmt.m1.width = 1 ∧ Fmt.m1.decode 0 = .num .zero ∧ Fmt.m1.decode 1 = .num (Dy.ofInt 1) ∧
  (∀ (t : Fmt) (rc : Rc) (draw : Nat), t.encode rc draw (Fmt.m1.decode 0) = (0, 0) ∧
    ∃ (one : Nat) (x : Dy), t.encode rc draw (Fmt.m1.decode 1) = (one, 0) ∧ t.decode one = .num x ∧ x.eq (Dy.ofInt 1) = true)

/-- Memory is bytes: a byte reads what was written there last, every byte outside the written ones reads as before, and the canonical form stays;
device memory and host memory alike, and the memory that one function reaches apart from another's. (Readings of the model: log entry 3.) -/
def Obligations.MemoryBytes : Prop :=
  ∀ (m : Mem) (fn a : Nat) (bs : List Byte),
    (∀ x : Nat, (m.setBytes a bs).byte x = if a ≤ x ∧ x < a + bs.length then bs.getD (x - a) 0 else m.byte x) ∧
    (m.hostWrite fn a bs).hostRead fn a bs.length = bs ∧
    (∀ b n : Nat, (b + n ≤ a ∨ a + bs.length ≤ b) → (m.hostWrite fn a bs).hostRead fn b n = m.hostRead fn b n) ∧
    (∀ g b n : Nat, g ≠ fn → a + bs.length ≤ 2 ^ 64 → b + n ≤ 2 ^ 64 → (m.hostWrite fn a bs).hostRead g b n = m.hostRead g b n) ∧
    (m.setBytes a bs).host = m.host ∧ (m.hostWrite fn a bs).bytes = m.bytes ∧
    (m.wf = true → (m.setBytes a bs).wf = true ∧ (m.hostWrite fn a bs).wf = true)

/-- A read of a register leaves the device as it is, but for the snapshot of an RSN low word, and for FUSE, whose reads an armed injection meets.
(Readings of the model: log entries 23, 56 and 70.) -/
def Obligations.ReadsWithoutEffect : Prop :=
  ∀ (h : Hw) (p : Path) (pg off : Nat),
    (∀ r, regRow (homePage pg off) off = some r → r.kind ≠ .eventLo ∧ r.kind ≠ .timeLo) → (pageKind (homePage pg off) = .fuse → h.pg.unarmed Pg.fuse = true) →
    (h.readReg p pg off).2 = h

/-- Virtual functions are apart: a VF that has a context sees that context's CTX page and doorbells of that context's queue range, and one that has
none sees nothing; a write by a VF without a context changes nothing. (Readings of the model: log entries 68 and 71.) -/
def Obligations.VfSeesOwnContext : Prop :=
  (∀ (g : Pages) (f a pg off : Nat), g.target (.host (f + 1)) a = .page pg off → g.funcCtx (f + 1) ≠ 0xFF ∧ pg = Pg.ctx (g.funcCtx (f + 1)) ∧ off < 4096) ∧
  (∀ (g : Pages) (f a q sub : Nat), g.target (.host (f + 1)) a = .bell q sub → g.funcCtx (f + 1) ≠ 0xFF ∧
    g.get (Reg.CTX_QRANGE (g.funcCtx (f + 1))) 29 16 ≤ q ∧
    q < g.get (Reg.CTX_QRANGE (g.funcCtx (f + 1))) 29 16 + g.get (Reg.CTX_QRANGE (g.funcCtx (f + 1))) 9 0) ∧
  (∀ (s : State) (f : Nat) (a : BitVec 26) (w : W32), s.hw.up = true → s.hw.pg.mgOut = [] → s.hw.pg.funcCtx (f + 1) = 0xFF → a.toNat % 4 = 0 →
    exec (.registerWrite (.host (f + 1)) a true (bytesLE 4 w.toNat)) s = .next s)

/-! ## Frames -/

/-- An event of a link changes no other port's link, and nothing of the device beyond registers, links and the router: every byte of memory stays, and
all of every core but the entries that its FIFO reserves for a message whose header arrives. -/
def Obligations.LinkFrame : Prop :=
  ∀ (s t : State) (c : Instr) (k : Fin 10), linkPort? c = some k → exec c s = .next t →
    t.pending = s.pending ∧ Hw.sameBeyondLinks s.hw t.hw ∧ ∀ j : Nat, j ≠ k.val → t.hw.link j = s.hw.link j

/-- A write to the tiers stores no byte outside its range: a byte whose line no write-combining entry holds keeps its value, and so do host memory and
every translation. A whole line, in a unit that lets it through and on a stack whose interface has not failed or is not used, holds what was written,
and no entry of that line stays open. (Readings of the model: log entry 63.) -/
def Obligations.TierWriteFrame : Prop :=
  ∀ (d : Dev) (r : Reader) (cx : CtxId),
    (∀ (a : Nat) (bs : List Byte) (x : Nat), (∀ e ∈ d.mem.wcb, e.line ≠ x / 64) → (x < a ∨ a + bs.length ≤ x) →
      (d.tierWrite r cx a bs).mem.byte x = d.mem.byte x) ∧
    (∀ (a : Nat) (bs : List Byte), (d.tierWrite r cx a bs).mem.host = d.mem.host ∧ (d.tierWrite r cx a bs).mem.tlb = d.mem.tlb) ∧
    (∀ (line : Nat) (bs : List Byte), bs.length = 64 → d.tierOff r line = false → (r = .suu ∨ (d.stackDead none line).1 = false) →
      (∀ i, i < 64 → (d.tierWrite r cx (64 * line) bs).mem.byte (64 * line + i) = bs.getD i 0) ∧
      ∀ e ∈ (d.tierWrite r cx (64 * line) bs).mem.wcb, e.line ≠ line)

/-- A write of a plain register changes that register and nothing else: every other register, every byte of memory and all the rest of the device
stay; the register keeps the fields that are not written. -/
def Obligations.PlainWriteFrame : Prop :=
  ∀ (s : State) (p : Path) (a : BitVec 26) (pg off : Nat) (r : RegRow) (w : W32), s.hw.up = true → s.hw.pg.mgOut = [] → a.toNat % 4 = 0 →
    s.hw.pg.target p a.toNat = .page pg off → s.hw.admits p pg off = true → regRow pg off = some r →
    pageKind pg ∈ [PageKind.dev, .scr, .ntc, .ftc, .bcu, .clk, .therm, .ras, .tele] →
    ∃ t : State, exec (.registerWrite p a true (bytesLE 4 w.toNat)) s = .next t ∧
      t.hw.pg.rd (regKey pg off) = r.mix (s.hw.pg.rd (regKey pg off)) w ∧ (∀ k : Nat, k ≠ regKey pg off → t.hw.pg.rd k = s.hw.pg.rd k) ∧
      t.hw.dev.mem = s.hw.dev.mem ∧ { t.hw with dev := s.hw.dev } = s.hw ∧ t.pending = s.pending
end

