-- ==== Sys2Proof/Laws/Bits.lean ====
section
/-! SUPPORT. Laws of bit fields: what a field reads after a field is set. -/

namespace Sys2Proof.Machine

theorem wbit_eq {n : Nat} (w : BitVec n) (i : Nat) : wbit w i = w.getLsbD i := rfl

/-- A word split at a field. -/
theorem fld_split {n : Nat} (w : BitVec n) {hi lo : Nat} (h : lo ≤ hi) :
    w.toNat = 2 ^ lo * (2 ^ (hi + 1 - lo) * (w.toNat / 2 ^ (hi + 1)) + fld w hi lo) + w.toNat % 2 ^ lo := by
  have e : 2 ^ (hi + 1) = 2 ^ lo * 2 ^ (hi + 1 - lo) := by rw [← pow_add]; congr 1; omega
  have a := Nat.div_add_mod w.toNat (2 ^ lo)
  have b := Nat.div_add_mod (w.toNat / 2 ^ lo) (2 ^ (hi + 1 - lo))
  rw [Nat.div_div_eq_div_mul, ← e] at b
  unfold fld
  rw [b]
  exact a.symm

/-- A word with a field set, as a number. -/
theorem setFld_toNat {n : Nat} (w : BitVec n) {hi lo : Nat} (h : lo ≤ hi) (hn : hi < n) (v : Nat) :
    (setFld w hi lo v).toNat = 2 ^ lo * (2 ^ (hi + 1 - lo) * (w.toNat / 2 ^ (hi + 1)) + v % 2 ^ (hi + 1 - lo)) + w.toNat % 2 ^ lo := by
  have s := fld_split w h
  have e : 2 ^ (hi + 1) = 2 ^ lo * 2 ^ (hi + 1 - lo) := by rw [← pow_add]; congr 1; omega
  have x : w.toNat - fld w hi lo * 2 ^ lo + v % 2 ^ (hi + 1 - lo) * 2 ^ lo =
      2 ^ lo * (2 ^ (hi + 1 - lo) * (w.toNat / 2 ^ (hi + 1)) + v % 2 ^ (hi + 1 - lo)) + w.toNat % 2 ^ lo := by
    have : fld w hi lo * 2 ^ lo ≤ w.toNat := by
      rw [s]; nlinarith [Nat.zero_le (2 ^ lo * (2 ^ (hi + 1 - lo) * (w.toNat / 2 ^ (hi + 1)))), Nat.zero_le (w.toNat % 2 ^ lo)]
    rw [Nat.mul_add, Nat.mul_comm (2 ^ lo) (v % _)]
    rw [Nat.mul_add, Nat.mul_comm (2 ^ lo) (fld _ _ _)] at s
    omega
  have lt : w.toNat - fld w hi lo * 2 ^ lo + v % 2 ^ (hi + 1 - lo) * 2 ^ lo < 2 ^ n := by
    rw [x]
    have a1 : w.toNat / 2 ^ (hi + 1) < 2 ^ (n - (hi + 1)) := by
      rw [Nat.div_lt_iff_lt_mul (Nat.two_pow_pos _), ← pow_add]
      have : n - (hi + 1) + (hi + 1) = n := by omega
      rw [this]; exact w.isLt
    have a2 : v % 2 ^ (hi + 1 - lo) < 2 ^ (hi + 1 - lo) := Nat.mod_lt _ (Nat.two_pow_pos _)
    have a3 : w.toNat % 2 ^ lo < 2 ^ lo := Nat.mod_lt _ (Nat.two_pow_pos _)
    have en : 2 ^ n = 2 ^ lo * (2 ^ (hi + 1 - lo) * 2 ^ (n - (hi + 1))) := by rw [← pow_add, ← pow_add]; congr 1; omega
    rw [en]
    have b1 : 2 ^ (hi + 1 - lo) * (w.toNat / 2 ^ (hi + 1)) + v % 2 ^ (hi + 1 - lo) + 1 ≤ 2 ^ (hi + 1 - lo) * 2 ^ (n - (hi + 1)) := by
      have := Nat.mul_le_mul_left (2 ^ (hi + 1 - lo)) (Nat.succ_le_of_lt a1)
      rw [Nat.mul_succ] at this
      omega
    have := Nat.mul_le_mul_left (2 ^ lo) b1
    rw [Nat.mul_succ] at this
    omega
  unfold setFld
  rw [BitVec.toNat_ofNat, Nat.mod_eq_of_lt lt, x]

/-- A bit of a word with a field set. -/
theorem wbit_setFld {n : Nat} (w : BitVec n) {hi lo : Nat} (h : lo ≤ hi) (hn : hi < n) (v j : Nat) :
    wbit (setFld w hi lo v) j = if lo ≤ j ∧ j ≤ hi then v.testBit (j - lo) else wbit w j := by
  have a3 : w.toNat % 2 ^ lo < 2 ^ lo := Nat.mod_lt _ (Nat.two_pow_pos _)
  have a2 : v % 2 ^ (hi + 1 - lo) < 2 ^ (hi + 1 - lo) := Nat.mod_lt _ (Nat.two_pow_pos _)
  simp only [wbit, ← BitVec.testBit_toNat]
  rw [setFld_toNat w h hn, Nat.testBit_two_pow_mul_add _ a3]
  by_cases c : j < lo
  · simp [c, show ¬ lo ≤ j by omega, Nat.testBit_mod_two_pow]
  · rw [if_neg c, Nat.testBit_two_pow_mul_add _ a2]
    by_cases d : j ≤ hi
    · simp [show lo ≤ j by omega, d, show j - lo < hi + 1 - lo by omega, Nat.testBit_mod_two_pow]
    · rw [if_neg (by omega), if_neg (by omega), Nat.testBit_div_two_pow]
      congr 1; omega

/-- A bit of a word with a bit set. -/
theorem wbit_setBit {n : Nat} (w : BitVec n) {i : Nat} (hn : i < n) (b : Bool) (j : Nat) :
    wbit (setBit w i b) j = if j = i then b else wbit w j := by
  unfold setBit
  rw [wbit_setFld w (Nat.le_refl i) hn]
  by_cases c : j = i
  · subst c; cases b <;> simp
  · rw [if_neg (by omega), if_neg c]

/-- Words whose bits agree. -/
theorem word_ext {n : Nat} {a b : BitVec n} (h : ∀ i, i < n → wbit a i = wbit b i) : a = b := BitVec.eq_of_getLsbD_eq fun i hi => h i hi

/-- A field of a word with that field set. -/
theorem fld_setFld_self {n : Nat} (w : BitVec n) {hi lo : Nat} (h : lo ≤ hi) (hn : hi < n) (v : Nat) :
    fld (setFld w hi lo v) hi lo = v % 2 ^ (hi + 1 - lo) := by
  have a3 : w.toNat % 2 ^ lo < 2 ^ lo := Nat.mod_lt _ (Nat.two_pow_pos _)
  have a2 : v % 2 ^ (hi + 1 - lo) < 2 ^ (hi + 1 - lo) := Nat.mod_lt _ (Nat.two_pow_pos _)
  unfold fld
  rw [setFld_toNat w h hn, Nat.mul_add_div (Nat.two_pow_pos _), Nat.div_eq_of_lt a3, Nat.add_zero, Nat.mul_add_mod, Nat.mod_mod]

/-- Two words agree on a field when they agree on its bits. -/
theorem fld_congr {n m : Nat} {a : BitVec n} {b : BitVec m} {hi lo : Nat} (h : ∀ i, lo ≤ i → i ≤ hi → wbit a i = wbit b i) : fld a hi lo = fld b hi lo := by
  unfold fld
  apply Nat.eq_of_testBit_eq
  intro j
  simp only [Nat.testBit_mod_two_pow, Nat.testBit_div_two_pow]
  by_cases c : j < hi + 1 - lo
  · have := h (j + lo) (by omega) (by omega)
    simp only [wbit, ← BitVec.testBit_toNat] at this
    simp [c, this]
  · simp [c]

/-- A field of a word with a field beside it set. -/
theorem fld_setFld_ne {n : Nat} (w : BitVec n) {hi lo hi' lo' : Nat} (h : lo ≤ hi) (hn : hi < n) (v : Nat) (d : hi' < lo ∨ hi < lo') :
    fld (setFld w hi lo v) hi' lo' = fld w hi' lo' :=
  fld_congr fun i a b => by rw [wbit_setFld w h hn, if_neg (by omega)]

theorem wbit_and {n : Nat} (a b : BitVec n) (i : Nat) : wbit (a &&& b) i = (wbit a i && wbit b i) := BitVec.getLsbD_and
theorem wbit_or {n : Nat} (a b : BitVec n) (i : Nat) : wbit (a ||| b) i = (wbit a i || wbit b i) := BitVec.getLsbD_or

/-- A bit outside a mask does not matter under it. -/
theorem setBit_and {n : Nat} (w m : BitVec n) {i : Nat} (hi : i < n) (b : Bool) (h : wbit m i = false) : setBit w i b &&& m = w &&& m :=
  word_ext fun j _ => by
    rw [wbit_and, wbit_and, wbit_setBit w hi]
    by_cases c : j = i
    · subst c; simp [h]
    · rw [if_neg c]

/-- Setting a bit to what it is changes nothing. -/
theorem setBit_same {n : Nat} (w : BitVec n) {i : Nat} (hi : i < n) : setBit w i (wbit w i) = w :=
  word_ext fun j _ => by
    rw [wbit_setBit w hi]
    by_cases c : j = i
    · subst c; simp
    · rw [if_neg c]

/-- Setting a field to what it is changes nothing. -/
theorem setFld_same {n : Nat} (w : BitVec n) {hi lo : Nat} (h : lo ≤ hi) (hn : hi < n) : setFld w hi lo (fld w hi lo) = w :=
  word_ext fun j _ => by
    rw [wbit_setFld w h hn]
    split
    · unfold fld
      rw [Nat.testBit_mod_two_pow, Nat.testBit_div_two_pow, wbit, ← BitVec.testBit_toNat]
      have : j - lo + lo = j := by omega
      simp [this, show j - lo < hi + 1 - lo by omega]
    · rfl

/-! ## Bytes -/

@[simp] theorem length_bytesLE (n v : Nat) : (bytesLE n v).length = n := by
  induction n generalizing v with
  | zero => rfl
  | succ n ih => simp [bytesLE, ih]

/-- A little-endian number of n bytes lies below 256^n. -/
theorem ofBytesLE_lt (bs : List Byte) : ofBytesLE bs < 256 ^ bs.length := by
  induction bs with
  | nil => simp [ofBytesLE]
  | cons b bs ih =>
    have h : b.toNat < 256 := b.isLt
    simp only [ofBytesLE, List.length_cons, Nat.pow_succ]
    omega


/-- A number's bytes spell the number, up to their width. -/
theorem ofBytesLE_bytesLE (n v : Nat) : ofBytesLE (bytesLE n v) = v % 256 ^ n := by
  induction n generalizing v with
  | zero => simp [bytesLE, ofBytesLE, Nat.mod_one]
  | succ n ih =>
    have e : ofBytesLE (bytesLE (n + 1) v) = v % 256 + 256 * ofBytesLE (bytesLE n (v / 256)) := by
      simp [bytesLE, ofBytesLE]
    rw [e, ih, pow_succ', Nat.mod_mul]

theorem join_lo_hi (v : W64) : join32 (lo32 v) (hi32 v) = v := by
  simp only [join32, lo32, hi32]
  apply BitVec.eq_of_toNat_eq
  simp; omega

end Sys2Proof.Machine
end

