-- ==== Sys2Proof/Laws/Table.lean ====
section
/-! SUPPORT. Laws of sparse tables: a read after a write gives the value written, a write leaves every other key alone, and every operation
keeps the canonical form. -/

namespace Sys2Proof.Machine

variable {α : Type}

@[simp] theorem tget_nil (d : Nat → α) (k : Nat) : tget d [] k = d k := rfl

theorem tget_terase_self (d : Nat → α) (t : Tbl α) (k : Nat) : tget d (terase t k) k = d k := by
  induction t with
  | nil => rfl
  | cons e t ih =>
    by_cases h : e.1 = k
    · simpa [terase, h] using ih
    · simpa [terase, h, tget] using ih

theorem tget_terase_ne (d : Nat → α) (t : Tbl α) {k j : Nat} (h : j ≠ k) : tget d (terase t k) j = tget d t j := by
  induction t with
  | nil => rfl
  | cons e t ih =>
    by_cases hk : e.1 = k
    · have : e.1 ≠ j := fun x => h (x ▸ hk)
      simpa [terase, hk, tget, h.symm] using ih
    · by_cases hj : e.1 = j
      · simp [terase, tget, hj, h]
      · simpa [terase, hk, tget, hj] using ih

theorem tget_tinsert_ne (d : Nat → α) (t : Tbl α) {k j : Nat} (v : α) (h : j ≠ k) : tget d (tinsert t k v) j = tget d t j := by
  induction t with
  | nil => simp [tinsert, tget, h.symm]
  | cons e t ih =>
    by_cases hk : e.1 < k
    · by_cases hj : e.1 = j
      · simp [tinsert, hj ▸ hk, tget, hj]
      · simpa [tinsert, hk, tget, hj] using ih
    · simp [tinsert, hk, tget, h.symm]

theorem mem_terase {e : Nat × α} {t : Tbl α} {k : Nat} : e ∈ terase t k ↔ e ∈ t ∧ e.1 ≠ k := by
  induction t with
  | nil => simp [terase]
  | cons x t ih =>
    by_cases h : x.1 = k
    · simp only [terase, h, if_true, ih, List.mem_cons]
      constructor
      · exact fun ⟨a, b⟩ => ⟨.inr a, b⟩
      · rintro ⟨rfl | a, b⟩
        · exact absurd h b
        · exact ⟨a, b⟩
    · simp only [terase, h, if_false, List.mem_cons, ih]
      constructor
      · rintro (rfl | ⟨a, b⟩)
        · exact ⟨.inl rfl, h⟩
        · exact ⟨.inr a, b⟩
      · rintro ⟨rfl | a, b⟩
        · exact .inl rfl
        · exact .inr ⟨a, b⟩

theorem tget_tinsert_self (d : Nat → α) (t : Tbl α) (k : Nat) (v : α) (h : ∀ e ∈ t, e.1 ≠ k) : tget d (tinsert t k v) k = v := by
  induction t with
  | nil => simp [tinsert, tget]
  | cons e t ih =>
    by_cases hk : e.1 < k
    · have := h e (by simp)
      simp only [tinsert, hk, if_true, tget, this, if_false]
      exact ih fun x hx => h x (by simp [hx])
    · simp [tinsert, hk, tget]

variable [DecidableEq α]

/-- A read after a write to the same key gives the value written. -/
@[simp] theorem tget_tset_self (d : Nat → α) (t : Tbl α) (k : Nat) (v : α) : tget d (tset d t k v) k = v := by
  unfold tset
  split
  · rename_i h; rw [tget_terase_self, h]
  · exact tget_tinsert_self d _ k v fun e he => (mem_terase.1 he).2

/-- A write leaves every other key alone. -/
theorem tget_tset_ne (d : Nat → α) (t : Tbl α) {k j : Nat} (v : α) (h : j ≠ k) : tget d (tset d t k v) j = tget d t j := by
  unfold tset
  split
  · exact tget_terase_ne d t h
  · rw [tget_tinsert_ne d _ v h, tget_terase_ne d t h]

theorem tget_tset (d : Nat → α) (t : Tbl α) (k j : Nat) (v : α) : tget d (tset d t k v) j = if j = k then v else tget d t j := by
  split
  · rename_i h; subst h; simp
  · rename_i h; exact tget_tset_ne d t v h

/-! ## The canonical form -/

theorem canonical_cons {d : Nat → α} {e : Nat × α} {t : Tbl α} :
    Tbl.canonical d (e :: t) = true ↔ e.2 ≠ d e.1 ∧ (∀ x ∈ t, e.1 < x.1) ∧ Tbl.canonical d t = true := by
  simp [Tbl.canonical, List.all_eq_true, and_assoc]

/-- A part of a canonical table is canonical. -/
theorem canonical_filter {d : Nat → α} (p : Nat × α → Bool) {t : Tbl α} (h : Tbl.canonical d t = true) : Tbl.canonical d (t.filter p) = true := by
  induction t with
  | nil => rfl
  | cons e t ih =>
    obtain ⟨h1, h2, h3⟩ := canonical_cons.1 h
    by_cases hp : p e = true
    · rw [List.filter_cons_of_pos hp]
      exact canonical_cons.2 ⟨h1, fun x hx => h2 x (List.mem_of_mem_filter hx), ih h3⟩
    · rw [List.filter_cons_of_neg hp]
      exact ih h3

omit [DecidableEq α] in
theorem terase_eq_filter (t : Tbl α) (k : Nat) : terase t k = t.filter fun e => decide (e.1 ≠ k) := by
  induction t with
  | nil => rfl
  | cons e t ih => by_cases h : e.1 = k <;> simp [terase, h, ih]

theorem canonical_terase {d : Nat → α} {t : Tbl α} (k : Nat) (h : Tbl.canonical d t = true) : Tbl.canonical d (terase t k) = true := by
  rw [terase_eq_filter]; exact canonical_filter _ h

theorem canonical_tdrop {d : Nat → α} (p : Nat → Bool) {t : Tbl α} (h : Tbl.canonical d t = true) : Tbl.canonical d (tdrop p t) = true :=
  canonical_filter _ h

omit [DecidableEq α] in
theorem mem_tinsert {e : Nat × α} {t : Tbl α} {k : Nat} {v : α} (h : e ∈ tinsert t k v) : e = (k, v) ∨ e ∈ t := by
  induction t with
  | nil => simpa [tinsert] using h
  | cons x t ih =>
    by_cases hk : x.1 < k
    · simp only [tinsert, hk, if_true, List.mem_cons] at h
      rcases h with rfl | h
      · exact .inr (by simp)
      · exact (ih h).imp id fun y => by simp [y]
    · simpa [tinsert, hk] using h

theorem canonical_tinsert {d : Nat → α} {t : Tbl α} {k : Nat} {v : α} (hv : v ≠ d k) (hk : ∀ e ∈ t, e.1 ≠ k)
    (h : Tbl.canonical d t = true) : Tbl.canonical d (tinsert t k v) = true := by
  induction t with
  | nil => simp [tinsert, Tbl.canonical, hv]
  | cons e t ih =>
    obtain ⟨h1, h2, h3⟩ := canonical_cons.1 h
    by_cases hlt : e.1 < k
    · simp only [tinsert, hlt, if_true]
      refine canonical_cons.2 ⟨h1, fun x hx => ?_, ih (fun x hx => hk x (by simp [hx])) h3⟩
      rcases mem_tinsert hx with rfl | hx
      · exact hlt
      · exact h2 x hx
    · simp only [tinsert, hlt, if_false]
      have hne := hk e (by simp)
      have hke : k < e.1 := by omega
      refine canonical_cons.2 ⟨hv, fun x hx => ?_, h⟩
      rcases List.mem_cons.1 hx with rfl | hx
      · exact hke
      · exact lt_trans hke (h2 x hx)

/-- A write keeps the canonical form. -/
theorem canonical_tset {d : Nat → α} {t : Tbl α} (k : Nat) (v : α) (h : Tbl.canonical d t = true) : Tbl.canonical d (tset d t k v) = true := by
  unfold tset
  split
  · exact canonical_terase k h
  · rename_i hv
    exact canonical_tinsert hv (fun e he => (mem_terase.1 he).2) (canonical_terase k h)

theorem canonical_tmod {d : Nat → α} {t : Tbl α} (k : Nat) (f : α → α) (h : Tbl.canonical d t = true) : Tbl.canonical d (tmod d t k f) = true :=
  canonical_tset _ _ h

theorem canonical_tsetList {d : Nat → α} {t : Tbl α} (k : Nat) (vs : List α) (h : Tbl.canonical d t = true) :
    Tbl.canonical d (tsetList d t k vs) = true := by
  induction vs generalizing t k with
  | nil => exact h
  | cons v vs ih => exact ih (k + 1) (canonical_tset k v h)

/-- Consecutive writes give what was written, and leave every other key alone. -/
theorem tget_tsetList (d : Nat → α) (t : Tbl α) (k : Nat) (vs : List α) (j : Nat) :
    tget d (tsetList d t k vs) j = if k ≤ j ∧ j < k + vs.length then vs.getD (j - k) (d j) else tget d t j := by
  induction vs generalizing t k with
  | nil => rw [if_neg (by simp)]; rfl
  | cons v vs ih =>
    rw [tsetList, ih, tget_tset]
    by_cases h : j = k
    · subst h; simp
    · by_cases h2 : k ≤ j ∧ j < k + (v :: vs).length
      · have h3 : k + 1 ≤ j ∧ j < k + 1 + vs.length := by simp only [List.length_cons] at h2; omega
        obtain ⟨i, rfl⟩ : ∃ i, j = k + 1 + i := ⟨j - (k + 1), by omega⟩
        have h4 : k + 1 + i - k = i + 1 := by omega
        rw [if_pos h3, if_pos h2, h4]
        simp
      · have h3 : ¬ (k + 1 ≤ j ∧ j < k + 1 + vs.length) := by simp only [List.length_cons] at h2; omega
        rw [if_neg h3, if_neg h2, if_neg h]

end Sys2Proof.Machine
end

