-- ==== Sys2Proof/Laws/State.lean ====
section
/-! SUPPORT. Laws of the state: what each update of a part leaves and changes, field by field, and reads of registers, cores, contexts, links
and queues after a write of one. -/

namespace Sys2Proof.Machine

/-! ## Each update, field by field -/

@[simp] theorem Hw.onPg_dev (f : Pages → Pages) (h : Hw) : (h.onPg f).dev = h.dev.onPg f := rfl
@[simp] theorem Hw.onPg_cores (f : Pages → Pages) (h : Hw) : (h.onPg f).cores = h.cores := rfl
@[simp] theorem Hw.onPg_parks (f : Pages → Pages) (h : Hw) : (h.onPg f).parks = h.parks := rfl
@[simp] theorem Hw.onPg_ctxs (f : Pages → Pages) (h : Hw) : (h.onPg f).ctxs = h.ctxs := rfl
@[simp] theorem Hw.onPg_rtr (f : Pages → Pages) (h : Hw) : (h.onPg f).rtr = h.rtr := rfl
@[simp] theorem Hw.onPg_links (f : Pages → Pages) (h : Hw) : (h.onPg f).links = h.links := rfl
@[simp] theorem Hw.onPg_colls (f : Pages → Pages) (h : Hw) : (h.onPg f).colls = h.colls := rfl
@[simp] theorem Hw.onPg_bcu (f : Pages → Pages) (h : Hw) : (h.onPg f).bcu = h.bcu := rfl
@[simp] theorem Hw.onPg_grpLost (f : Pages → Pages) (h : Hw) : (h.onPg f).grpLost = h.grpLost := rfl
@[simp] theorem Hw.onPg_suu (f : Pages → Pages) (h : Hw) : (h.onPg f).suu = h.suu := rfl
@[simp] theorem Hw.onPg_hif (f : Pages → Pages) (h : Hw) : (h.onPg f).hif = h.hif := rfl
@[simp] theorem Hw.onPg_shdw (f : Pages → Pages) (h : Hw) : (h.onPg f).shdw = h.shdw := rfl
@[simp] theorem Hw.onPg_bays (f : Pages → Pages) (h : Hw) : (h.onPg f).bays = h.bays := rfl
@[simp] theorem Hw.onPg_chaise (f : Pages → Pages) (h : Hw) : (h.onPg f).chaise = h.chaise := rfl
@[simp] theorem Hw.onPg_servo (f : Pages → Pages) (h : Hw) : (h.onPg f).servo = h.servo := rfl
@[simp] theorem Hw.onPg_power (f : Pages → Pages) (h : Hw) : (h.onPg f).power = h.power := rfl
@[simp] theorem Hw.onPg_pod (f : Pages → Pages) (h : Hw) : (h.onPg f).pod = h.pod := rfl
@[simp] theorem Hw.onPg_reads (f : Pages → Pages) (h : Hw) : (h.onPg f).reads = h.reads := rfl

@[simp] theorem Hw.onDev_dev (f : Dev → Dev) (h : Hw) : (h.onDev f).dev = f h.dev := rfl
@[simp] theorem Hw.onDev_cores (f : Dev → Dev) (h : Hw) : (h.onDev f).cores = h.cores := rfl
@[simp] theorem Hw.onDev_parks (f : Dev → Dev) (h : Hw) : (h.onDev f).parks = h.parks := rfl
@[simp] theorem Hw.onDev_ctxs (f : Dev → Dev) (h : Hw) : (h.onDev f).ctxs = h.ctxs := rfl
@[simp] theorem Hw.onDev_rtr (f : Dev → Dev) (h : Hw) : (h.onDev f).rtr = h.rtr := rfl
@[simp] theorem Hw.onDev_links (f : Dev → Dev) (h : Hw) : (h.onDev f).links = h.links := rfl
@[simp] theorem Hw.onDev_colls (f : Dev → Dev) (h : Hw) : (h.onDev f).colls = h.colls := rfl
@[simp] theorem Hw.onDev_bcu (f : Dev → Dev) (h : Hw) : (h.onDev f).bcu = h.bcu := rfl
@[simp] theorem Hw.onDev_grpLost (f : Dev → Dev) (h : Hw) : (h.onDev f).grpLost = h.grpLost := rfl
@[simp] theorem Hw.onDev_suu (f : Dev → Dev) (h : Hw) : (h.onDev f).suu = h.suu := rfl
@[simp] theorem Hw.onDev_hif (f : Dev → Dev) (h : Hw) : (h.onDev f).hif = h.hif := rfl
@[simp] theorem Hw.onDev_shdw (f : Dev → Dev) (h : Hw) : (h.onDev f).shdw = h.shdw := rfl
@[simp] theorem Hw.onDev_bays (f : Dev → Dev) (h : Hw) : (h.onDev f).bays = h.bays := rfl
@[simp] theorem Hw.onDev_chaise (f : Dev → Dev) (h : Hw) : (h.onDev f).chaise = h.chaise := rfl
@[simp] theorem Hw.onDev_servo (f : Dev → Dev) (h : Hw) : (h.onDev f).servo = h.servo := rfl
@[simp] theorem Hw.onDev_power (f : Dev → Dev) (h : Hw) : (h.onDev f).power = h.power := rfl
@[simp] theorem Hw.onDev_pod (f : Dev → Dev) (h : Hw) : (h.onDev f).pod = h.pod := rfl
@[simp] theorem Hw.onDev_reads (f : Dev → Dev) (h : Hw) : (h.onDev f).reads = h.reads := rfl

@[simp] theorem Hw.onMem_dev (f : Mem → Mem) (h : Hw) : (h.onMem f).dev = h.dev.onMem f := rfl
@[simp] theorem Hw.onMem_cores (f : Mem → Mem) (h : Hw) : (h.onMem f).cores = h.cores := rfl
@[simp] theorem Hw.onMem_parks (f : Mem → Mem) (h : Hw) : (h.onMem f).parks = h.parks := rfl
@[simp] theorem Hw.onMem_ctxs (f : Mem → Mem) (h : Hw) : (h.onMem f).ctxs = h.ctxs := rfl
@[simp] theorem Hw.onMem_rtr (f : Mem → Mem) (h : Hw) : (h.onMem f).rtr = h.rtr := rfl
@[simp] theorem Hw.onMem_links (f : Mem → Mem) (h : Hw) : (h.onMem f).links = h.links := rfl
@[simp] theorem Hw.onMem_colls (f : Mem → Mem) (h : Hw) : (h.onMem f).colls = h.colls := rfl
@[simp] theorem Hw.onMem_bcu (f : Mem → Mem) (h : Hw) : (h.onMem f).bcu = h.bcu := rfl
@[simp] theorem Hw.onMem_grpLost (f : Mem → Mem) (h : Hw) : (h.onMem f).grpLost = h.grpLost := rfl
@[simp] theorem Hw.onMem_suu (f : Mem → Mem) (h : Hw) : (h.onMem f).suu = h.suu := rfl
@[simp] theorem Hw.onMem_hif (f : Mem → Mem) (h : Hw) : (h.onMem f).hif = h.hif := rfl
@[simp] theorem Hw.onMem_shdw (f : Mem → Mem) (h : Hw) : (h.onMem f).shdw = h.shdw := rfl
@[simp] theorem Hw.onMem_bays (f : Mem → Mem) (h : Hw) : (h.onMem f).bays = h.bays := rfl
@[simp] theorem Hw.onMem_chaise (f : Mem → Mem) (h : Hw) : (h.onMem f).chaise = h.chaise := rfl
@[simp] theorem Hw.onMem_servo (f : Mem → Mem) (h : Hw) : (h.onMem f).servo = h.servo := rfl
@[simp] theorem Hw.onMem_power (f : Mem → Mem) (h : Hw) : (h.onMem f).power = h.power := rfl
@[simp] theorem Hw.onMem_pod (f : Mem → Mem) (h : Hw) : (h.onMem f).pod = h.pod := rfl
@[simp] theorem Hw.onMem_reads (f : Mem → Mem) (h : Hw) : (h.onMem f).reads = h.reads := rfl

@[simp] theorem Hw.setCore_dev (n : Nat) (c : Core) (h : Hw) : (h.setCore n c).dev = h.dev := rfl
@[simp] theorem Hw.setCore_cores (n : Nat) (c : Core) (h : Hw) : (h.setCore n c).cores = tset (fun _ => Core.reset) h.cores n c := rfl
@[simp] theorem Hw.setCore_parks (n : Nat) (c : Core) (h : Hw) : (h.setCore n c).parks = h.parks := rfl
@[simp] theorem Hw.setCore_ctxs (n : Nat) (c : Core) (h : Hw) : (h.setCore n c).ctxs = h.ctxs := rfl
@[simp] theorem Hw.setCore_rtr (n : Nat) (c : Core) (h : Hw) : (h.setCore n c).rtr = h.rtr := rfl
@[simp] theorem Hw.setCore_links (n : Nat) (c : Core) (h : Hw) : (h.setCore n c).links = h.links := rfl
@[simp] theorem Hw.setCore_colls (n : Nat) (c : Core) (h : Hw) : (h.setCore n c).colls = h.colls := rfl
@[simp] theorem Hw.setCore_bcu (n : Nat) (c : Core) (h : Hw) : (h.setCore n c).bcu = h.bcu := rfl
@[simp] theorem Hw.setCore_grpLost (n : Nat) (c : Core) (h : Hw) : (h.setCore n c).grpLost = h.grpLost := rfl
@[simp] theorem Hw.setCore_suu (n : Nat) (c : Core) (h : Hw) : (h.setCore n c).suu = h.suu := rfl
@[simp] theorem Hw.setCore_hif (n : Nat) (c : Core) (h : Hw) : (h.setCore n c).hif = h.hif := rfl
@[simp] theorem Hw.setCore_shdw (n : Nat) (c : Core) (h : Hw) : (h.setCore n c).shdw = h.shdw := rfl
@[simp] theorem Hw.setCore_bays (n : Nat) (c : Core) (h : Hw) : (h.setCore n c).bays = h.bays := rfl
@[simp] theorem Hw.setCore_chaise (n : Nat) (c : Core) (h : Hw) : (h.setCore n c).chaise = h.chaise := rfl
@[simp] theorem Hw.setCore_servo (n : Nat) (c : Core) (h : Hw) : (h.setCore n c).servo = h.servo := rfl
@[simp] theorem Hw.setCore_power (n : Nat) (c : Core) (h : Hw) : (h.setCore n c).power = h.power := rfl
@[simp] theorem Hw.setCore_pod (n : Nat) (c : Core) (h : Hw) : (h.setCore n c).pod = h.pod := rfl
@[simp] theorem Hw.setCore_reads (n : Nat) (c : Core) (h : Hw) : (h.setCore n c).reads = h.reads := rfl

@[simp] theorem Hw.modCore_dev (n : Nat) (f : Core → Core) (h : Hw) : (h.modCore n f).dev = h.dev := rfl
@[simp] theorem Hw.modCore_cores (n : Nat) (f : Core → Core) (h : Hw) : (h.modCore n f).cores = tset (fun _ => Core.reset) h.cores n (f (h.core n)) := rfl
@[simp] theorem Hw.modCore_parks (n : Nat) (f : Core → Core) (h : Hw) : (h.modCore n f).parks = h.parks := rfl
@[simp] theorem Hw.modCore_ctxs (n : Nat) (f : Core → Core) (h : Hw) : (h.modCore n f).ctxs = h.ctxs := rfl
@[simp] theorem Hw.modCore_rtr (n : Nat) (f : Core → Core) (h : Hw) : (h.modCore n f).rtr = h.rtr := rfl
@[simp] theorem Hw.modCore_links (n : Nat) (f : Core → Core) (h : Hw) : (h.modCore n f).links = h.links := rfl
@[simp] theorem Hw.modCore_colls (n : Nat) (f : Core → Core) (h : Hw) : (h.modCore n f).colls = h.colls := rfl
@[simp] theorem Hw.modCore_bcu (n : Nat) (f : Core → Core) (h : Hw) : (h.modCore n f).bcu = h.bcu := rfl
@[simp] theorem Hw.modCore_grpLost (n : Nat) (f : Core → Core) (h : Hw) : (h.modCore n f).grpLost = h.grpLost := rfl
@[simp] theorem Hw.modCore_suu (n : Nat) (f : Core → Core) (h : Hw) : (h.modCore n f).suu = h.suu := rfl
@[simp] theorem Hw.modCore_hif (n : Nat) (f : Core → Core) (h : Hw) : (h.modCore n f).hif = h.hif := rfl
@[simp] theorem Hw.modCore_shdw (n : Nat) (f : Core → Core) (h : Hw) : (h.modCore n f).shdw = h.shdw := rfl
@[simp] theorem Hw.modCore_bays (n : Nat) (f : Core → Core) (h : Hw) : (h.modCore n f).bays = h.bays := rfl
@[simp] theorem Hw.modCore_chaise (n : Nat) (f : Core → Core) (h : Hw) : (h.modCore n f).chaise = h.chaise := rfl
@[simp] theorem Hw.modCore_servo (n : Nat) (f : Core → Core) (h : Hw) : (h.modCore n f).servo = h.servo := rfl
@[simp] theorem Hw.modCore_power (n : Nat) (f : Core → Core) (h : Hw) : (h.modCore n f).power = h.power := rfl
@[simp] theorem Hw.modCore_pod (n : Nat) (f : Core → Core) (h : Hw) : (h.modCore n f).pod = h.pod := rfl
@[simp] theorem Hw.modCore_reads (n : Nat) (f : Core → Core) (h : Hw) : (h.modCore n f).reads = h.reads := rfl

@[simp] theorem Hw.modCtx_dev (c : Nat) (f : Ctx → Ctx) (h : Hw) : (h.modCtx c f).dev = h.dev := rfl
@[simp] theorem Hw.modCtx_cores (c : Nat) (f : Ctx → Ctx) (h : Hw) : (h.modCtx c f).cores = h.cores := rfl
@[simp] theorem Hw.modCtx_parks (c : Nat) (f : Ctx → Ctx) (h : Hw) : (h.modCtx c f).parks = h.parks := rfl
@[simp] theorem Hw.modCtx_ctxs (c : Nat) (f : Ctx → Ctx) (h : Hw) : (h.modCtx c f).ctxs = tmod (fun _ => Ctx.reset) h.ctxs c f := rfl
@[simp] theorem Hw.modCtx_rtr (c : Nat) (f : Ctx → Ctx) (h : Hw) : (h.modCtx c f).rtr = h.rtr := rfl
@[simp] theorem Hw.modCtx_links (c : Nat) (f : Ctx → Ctx) (h : Hw) : (h.modCtx c f).links = h.links := rfl
@[simp] theorem Hw.modCtx_colls (c : Nat) (f : Ctx → Ctx) (h : Hw) : (h.modCtx c f).colls = h.colls := rfl
@[simp] theorem Hw.modCtx_bcu (c : Nat) (f : Ctx → Ctx) (h : Hw) : (h.modCtx c f).bcu = h.bcu := rfl
@[simp] theorem Hw.modCtx_grpLost (c : Nat) (f : Ctx → Ctx) (h : Hw) : (h.modCtx c f).grpLost = h.grpLost := rfl
@[simp] theorem Hw.modCtx_suu (c : Nat) (f : Ctx → Ctx) (h : Hw) : (h.modCtx c f).suu = h.suu := rfl
@[simp] theorem Hw.modCtx_hif (c : Nat) (f : Ctx → Ctx) (h : Hw) : (h.modCtx c f).hif = h.hif := rfl
@[simp] theorem Hw.modCtx_shdw (c : Nat) (f : Ctx → Ctx) (h : Hw) : (h.modCtx c f).shdw = h.shdw := rfl
@[simp] theorem Hw.modCtx_bays (c : Nat) (f : Ctx → Ctx) (h : Hw) : (h.modCtx c f).bays = h.bays := rfl
@[simp] theorem Hw.modCtx_chaise (c : Nat) (f : Ctx → Ctx) (h : Hw) : (h.modCtx c f).chaise = h.chaise := rfl
@[simp] theorem Hw.modCtx_servo (c : Nat) (f : Ctx → Ctx) (h : Hw) : (h.modCtx c f).servo = h.servo := rfl
@[simp] theorem Hw.modCtx_power (c : Nat) (f : Ctx → Ctx) (h : Hw) : (h.modCtx c f).power = h.power := rfl
@[simp] theorem Hw.modCtx_pod (c : Nat) (f : Ctx → Ctx) (h : Hw) : (h.modCtx c f).pod = h.pod := rfl
@[simp] theorem Hw.modCtx_reads (c : Nat) (f : Ctx → Ctx) (h : Hw) : (h.modCtx c f).reads = h.reads := rfl

@[simp] theorem Hw.modQueue_dev (q : Nat) (f : Queue → Queue) (h : Hw) : (h.modQueue q f).dev = h.dev := rfl
@[simp] theorem Hw.modQueue_cores (q : Nat) (f : Queue → Queue) (h : Hw) : (h.modQueue q f).cores = h.cores := rfl
@[simp] theorem Hw.modQueue_parks (q : Nat) (f : Queue → Queue) (h : Hw) : (h.modQueue q f).parks = h.parks := rfl
@[simp] theorem Hw.modQueue_ctxs (q : Nat) (f : Queue → Queue) (h : Hw) : (h.modQueue q f).ctxs = h.ctxs := rfl
@[simp] theorem Hw.modQueue_rtr (q : Nat) (f : Queue → Queue) (h : Hw) : (h.modQueue q f).rtr = h.rtr := rfl
@[simp] theorem Hw.modQueue_links (q : Nat) (f : Queue → Queue) (h : Hw) : (h.modQueue q f).links = h.links := rfl
@[simp] theorem Hw.modQueue_colls (q : Nat) (f : Queue → Queue) (h : Hw) : (h.modQueue q f).colls = h.colls := rfl
@[simp] theorem Hw.modQueue_bcu (q : Nat) (f : Queue → Queue) (h : Hw) : (h.modQueue q f).bcu = h.bcu := rfl
@[simp] theorem Hw.modQueue_grpLost (q : Nat) (f : Queue → Queue) (h : Hw) : (h.modQueue q f).grpLost = h.grpLost := rfl
@[simp] theorem Hw.modQueue_suu (q : Nat) (f : Queue → Queue) (h : Hw) : (h.modQueue q f).suu = h.suu := rfl
@[simp] theorem Hw.modQueue_hif (q : Nat) (f : Queue → Queue) (h : Hw) : (h.modQueue q f).hif = { h.hif with queues := tmod (fun _ => Queue.reset) h.hif.queues q f } := rfl
@[simp] theorem Hw.modQueue_shdw (q : Nat) (f : Queue → Queue) (h : Hw) : (h.modQueue q f).shdw = h.shdw := rfl
@[simp] theorem Hw.modQueue_bays (q : Nat) (f : Queue → Queue) (h : Hw) : (h.modQueue q f).bays = h.bays := rfl
@[simp] theorem Hw.modQueue_chaise (q : Nat) (f : Queue → Queue) (h : Hw) : (h.modQueue q f).chaise = h.chaise := rfl
@[simp] theorem Hw.modQueue_servo (q : Nat) (f : Queue → Queue) (h : Hw) : (h.modQueue q f).servo = h.servo := rfl
@[simp] theorem Hw.modQueue_power (q : Nat) (f : Queue → Queue) (h : Hw) : (h.modQueue q f).power = h.power := rfl
@[simp] theorem Hw.modQueue_pod (q : Nat) (f : Queue → Queue) (h : Hw) : (h.modQueue q f).pod = h.pod := rfl
@[simp] theorem Hw.modQueue_reads (q : Nat) (f : Queue → Queue) (h : Hw) : (h.modQueue q f).reads = h.reads := rfl

@[simp] theorem Hw.modBay_dev (b : Nat) (f : BayX → BayX) (h : Hw) : (h.modBay b f).dev = h.dev := rfl
@[simp] theorem Hw.modBay_cores (b : Nat) (f : BayX → BayX) (h : Hw) : (h.modBay b f).cores = h.cores := rfl
@[simp] theorem Hw.modBay_parks (b : Nat) (f : BayX → BayX) (h : Hw) : (h.modBay b f).parks = h.parks := rfl
@[simp] theorem Hw.modBay_ctxs (b : Nat) (f : BayX → BayX) (h : Hw) : (h.modBay b f).ctxs = h.ctxs := rfl
@[simp] theorem Hw.modBay_rtr (b : Nat) (f : BayX → BayX) (h : Hw) : (h.modBay b f).rtr = h.rtr := rfl
@[simp] theorem Hw.modBay_links (b : Nat) (f : BayX → BayX) (h : Hw) : (h.modBay b f).links = h.links := rfl
@[simp] theorem Hw.modBay_colls (b : Nat) (f : BayX → BayX) (h : Hw) : (h.modBay b f).colls = h.colls := rfl
@[simp] theorem Hw.modBay_bcu (b : Nat) (f : BayX → BayX) (h : Hw) : (h.modBay b f).bcu = h.bcu := rfl
@[simp] theorem Hw.modBay_grpLost (b : Nat) (f : BayX → BayX) (h : Hw) : (h.modBay b f).grpLost = h.grpLost := rfl
@[simp] theorem Hw.modBay_suu (b : Nat) (f : BayX → BayX) (h : Hw) : (h.modBay b f).suu = h.suu := rfl
@[simp] theorem Hw.modBay_hif (b : Nat) (f : BayX → BayX) (h : Hw) : (h.modBay b f).hif = h.hif := rfl
@[simp] theorem Hw.modBay_shdw (b : Nat) (f : BayX → BayX) (h : Hw) : (h.modBay b f).shdw = h.shdw := rfl
@[simp] theorem Hw.modBay_bays (b : Nat) (f : BayX → BayX) (h : Hw) : (h.modBay b f).bays = tmod (fun _ => BayX.reset) h.bays b f := rfl
@[simp] theorem Hw.modBay_chaise (b : Nat) (f : BayX → BayX) (h : Hw) : (h.modBay b f).chaise = h.chaise := rfl
@[simp] theorem Hw.modBay_servo (b : Nat) (f : BayX → BayX) (h : Hw) : (h.modBay b f).servo = h.servo := rfl
@[simp] theorem Hw.modBay_power (b : Nat) (f : BayX → BayX) (h : Hw) : (h.modBay b f).power = h.power := rfl
@[simp] theorem Hw.modBay_pod (b : Nat) (f : BayX → BayX) (h : Hw) : (h.modBay b f).pod = h.pod := rfl
@[simp] theorem Hw.modBay_reads (b : Nat) (f : BayX → BayX) (h : Hw) : (h.modBay b f).reads = h.reads := rfl

@[simp] theorem Hw.onPod_dev (f : Pod → Pod) (h : Hw) : (h.onPod f).dev = h.dev := rfl
@[simp] theorem Hw.onPod_cores (f : Pod → Pod) (h : Hw) : (h.onPod f).cores = h.cores := rfl
@[simp] theorem Hw.onPod_parks (f : Pod → Pod) (h : Hw) : (h.onPod f).parks = h.parks := rfl
@[simp] theorem Hw.onPod_ctxs (f : Pod → Pod) (h : Hw) : (h.onPod f).ctxs = h.ctxs := rfl
@[simp] theorem Hw.onPod_rtr (f : Pod → Pod) (h : Hw) : (h.onPod f).rtr = h.rtr := rfl
@[simp] theorem Hw.onPod_links (f : Pod → Pod) (h : Hw) : (h.onPod f).links = h.links := rfl
@[simp] theorem Hw.onPod_colls (f : Pod → Pod) (h : Hw) : (h.onPod f).colls = h.colls := rfl
@[simp] theorem Hw.onPod_bcu (f : Pod → Pod) (h : Hw) : (h.onPod f).bcu = h.bcu := rfl
@[simp] theorem Hw.onPod_grpLost (f : Pod → Pod) (h : Hw) : (h.onPod f).grpLost = h.grpLost := rfl
@[simp] theorem Hw.onPod_suu (f : Pod → Pod) (h : Hw) : (h.onPod f).suu = h.suu := rfl
@[simp] theorem Hw.onPod_hif (f : Pod → Pod) (h : Hw) : (h.onPod f).hif = h.hif := rfl
@[simp] theorem Hw.onPod_shdw (f : Pod → Pod) (h : Hw) : (h.onPod f).shdw = h.shdw := rfl
@[simp] theorem Hw.onPod_bays (f : Pod → Pod) (h : Hw) : (h.onPod f).bays = h.bays := rfl
@[simp] theorem Hw.onPod_chaise (f : Pod → Pod) (h : Hw) : (h.onPod f).chaise = h.chaise := rfl
@[simp] theorem Hw.onPod_servo (f : Pod → Pod) (h : Hw) : (h.onPod f).servo = h.servo := rfl
@[simp] theorem Hw.onPod_power (f : Pod → Pod) (h : Hw) : (h.onPod f).power = h.power := rfl
@[simp] theorem Hw.onPod_pod (f : Pod → Pod) (h : Hw) : (h.onPod f).pod = f h.pod := rfl
@[simp] theorem Hw.onPod_reads (f : Pod → Pod) (h : Hw) : (h.onPod f).reads = h.reads := rfl

@[simp] theorem Hw.onChaise_dev (f : Chaise → Chaise) (h : Hw) : (h.onChaise f).dev = h.dev := rfl
@[simp] theorem Hw.onChaise_cores (f : Chaise → Chaise) (h : Hw) : (h.onChaise f).cores = h.cores := rfl
@[simp] theorem Hw.onChaise_parks (f : Chaise → Chaise) (h : Hw) : (h.onChaise f).parks = h.parks := rfl
@[simp] theorem Hw.onChaise_ctxs (f : Chaise → Chaise) (h : Hw) : (h.onChaise f).ctxs = h.ctxs := rfl
@[simp] theorem Hw.onChaise_rtr (f : Chaise → Chaise) (h : Hw) : (h.onChaise f).rtr = h.rtr := rfl
@[simp] theorem Hw.onChaise_links (f : Chaise → Chaise) (h : Hw) : (h.onChaise f).links = h.links := rfl
@[simp] theorem Hw.onChaise_colls (f : Chaise → Chaise) (h : Hw) : (h.onChaise f).colls = h.colls := rfl
@[simp] theorem Hw.onChaise_bcu (f : Chaise → Chaise) (h : Hw) : (h.onChaise f).bcu = h.bcu := rfl
@[simp] theorem Hw.onChaise_grpLost (f : Chaise → Chaise) (h : Hw) : (h.onChaise f).grpLost = h.grpLost := rfl
@[simp] theorem Hw.onChaise_suu (f : Chaise → Chaise) (h : Hw) : (h.onChaise f).suu = h.suu := rfl
@[simp] theorem Hw.onChaise_hif (f : Chaise → Chaise) (h : Hw) : (h.onChaise f).hif = h.hif := rfl
@[simp] theorem Hw.onChaise_shdw (f : Chaise → Chaise) (h : Hw) : (h.onChaise f).shdw = h.shdw := rfl
@[simp] theorem Hw.onChaise_bays (f : Chaise → Chaise) (h : Hw) : (h.onChaise f).bays = h.bays := rfl
@[simp] theorem Hw.onChaise_chaise (f : Chaise → Chaise) (h : Hw) : (h.onChaise f).chaise = f h.chaise := rfl
@[simp] theorem Hw.onChaise_servo (f : Chaise → Chaise) (h : Hw) : (h.onChaise f).servo = h.servo := rfl
@[simp] theorem Hw.onChaise_power (f : Chaise → Chaise) (h : Hw) : (h.onChaise f).power = h.power := rfl
@[simp] theorem Hw.onChaise_pod (f : Chaise → Chaise) (h : Hw) : (h.onChaise f).pod = h.pod := rfl
@[simp] theorem Hw.onChaise_reads (f : Chaise → Chaise) (h : Hw) : (h.onChaise f).reads = h.reads := rfl

@[simp] theorem Pages.wr_snap (k : Nat) (v : W32) (p : Pages) : (p.wr k v).snap = p.snap := rfl
@[simp] theorem Pages.wr_fbc (k : Nat) (v : W32) (p : Pages) : (p.wr k v).fbc = p.fbc := rfl
@[simp] theorem Pages.wr_beatNum (k : Nat) (v : W32) (p : Pages) : (p.wr k v).beatNum = p.beatNum := rfl
@[simp] theorem Pages.wr_fresh (k : Nat) (v : W32) (p : Pages) : (p.wr k v).fresh = p.fresh := rfl
@[simp] theorem Pages.wr_msi (k : Nat) (v : W32) (p : Pages) : (p.wr k v).msi = p.msi := rfl
@[simp] theorem Pages.wr_mgOut (k : Nat) (v : W32) (p : Pages) : (p.wr k v).mgOut = p.mgOut := rfl
@[simp] theorem Pages.wr_chaiseIrq (k : Nat) (v : W32) (p : Pages) : (p.wr k v).chaiseIrq = p.chaiseIrq := rfl

@[simp] theorem Dev.onPg_pg (f : Pages → Pages) (d : Dev) : (d.onPg f).pg = f d.pg := rfl
@[simp] theorem Dev.onPg_mem (f : Pages → Pages) (d : Dev) : (d.onPg f).mem = d.mem := rfl
@[simp] theorem Dev.onMem_pg (f : Mem → Mem) (d : Dev) : (d.onMem f).pg = d.pg := rfl
@[simp] theorem Dev.onMem_mem (f : Mem → Mem) (d : Dev) : (d.onMem f).mem = f d.mem := rfl
@[simp] theorem CV.onPg_pg (f : Pages → Pages) (v : CV) : (v.onPg f).pg = f v.pg := rfl
@[simp] theorem CV.onPg_core (f : Pages → Pages) (v : CV) : (v.onPg f).core = v.core := rfl
@[simp] theorem CV.onCore_pg (f : Core → Core) (v : CV) : (v.onCore f).pg = v.pg := rfl
@[simp] theorem CV.onCore_core (f : Core → Core) (v : CV) : (v.onCore f).core = f v.core := rfl
@[simp] theorem LV.onPg_pg (f : Pages → Pages) (v : LV) : (v.onPg f).pg = f v.pg := rfl
@[simp] theorem LV.onPg_lk (f : Pages → Pages) (v : LV) : (v.onPg f).lk = v.lk := rfl
@[simp] theorem LV.onLk_pg (f : Link → Link) (v : LV) : (v.onLk f).pg = v.pg := rfl
@[simp] theorem LV.onLk_lk (f : Link → Link) (v : LV) : (v.onLk f).lk = f v.lk := rfl
@[simp] theorem State.done_pending (f : Hw → Hw) (s : State) : (s.done f).pending = s.pending := rfl
@[simp] theorem State.done_hw (f : Hw → Hw) (s : State) : (s.done f).hw = (f s.hw).sendOut := rfl

/-! ## Reads after writes -/

/-- A register reads what was written to it, and every other as before. -/
theorem Pages.rd_wr (p : Pages) (k j : Nat) (v : W32) : (p.wr k v).rd j = if j = k then v else p.rd j := tget_tset _ _ _ _ _

@[simp] theorem Pages.rd_wr_self (p : Pages) (k : Nat) (v : W32) : (p.wr k v).rd k = v := tget_tset_self _ _ _ _

theorem Hw.core_setCore (h : Hw) (n j : Nat) (c : Core) : (h.setCore n c).core j = if j = n then c else h.core j := tget_tset _ _ _ _ _

@[simp] theorem Hw.core_setCore_self (h : Hw) (n : Nat) (c : Core) : (h.setCore n c).core n = c := tget_tset_self _ _ _ _

@[simp] theorem Hw.core_modCore_self (h : Hw) (n : Nat) (f : Core → Core) : (h.modCore n f).core n = f (h.core n) := tget_tset_self _ _ _ _

theorem Hw.ctx_modCtx (h : Hw) (c j : Nat) (f : Ctx → Ctx) : (h.modCtx c f).ctx j = if j = c then f (h.ctx c) else h.ctx j := by
  simp only [Hw.ctx, Hw.modCtx_ctxs, tmod, tget_tset]

theorem Hw.queue_modQueue (h : Hw) (q j : Nat) (f : Queue → Queue) : (h.modQueue q f).queue j = if j = q then f (h.queue q) else h.queue j := by
  simp only [Hw.queue, Hw.modQueue_hif, tmod, tget_tset]

@[simp] theorem Hw.core_onPg (f : Pages → Pages) (h : Hw) (n : Nat) : (h.onPg f).core n = h.core n := rfl
@[simp] theorem Hw.ctx_onPg (f : Pages → Pages) (h : Hw) (c : Nat) : (h.onPg f).ctx c = h.ctx c := rfl
@[simp] theorem Hw.link_onPg (f : Pages → Pages) (h : Hw) (k : Nat) : (h.onPg f).link k = h.link k := rfl
@[simp] theorem Hw.queue_onPg (f : Pages → Pages) (h : Hw) (q : Nat) : (h.onPg f).queue q = h.queue q := rfl

/-! ## Running a command -/

theorem State.onHw_up {s : State} (f : Hw → Hw) (h : s.hw.up = true) : s.onHw f = .next (s.done f) := by simp [State.onHw, h]

theorem State.onHw_down {s : State} (f : Hw → Hw) (h : s.hw.up = false) : s.onHw f = .next s := by simp [State.onHw, h]

theorem State.onChaise_up {s : State} (f : Hw → Hw) (h : s.hw.power.inReset = false) : s.onChaise f = .next (s.done f) := by
  simp [State.onChaise, h]

theorem State.onInsn_up {s : State} {l : Nat} {i : CoreInsn} (w : i.wf = true) (h : s.hw.up = true) :
    State.onInsn l i s = .next (s.done (Hw.dispatch l i)) := by simp [State.onInsn, w, State.onHw_up _ h]

/-- Two effects that agree on the hardware as it stands leave the same state. -/
theorem State.done_congr {s : State} {f g : Hw → Hw} (h : f s.hw = g s.hw) : s.done f = s.done g := by simp only [State.done, h]

/-- A command of a device that runs completes, with the effect that its own comes to. -/
theorem State.onHw_next {s : State} {f g : Hw → Hw} (u : s.hw.up = true) (h : f s.hw = g s.hw) : s.onHw f = .next (s.done g) := by
  rw [State.onHw_up f u, State.done_congr h]

/-- The same of a command of the Chaise. -/
theorem State.onChaise_next {s : State} {f g : Hw → Hw} (u : s.hw.power.inReset = false) (h : f s.hw = g s.hw) : s.onChaise f = .next (s.done g) := by
  rw [State.onChaise_up f u, State.done_congr h]

/-- No message waits: nothing is sent out. -/
theorem Hw.sendOut_quiet {h : Hw} (q : h.pg.mgOut = []) : h.sendOut = h := by
  unfold Hw.sendOut Hw.mgFlush
  rw [q]
  split <;> rfl

end Sys2Proof.Machine
end

