-- ==== Sys2Proof/Laws/Regs.lean ====
section
/-! SUPPORT. Laws of register writes and of detectors: what an admitted write does, what an unarmed detector does, and the kind of every page
that a command names by number. -/

namespace Sys2Proof.Machine

/-! ## Detectors that nothing has armed -/

theorem Pages.armed_unarmed {p : Pages} {pg : Nat} (u : p.unarmed pg = true) (det target : Nat) : p.armed pg det target = false := by
  have h : p.rd (Reg.PG_ERR_INJ pg) = 0 := of_decide_eq_true u
  simp [Pages.armed, Pages.bit, h]

theorem Pages.fire_unarmed {p : Pages} {pg : Nat} (u : p.unarmed pg = true) (det target : Nat) : p.fire pg det target = (false, p) := by
  simp [Pages.fire, Pages.armed_unarmed u]

theorem Pages.fireP_unarmed {p : Pages} {pg : Nat} (u : p.unarmed pg = true) (det : Nat) (hit : Nat → Bool) : p.fireP pg det hit = (false, p) := by
  simp [Pages.fireP, Pages.fire_unarmed u]

theorem Pages.holds_unarmed {p : Pages} {pg : Nat} (u : p.unarmed pg = true) (det addr : Nat) (real : Bool) : p.holds pg det addr real = (real, p) := by
  simp [Pages.holds, Pages.fire_unarmed u]

theorem Pages.detect_unarmed {p : Pages} {pg : Nat} (u : p.unarmed pg = true) (det addr : Nat) (cx : CtxId) (real : Bool) :
    p.detect pg det addr cx real = (real, if real then p.raise pg det addr cx else p) := by
  simp only [Pages.detect, Pages.fire_unarmed u]
  cases real <;> rfl

theorem Hw.holds_unarmed {h : Hw} {pg : Nat} (u : h.pg.unarmed pg = true) (det addr : Nat) (real : Bool) : h.holds pg det addr real = (real, h) := by
  simp [Hw.holds, Pages.holds_unarmed u]

theorem Hw.injected_unarmed {h : Hw} {pg : Nat} (u : h.pg.unarmed pg = true) (det addr : Nat) (f : Hw → Hw) : h.injected pg det addr f = h := by
  simp [Hw.injected, Hw.holds_unarmed u]

theorem CV.parity_unarmed {v : CV} {pg : Nat} (u : v.pg.unarmed pg = true) (det : Nat) (addr : Nat → Nat) (hit : Nat → Bool) (cx : CtxId) :
    v.parity pg det addr hit cx = v := by
  simp [CV.parity, Pages.fireP_unarmed u]

/-! ## Writes of registers -/

/-- A write that the access rules admit is judged by its page alone: it takes effect, or is refused and flagged STATE. -/
theorem Hw.writeCmd_admits {h : Hw} {path : Path} {pg off : Nat} {r : RegRow} (a : h.admits path pg off = true) (hr : regRow pg off = some r)
    (wi : WarmIn) (w : W32) :
    h.writeCmd wi path pg off w = let x := h.blockWrite wi pg off r w; if x.1 then x.2 else x.2.flag pg off path .state := by
  simp only [Hw.admits, hr, Option.any_some, Bool.and_eq_true, Bool.not_eq_true', Bool.and_eq_false_iff, Bool.or_eq_false_iff,
    Bool.or_eq_true, decide_eq_true_eq, decide_eq_false_iff_not, Option.isNone_iff_eq_none] at a
  obtain ⟨⟨⟨_, hp⟩, hh⟩, ⟨⟨hw, hk⟩, hm⟩⟩ := a
  have h1 : (hasHeader pg && h.pg.inReset pg) = false := by rcases hp with x | x <;> simp [x]
  have h2 : (hasHeader pg && decide (off < 0x40)) = false := by rcases hp with x | x <;> simp [x]
  have h3 : ¬(r.wr = 0 ∧ r.c1 = 0 ∧ r.wo = 0) := by tauto
  simp only [Hw.writeCmd, Hw.writeReg, h1, h2, hr, hh, hw]
  rcases hk with k | ⟨k, l⟩
  · simp only [k, h3]
    cases hb : (h.blockWrite wi pg off r w).1 <;> simp [Hw.flagOpt]
  · simp only [k, h3, l]
    cases hb : (h.blockWrite wi pg off r w).1 <;> simp [Hw.flagOpt]

/-- The same through a command. -/
theorem Hw.regCmd_admits {h : Hw} {path : Path} {pg off : Nat} {r : RegRow} (a : h.admits path pg off = true) (hr : regRow pg off = some r)
    (wi : WarmIn) (w : Hw → W32) :
    h.regCmd wi path pg off w = let x := h.blockWrite wi pg off r (w h); if x.1 then x.2 else x.2.flag pg off path .state := by
  have hs : h.pg.sees path pg = true := by
    simp only [Hw.admits, Bool.and_eq_true] at a
    exact a.1.1.1
  simp only [Hw.regCmd, hs, if_true]
  exact Hw.writeCmd_admits a hr wi (w h)

theorem wordAt_bytesLE (w : W32) : wordAt (bytesLE 4 w.toNat) = w := by
  have h := w.isLt
  have l : (bytesLE 4 w.toNat).take 4 = bytesLE 4 w.toNat := List.take_of_length_le (by simp)
  apply BitVec.eq_of_toNat_eq
  simp only [wordAt, l, ofBytesLE_bytesLE, BitVec.toNat_ofNat]
  omega

/-- A write of four aligned bytes is one 32-bit write. -/
theorem Hw.writeBytes_word (h : Hw) (wi : WarmIn) (p : Path) {a : Nat} (w : W32) (ha : a % 4 = 0) :
    h.writeBytes wi p a true (bytesLE 4 w.toNat) = h.write32 wi p a w := by
  have n : (bytesLE 4 w.toNat).isEmpty = false := rfl
  have d : List.drop 4 (bytesLE 4 w.toNat) = [] := rfl
  unfold Hw.writeBytes
  rw [if_pos (by simp [ha, n])]
  simp only [length_bytesLE]
  unfold Hw.writeWords
  rw [if_neg (by simp [n]), if_neg (by simp), d, wordAt_bytesLE]
  unfold Hw.writeWords
  rfl

/-! ## Bits and fields of registers -/

theorem Pages.bit_eq (p : Pages) (k i : Nat) : p.bit k i = wbit (p.rd k) i := rfl
theorem Pages.get_eq (p : Pages) (k hi lo : Nat) : p.get k hi lo = fld (p.rd k) hi lo := rfl
theorem Pages.setb_eq (p : Pages) (k i : Nat) (b : Bool) : p.setb k i b = p.wr k (setBit (p.rd k) i b) := rfl
theorem Pages.put_eq (p : Pages) (k hi lo v : Nat) : p.put k hi lo v = p.wr k (setFld (p.rd k) hi lo v) := rfl

/-- A bit reads as it was set, and every other as before. -/
theorem Pages.bit_setb (p : Pages) (k : Nat) {i : Nat} (hi : i < 32) (b : Bool) (k' j : Nat) :
    (p.setb k i b).bit k' j = if k' = k ∧ j = i then b else p.bit k' j := by
  rw [Pages.bit_eq, Pages.bit_eq, Pages.setb_eq, Pages.rd_wr]
  by_cases c : k' = k
  · subst c; simp [wbit_setBit _ hi]
  · simp [c]

/-- A 64-bit pair reads what was written. -/
theorem Pages.rd64_wr64 (p : Pages) (k : Nat) (v : W64) : (p.wr64 k v).rd64 k = v := by
  simp [Pages.rd64, Pages.wr64, Pages.rd_wr, join_lo_hi]

/-- A write of a pair leaves every other register. -/
theorem Pages.rd_wr64_ne (p : Pages) (k j : Nat) (v : W64) (h : j ≠ k) (h1 : j ≠ k + 1) : (p.wr64 k v).rd j = p.rd j := by
  simp [Pages.wr64, Pages.rd_wr, h, h1]


/-- A write of what a register holds changes nothing that any register reads. -/
theorem Pages.wr_wr (p : Pages) (k : Nat) (a b : W32) (j : Nat) : ((p.wr k a).wr k b).rd j = (p.wr k b).rd j := by
  simp only [Pages.rd_wr]; split <;> rfl

/-! ## The kinds of the pages that a command names by number -/

theorem pageKind_bay {b : Nat} (h : b < 12) : pageKind (Pg.bay b) = .bay :=
  (by decide +kernel : ∀ x : Fin 12, pageKind (Pg.bay x) = .bay) ⟨_, h⟩
theorem pageKind_mxa {n : Nat} (h : n < 108) : pageKind (Pg.mxa n) = .mxa :=
  (by decide +kernel : ∀ x : Fin 108, pageKind (Pg.mxa x) = .mxa) ⟨_, h⟩
theorem pageKind_tvu {n : Nat} (h : n < 108) : pageKind (Pg.tvu n) = .tvu :=
  (by decide +kernel : ∀ x : Fin 108, pageKind (Pg.tvu x) = .tvu) ⟨_, h⟩
theorem pageKind_gig {n : Nat} (h : n < 108) : pageKind (Pg.gig n) = .gig :=
  (by decide +kernel : ∀ x : Fin 108, pageKind (Pg.gig x) = .gig) ⟨_, h⟩
theorem pageKind_suu {n : Nat} (h : n < 8) : pageKind (Pg.suu n) = .suu :=
  (by decide +kernel : ∀ x : Fin 8, pageKind (Pg.suu x) = .suu) ⟨_, h⟩
theorem pageKind_ope {k : Nat} (h : k < 10) : pageKind (Pg.ope k) = .ope :=
  (by decide +kernel : ∀ x : Fin 10, pageKind (Pg.ope x) = .ope) ⟨_, h⟩
theorem pageKind_link {k : Nat} (h : k < 10) : pageKind (Pg.link k) = .link :=
  (by decide +kernel : ∀ x : Fin 10, pageKind (Pg.link x) = .link) ⟨_, h⟩
theorem pageKind_stg {a : Nat} (h : a < 4) : pageKind (Pg.stg a) = .stg :=
  (by decide +kernel : ∀ x : Fin 4, pageKind (Pg.stg x) = .stg) ⟨_, h⟩
theorem pageKind_ctx {c : Nat} (h : c < 256) : pageKind (Pg.ctx c) = .ctx :=
  (by decide +kernel : ∀ x : Fin 256, pageKind (Pg.ctx x) = .ctx) ⟨_, h⟩
theorem pageKind_qcfg {q : Nat} (h : q < 16384) : pageKind (0x0900 + q / 64) = .qcfg :=
  (by decide +kernel : ∀ x : Fin 256, pageKind (0x0900 + x) = .qcfg) ⟨_, by omega⟩

/-- The row of a register of a page, by the page's kind. -/
theorem regRow_kind {pg : Nat} {k : PageKind} (h : pageKind pg = k) (q : k ≠ .qcfg) (off : Nat) : regRow pg off = findRow k off := by
  simp [regRow, h, q]

end Sys2Proof.Machine
end

