-- ==== Sys2Proof/Laws/Arrivals.lean ====
section
/-! SUPPORT. Laws of what reaches the device: a packet that it accepts, an entry of a submission queue that it starts, the work of the
host interface while its page works, and a CONFIG that arms BEAT_SET. -/

namespace Sys2Proof.Machine

/-- A packet that is accepted is taken as its command takes it. -/
theorem Hw.onPacket_accepts {test : Packet → Bool} {src : PktSrc} {k : Packet} {t h : Hw} (a : h.accepts test src k t) (f : Packet → Hw → Hw) :
    h.onPacket test src f = f k t := by
  obtain ⟨inp, x, y⟩ := a
  unfold Hw.onPacket
  rw [x]; simp only [y]; rfl

/-- Work of the host interface where its page works. -/
theorem Hw.hifDo_works {h : Hw} (w : h.pg.works Pg.hif = true) (f : Hw → Hw) : h.hifDo f = f h := by simp [Hw.hifDo, w]

/-- A ring access that succeeds leaves the state that it tried. -/
theorem Hw.ringReach_ok {h : Hw} {q b : Nat} (r : (h.ringReach q b).1 = true) : (h.ringReach q b).2 = h.ringTried q := by
  unfold Hw.ringReach at r ⊢
  dsimp only at r ⊢
  split at r
  · rename_i c; rw [if_pos c]
  · cases r

/-- An entry of a known opcode with its reserved bytes zero, once read, does its work; where the read fails the queue is faulted. -/
theorem Hw.startAt_clean {h : Hw} {i : Nat} {e : SqEntry} (o : 1 ≤ e.f 0 1 ∧ e.f 0 1 ≤ 7) (c : e.clean = true) (f : SqEntry → Hw → Hw) :
    h.startAt i e f = h.afterRead e.q i (f e (h.startedAt e.q i e)) := by
  unfold Hw.startAt Hw.afterRead Hw.startedAt
  dsimp only
  cases r : (h.ringReach e.q (h.pg.slotBus e.q 64 i)).1
  · rfl
  · simp [o, c, Hw.ringReach_ok r]

/-- The entry that is ready is of its queue. -/
theorem Hw.nextEntry_q {h : Hw} {q : Nat} {e : SqEntry} (n : h.nextEntry q = some e) : e.q = q := by
  unfold Hw.nextEntry at n
  dsimp only at n
  split at n
  · cases n
  · split at n
    · cases n
    · split at n
      · cases n
      · cases n; rfl

/-- The entry of a queue that is ready starts. -/
theorem Hw.startEntry_ready {h : Hw} {q op : Nat} {e : SqEntry} (r : h.entryReady q op e = true) (o : 1 ≤ op ∧ op ≤ 7) (f : SqEntry → Hw → Hw) :
    h.hifDo (Hw.startEntry q op f) = h.afterHead q (f e (h.entryStarted q e)) := by
  simp only [Hw.entryReady, Bool.and_eq_true, decide_eq_true_eq] at r
  obtain ⟨⟨⟨w, n⟩, k⟩, c⟩ := r
  have hq := Hw.nextEntry_q n
  rw [Hw.hifDo_works w]
  simp only [Hw.startEntry, n, k, ne_eq, not_true_eq_false, decide_false, Bool.and_false, Bool.false_eq_true, if_false]
  rw [Hw.startAt_clean (by rw [k]; exact o) c, hq]
  rfl

/-! ## BEAT_SET and CONFIG -/

/-- AT_FBC of a CONFIG fits its 8 bytes. -/
theorem cfgOf_atFbc_lt (b : List Byte) : (cfgOf b).atFbc < 2 ^ 64 := by
  have h := ofBytesLE_lt (slice 16 8 b)
  have l : (slice 16 8 b).length ≤ 8 := by simp [slice]
  have : (256:Nat) ^ (slice 16 8 b).length ≤ 256 ^ 8 := Nat.pow_le_pow_right (by decide) l
  show ofBytesLE (slice 16 8 b) < 2 ^ 64
  omega

/-- Launches do not depend on register space. -/
theorem Hw.anyLaunch_onPg (t : Hw) (q : Pages → Pages) : (t.onPg q).anyLaunch = t.anyLaunch := rfl

/-- Two updates of register space are one. -/
theorem Hw.onPg_onPg (t : Hw) (f1 f2 : Pages → Pages) : (t.onPg f1).onPg f2 = t.onPg fun p => f2 (f1 p) := rfl

/-- A set that is two beats ahead on a whole beat, with no launch and no length armed, is armed. -/
theorem Hw.setCtrl_arms (t : Hw) (q : Pages → Pages) (v : W64) (l : t.anyLaunch = false) (a1 : (q t.pg).rd64 Reg.BEAT_SET_AT_LO = v)
    (a2 : (q t.pg).bit Reg.BEAT_LEN_NEXT 31 = false) (a3 : (q t.pg).beatLen = t.pg.beatLen) (a5 : (q t.pg).fbc = t.pg.fbc)
    (f : t.pg.fbc.toNat + 2 * t.pg.beatLen ≤ v.toNat) (g : v.toNat % t.pg.beatLen = 0) :
    (t.onPg q).setCtrl 0x80000000 = (true, t.onPg fun p => (q p).setb Reg.BEAT_SET_CTRL 31 true) := by
  have z1 : wbit (0x80000000#32) 31 = true := by decide
  have z0 : wbit (0x80000000#32) 0 = false := by decide
  have a4 : (t.onPg q).pg = q t.pg := rfl
  unfold Hw.setCtrl
  simp only [a4, a1, a2, a3, a5, Hw.anyLaunch_onPg, l, Hw.onPg_onPg, g]
  simp only [Nat.not_lt.mpr f, Bool.and_false, ne_eq, not_true_eq_false, decide_false, Bool.or_false, if_false, Bool.false_eq_true]
  rfl

/-- The registers outside BEAT_SET stay. -/
theorem PodCfg.set_rd (c : PodCfg) (p : Pages) (j : Nat) (h0 : j ≠ Reg.BEAT_SET_CTRL) (h1 : j ≠ Reg.BEAT_SET_AT_LO) (h2 : j ≠ Reg.BEAT_SET_AT_LO + 1)
    (h3 : j ≠ Reg.BEAT_SET_NUM_LO) (h4 : j ≠ Reg.BEAT_SET_NUM_LO + 1) : (c.set p).rd j = p.rd j := by
  unfold PodCfg.set
  rw [Pages.rd_wr64_ne _ _ _ _ h3 h4, Pages.rd_wr64_ne _ _ _ _ h1 h2, Pages.setb_eq, Pages.rd_wr, if_neg h0]

/-- BEAT_SET_AT takes AT_FBC. -/
theorem PodCfg.set_at (c : PodCfg) (p : Pages) : (c.set p).rd64 Reg.BEAT_SET_AT_LO = BitVec.ofNat 64 c.atFbc := by
  unfold PodCfg.set Pages.rd64
  rw [Pages.rd_wr64_ne _ Reg.BEAT_SET_NUM_LO Reg.BEAT_SET_AT_LO _ (by decide) (by decide),
    Pages.rd_wr64_ne _ Reg.BEAT_SET_NUM_LO (Reg.BEAT_SET_AT_LO + 1) _ (by decide) (by decide)]
  exact Pages.rd64_wr64 _ _ _

/-- The count stays. -/
theorem PodCfg.set_fbc (c : PodCfg) (p : Pages) : (c.set p).fbc = p.fbc := by
  unfold PodCfg.set Pages.wr64
  rw [Pages.wr_fbc, Pages.wr_fbc, Pages.wr_fbc, Pages.wr_fbc, Pages.setb_eq, Pages.wr_fbc]

/-- The beat length stays. -/
theorem PodCfg.set_beatLen (c : PodCfg) (p : Pages) : (c.set p).beatLen = p.beatLen := by
  simp only [Pages.beatLen, Pages.get_eq]
  rw [PodCfg.set_rd _ _ _ (by decide) (by decide) (by decide) (by decide) (by decide)]

/-- What BEAT_LEN_NEXT has armed stays. -/
theorem PodCfg.set_lenNext (c : PodCfg) (p : Pages) : (c.set p).bit Reg.BEAT_LEN_NEXT 31 = p.bit Reg.BEAT_LEN_NEXT 31 := by
  rw [Pages.bit_eq, Pages.bit_eq, PodCfg.set_rd _ _ _ (by decide) (by decide) (by decide) (by decide) (by decide)]

/-- A CONFIG two beats ahead on a whole beat, with no launch and no length armed, arms BEAT_SET. -/
theorem Hw.cfgArm_arms (t : Hw) (c : PodCfg) (b : c.atFbc < 2 ^ 64) (l : t.anyLaunch = false) (f : t.pg.fbc.toNat + 2 * t.pg.beatLen ≤ c.atFbc)
    (g : c.atFbc % t.pg.beatLen = 0) (ln : t.pg.bit Reg.BEAT_LEN_NEXT 31 = false) :
    t.cfgArm c = (true, t.onPg fun p => (c.set p).setb Reg.BEAT_SET_CTRL 31 true) := by
  have n : (BitVec.ofNat 64 c.atFbc).toNat = c.atFbc := by rw [BitVec.toNat_ofNat, Nat.mod_eq_of_lt b]
  unfold Hw.cfgArm
  exact Hw.setCtrl_arms t c.set (BitVec.ofNat 64 c.atFbc) l (PodCfg.set_at c _) ((PodCfg.set_lenNext c _).trans ln) (PodCfg.set_beatLen c _) (PodCfg.set_fbc c _) (by rw [n]; exact f) (by rw [n]; exact g)

end Sys2Proof.Machine
end

