-- ==== Sys2Proof/Laws/Cores.lean ====
section
/-! SUPPORT. Laws of the cores: what a dispatch does where the core takes the instruction, and what a scalar instruction of the Gig does where
the Gig runs. -/

namespace Sys2Proof.Machine

/-! ## Dispatch -/

/-- What dispatching an instruction does to a core that takes it, before the core's queues go on. -/
def Hw.taken (l cx : Nat) (i : CoreInsn) (h : Hw) : Hw :=
  let ci := h.ciOf l cx
  if i.place < 4 then h.enqueue ci.n i
  else if i.isScalar then h.onCv ci (CV.scalar ci i)
  else if i.isLocalFence then
    h.modCore ci.n fun c => { c.next with ord := if c.fenceMet .local 0 then c.ord else c.ord ++ [4] }
  else if (h.core ci.n).spec.isSome then h.modCore ci.n fun c => { c with wait := some (.commit (h.nextIdx ci.n) i) }
  else h.control ci i

/-- No wait: nothing ends. -/
theorem Hw.endWait_none {h : Hw} {ci : CInfo} (w : (h.core ci.n).wait = none) : h.endWait ci = h := by unfold Hw.endWait; rw [w]

/-- The place of an instruction is one of five. -/
theorem CoreInsn.place_le (i : CoreInsn) : i.place ≤ 4 := by
  cases i <;> simp only [CoreInsn.place] <;> first | decide | (split <;> decide)

/-- Dispatch to a core that takes the instruction. -/
theorem Hw.dispatch_takes {h : Hw} {l cx : Nat} {i : CoreInsn} (t : h.takes l cx i = true) :
    h.dispatch l i = (h.taken l cx i).pumpCore (h.ciOf l cx) := by
  simp only [Hw.takes, Bool.and_eq_true, decide_eq_true_eq, Option.isNone_iff_eq_none] at t
  obtain ⟨⟨a, w⟩, d⟩ := t
  have e : h.endWait (h.ciOf l cx) = h := Hw.endWait_none w
  have g : (if (h.reach l && decide ((h.core (h.ciOf l cx).n).owner = some cx)) = true then h.endWait (h.ciOf l cx) else h) = h := by
    rw [e]; split <;> rfl
  simp only [Hw.dispatch, a, g, d]
  have p := CoreInsn.place_le i
  simp only [Bool.not_true, Bool.false_eq_true, if_false]
  congr 1
  unfold Hw.taken
  simp only [Hw.enqueue, Hw.nextIdx]
  by_cases p0 : i.place = 0
  · simp only [p0]; rfl
  by_cases p1 : i.place = 1
  · simp only [p1]; rfl
  by_cases p4 : i.place < 4
  · have : i.place = 2 ∨ i.place = 3 := by omega
    rcases this with q | q <;> simp only [q] <;> rfl
  · have q : i.place = 4 := by omega
    simp only [q]
    simp

/-! ## The Gig -/

/-- A scalar instruction where the Gig runs. -/
theorem gigGo_runs {ci : CInfo} {r : GRun} {v : CV} (g : v.core.grun = some r) (w : r.waiting = false) (l : r.pc < r.call.len) (a : v.core.failed = false)
    (b : v.core.gStop = false) (d : v.pg.bit (Reg.GIG_DBG_CTRL ci.n) 30 = false) (e : v.pg.enabled (Pg.gig ci.n) = true)
    (u : v.pg.unarmed (Pg.gig ci.n) = true) (f : GRun → CV → CV) : gigGo ci f v = f r v := by
  simp [gigGo, g, w, a, b, d, Pages.detect_unarmed u, e, Nat.not_le.mpr l]

/-- A step of a routine as a command, where the Gig runs. -/
theorem Hw.gigDo_runs {h : Hw} {l cx : Nat} (g : h.gigRuns l cx = true) (f : CInfo → CV → CV) :
    h.gigDo l f = (h.onCv (h.ciOf l cx) (f (h.ciOf l cx))).pumpCore (h.ciOf l cx) := by
  simp only [Hw.gigRuns, Hw.runsOn, Bool.and_eq_true, decide_eq_true_eq] at g
  obtain ⟨⟨⟨⟨⟨⟨⟨⟨⟨a, b⟩, c⟩, d⟩, _⟩, _⟩, _⟩, _⟩, _⟩, _⟩ := g
  simp only [Hw.gigDo, a]
  rw [if_pos]
  simp only [Bool.and_eq_true, decide_eq_true_eq]
  exact ⟨⟨b, c⟩, d⟩

/-- The same of an instruction that gigGo guards: its effect is the instruction's own. -/
theorem Hw.onCv_gigGo {h : Hw} {l cx : Nat} (g : h.gigRuns l cx = true) (f : GRun → CV → CV) :
    ∃ r, (h.core (h.pg.physOf l)).grun = some r ∧ r.waiting = false ∧
      h.onCv (h.ciOf l cx) (gigGo (h.ciOf l cx) f) = h.onCv (h.ciOf l cx) (f r) := by
  simp only [Hw.gigRuns, Bool.and_eq_true, Bool.not_eq_true', Option.any_eq_true] at g
  obtain ⟨⟨⟨⟨⟨⟨_, r, hr, w, z⟩, a⟩, b⟩, d⟩, e⟩, u⟩ := g
  refine ⟨r, hr, by simpa using w, ?_⟩
  have n : (h.ciOf l cx).n = h.pg.physOf l := rfl
  unfold Hw.onCv
  rw [gigGo_runs (ci := h.ciOf l cx) (v := { pg := h.pg, core := h.core (h.ciOf l cx).n }) (by rw [n]; exact hr) (by simpa using w)
    (by simpa using z)
    (by rw [n]; exact a) (by rw [n]; exact b) (by rw [n]; exact d) (by rw [n]; exact e) (by rw [n]; exact u) f]

/-- Two updates of a core that agree where it stands are the same update. -/
theorem Hw.onCv_congr {h : Hw} {ci : CInfo} {f g : CV → CV} (e : f { pg := h.pg, core := h.core ci.n } = g { pg := h.pg, core := h.core ci.n }) :
    h.onCv ci f = h.onCv ci g := by unfold Hw.onCv; rw [e]

/-- A scalar instruction of the Gig as a command, where the Gig runs. -/
theorem State.onHw_gig {s : State} {l : Fin 96} {cx : Nat} (u : s.hw.up = true) (g : s.hw.gigRuns l.val cx = true) {F : CInfo → CV → CV}
    {f : GRun → CV → CV} (hF : F (s.hw.ciOf l.val cx) = gigGo (s.hw.ciOf l.val cx) f) {k : CV → CV}
    (e : ∀ r, (s.hw.core (s.hw.pg.physOf l.val)).grun = some r →
      f r { pg := s.hw.pg, core := s.hw.core (s.hw.ciOf l.val cx).n } = k { pg := s.hw.pg, core := s.hw.core (s.hw.ciOf l.val cx).n }) :
    s.onHw (Hw.gigDo l.val F) = .next (s.done fun h => (h.onCv (s.hw.ciOf l.val cx) k).pumpCore (s.hw.ciOf l.val cx)) := by
  refine State.onHw_next u ?_
  rw [Hw.gigDo_runs g, hF]
  obtain ⟨r, hr, _, e2⟩ := Hw.onCv_gigGo g f
  rw [e2, Hw.onCv_congr (e r hr)]

/-! ## Commands that carry an instruction -/

/-- A command that carries a native instruction is its dispatch. -/
theorem exec_insn {c : Instr} {l : Fin 96} {i : CoreInsn} (h : coreInsn? c = some (l, i)) (s : State) : exec c s = State.onInsn l.val i s := by
  cases c <;> first
    | (simp only [coreInsn?, Option.some.injEq, Prod.mk.injEq] at h; obtain ⟨rfl, rfl⟩ := h; rfl)
    | (simp only [coreInsn?] at h; cases h)

/-- What a well-formed instruction does where the core takes it. -/
theorem State.onInsn_takes {s : State} {l : Fin 96} {i : CoreInsn} {cx : Nat} (u : s.hw.up = true) (w : i.wf = true)
    (t : s.hw.takes l.val cx i = true) {g : Hw → Hw} (e : (s.hw.taken l.val cx i).pumpCore (s.hw.ciOf l.val cx) = g s.hw) :
    State.onInsn l.val i s = .next (s.done g) := by
  rw [State.onInsn_up w u, State.done_congr]
  rw [Hw.dispatch_takes t, e]

end Sys2Proof.Machine
end

