-- ==== Sys2Proof/Laws/Memory.lean ====
section
/-! SUPPORT. Laws of memory: its canonical form holds at reset and every memory operation keeps it; what stored bytes read as. -/

namespace Sys2Proof.Machine

/-! ## Bytes -/

theorem Mem.reset_wf : Mem.reset.wf = true := rfl

theorem Mem.setByte_wf {m : Mem} (a : Nat) (b : Byte) (h : m.wf = true) : (m.setByte a b).wf = true := by
  simp only [Mem.wf, Bool.and_eq_true] at h ⊢
  exact ⟨canonical_tset _ _ h.1, h.2⟩

theorem Mem.setBytes_wf {m : Mem} (a : Nat) (bs : List Byte) (h : m.wf = true) : (m.setBytes a bs).wf = true := by
  simp only [Mem.wf, Bool.and_eq_true] at h ⊢
  exact ⟨canonical_tsetList _ _ h.1, h.2⟩

theorem Mem.hostWrite_wf {m : Mem} (fn a : Nat) (bs : List Byte) (h : m.wf = true) : (m.hostWrite fn a bs).wf = true := by
  simp only [Mem.wf, Bool.and_eq_true] at h ⊢
  exact ⟨h.1, canonical_tsetList _ _ h.2⟩

theorem Mem.setPoison_wf {m : Mem} (l : Nat) (b : Bool) (h : m.wf = true) : (m.setPoison l b).wf = true := h

theorem Mem.xlDrop_wf {m : Mem} (t : Nat → Bool) (lo hi : Nat) (h : m.wf = true) : (m.xlDrop t lo hi).wf = true := h

/-- A byte of the tiers reads what was stored there, and every other byte as before. -/
theorem Mem.byte_setByte (m : Mem) (a x : Nat) (b : Byte) : (m.setByte a b).byte x = if x = a then b else m.byte x := tget_tset _ _ _ _ _

/-! ## Lines -/

@[simp] theorem Dev.detect_mem (d : Dev) (pg det a : Nat) (cx : CtxId) (r : Bool) : (d.detect pg det a cx r).2.mem = d.mem := by
  unfold Dev.detect; rfl

theorem Dev.storm_wf {d : Dev} (u p t l : Nat) (cx : CtxId) (h : d.mem.wf = true) : (d.storm u p t l cx).mem.wf = true := by
  unfold Dev.storm
  simp only [Dev.onMem_mem, apply_ite Dev.mem, Dev.onPg_mem, Dev.detect_mem, ite_self]
  exact h

theorem Dev.foundCe_wf {d : Dev} (l : Nat) (cx : CtxId) (h : d.mem.wf = true) : (d.foundCe l cx).mem.wf = true := by
  unfold Dev.foundCe
  dsimp only
  refine Dev.storm_wf _ _ _ _ _ ?_
  rw [Dev.onMem_mem, Dev.onPg_mem, Dev.onPg_mem]
  exact h

theorem Dev.foundUe_wf {d : Dev} (r : Reader) (l : Nat) (cx : CtxId) (h : d.mem.wf = true) : (d.foundUe r l cx).mem.wf = true := by
  unfold Dev.foundUe
  dsimp only
  rw [Dev.onPg_mem, Dev.onMem_mem]
  exact h

theorem Dev.poisonRd_wf {d : Dev} (r : Reader) (l : Nat) (cx : CtxId) (h : d.mem.wf = true) : (d.poisonRd r l cx).mem.wf = true := by
  unfold Dev.poisonRd
  dsimp only
  rw [Dev.onPg_mem]
  exact h

theorem Dev.chkAccess_wf {d : Dev} (w : Bool) (l : Nat) (h : d.mem.wf = true) : (d.chkAccess w l).mem.wf = true := by
  unfold Dev.chkAccess
  split
  · exact h
  · dsimp only
    split
    · rw [Dev.onMem_mem]; exact h
    · rw [Dev.onMem_mem, Dev.onPg_mem]; exact h

theorem Dev.stackDead_wf {d : Dev} (cx : CtxId) (l : Nat) (h : d.mem.wf = true) : (d.stackDead cx l).2.mem.wf = true := by
  unfold Dev.stackDead
  split
  · exact h
  · dsimp only
    split
    · exact h
    · split
      · exact h
      · exact h

/-- The stack interface that a reader or writer meets. -/
theorem Dev.dead_wf {d : Dev} (r : Reader) (cx : CtxId) (l : Nat) (h : d.mem.wf = true) :
    (if r = .suu then (false, d) else d.stackDead cx l).2.mem.wf = true := by
  split
  · exact h
  · exact Dev.stackDead_wf cx l h

theorem Dev.readLine_wf {d : Dev} (r : Reader) (cx : CtxId) (l : Nat) (h : d.mem.wf = true) : (d.readLine r cx l).2.mem.wf = true := by
  unfold Dev.readLine
  split
  · exact h
  · extract_lets s d0 d1 fl d2 u o d3
    have e : d1.mem.wf = true := by
      show (d0.onPg _).mem.wf = true
      rw [Dev.onPg_mem]; exact Dev.chkAccess_wf _ l (Dev.dead_wf r cx l h)
    have c : d2.mem.wf = true := by
      show (if fl = 1 then d1.foundCe l cx else if fl = 2 then d1.foundUe r l cx else d1).mem.wf = true
      split
      · exact Dev.foundCe_wf l cx e
      · split
        · exact Dev.foundUe_wf r l cx e
        · exact e
    split
    · exact Dev.poisonRd_wf r l cx c
    · exact c

theorem Dev.eccInject_wf {d : Dev} (l : Nat) (h : d.mem.wf = true) : (d.eccInject l).mem.wf = true := h

theorem Dev.wcbOcc_wf {d : Dev} (s : Nat) (h : d.mem.wf = true) : (d.wcbOcc s).mem.wf = true := h

theorem Dev.wcbDrop_wf {d : Dev} (l : Nat) (h : d.mem.wf = true) : (d.wcbDrop l).mem.wf = true := by
  unfold Dev.wcbDrop
  split <;> exact h

theorem Dev.writeLine_wf {d : Dev} (r : Reader) (l : Nat) (bs : List Byte) (h : d.mem.wf = true) : (d.writeLine r l bs).mem.wf = true := by
  unfold Dev.writeLine
  split
  · exact h
  · extract_lets s d1
    have a : d1.mem.wf = true := Dev.chkAccess_wf true l (Dev.dead_wf r none l h)
    split
    · exact a
    · exact Dev.eccInject_wf l (Mem.setBytes_wf _ _ (Dev.wcbDrop_wf l a))

/-! ## Write-combining buffers -/

theorem Dev.wcbFlush_wf {d : Dev} (e : WcbEntry) (h : d.mem.wf = true) : (d.wcbFlush e).mem.wf = true := by
  unfold Dev.wcbFlush
  dsimp only
  refine Dev.wcbOcc_wf _ ?_
  have a : ((d.onMem fun m => { m with wcb := m.wcb.filter fun x => x.line ≠ e.line }).detect Pg.wcb 0 (64 * e.line) e.cx false).2.mem.wf = true := by
    rw [Dev.detect_mem]; exact h
  split
  · exact Dev.foundUe_wf _ _ _ a
  split
  · exact a
  · split
    · refine Dev.writeLine_wf _ _ _ ?_
      rw [Dev.onPg_mem]; exact a
    · have b := Dev.readLine_wf .wcb e.cx e.line a
      split
      · exact b
      · exact Dev.writeLine_wf _ _ _ b

/-- A fold keeps what each of its steps keeps. -/
theorem foldl_wf {β : Type} {f : Dev → β → Dev} (hf : ∀ d x, d.mem.wf = true → (f d x).mem.wf = true) (l : List β) {d : Dev} (h : d.mem.wf = true) :
    (l.foldl f d).mem.wf = true := by
  induction l generalizing d with
  | nil => exact h
  | cons x l ih => exact ih (hf d x h)

theorem Dev.wcbFlushAll_wf {d : Dev} (p : WcbEntry → Bool) (h : d.mem.wf = true) : (d.wcbFlushAll p).mem.wf = true :=
  foldl_wf (fun _ e => Dev.wcbFlush_wf e) _ h

theorem Dev.wcbMerge_wf {d : Dev} (cx : CtxId) (a : Nat) (bs : List Byte) (h : d.mem.wf = true) : (d.wcbMerge cx a bs).mem.wf = true := by
  unfold Dev.wcbMerge
  dsimp only
  refine Dev.wcbOcc_wf _ ?_
  rw [Dev.onPg_mem, Dev.onMem_mem]
  split
  · exact h
  · split
    · split
      · rw [Dev.onPg_mem]; exact Dev.wcbFlush_wf _ h
      · exact h
    · exact h

/-! ## Ranges -/

/-- A fold that reads keeps what each of its steps keeps. -/
theorem foldl_read_wf {α β : Type} {f : α × Dev → β → α × Dev} (hf : ∀ a x, a.2.mem.wf = true → (f a x).2.mem.wf = true) (l : List β)
    {a : α × Dev} (h : a.2.mem.wf = true) : (l.foldl f a).2.mem.wf = true := by
  induction l generalizing a with
  | nil => exact h
  | cons x l ih => exact ih (hf a x h)

theorem Dev.tierRead_wf {d : Dev} (r : Reader) (cx : CtxId) (a n : Nat) (h : d.mem.wf = true) : (d.tierRead r cx a n).2.mem.wf = true :=
  foldl_read_wf (fun _ pc hx => Dev.readLine_wf r cx (pc.1 / 64) hx) _ (a := (some [], d)) h

theorem Dev.writePiece_wf {d : Dev} (r : Reader) (cx : CtxId) (a : Nat) (bs : List Byte) (h : d.mem.wf = true) :
    (d.writePiece r cx a bs).mem.wf = true := by
  unfold Dev.writePiece
  split
  · exact Dev.writeLine_wf _ _ _ h
  · split
    · exact h
    · split
      · split
        · exact Dev.wcbMerge_wf cx a bs h
        · exact h
      · dsimp only
        have b := Dev.readLine_wf r cx (a / 64) h
        split
        · rw [Dev.onPg_mem]; exact b
        · refine Dev.writeLine_wf _ _ _ ?_
          rw [Dev.onPg_mem]; exact b

theorem Dev.tierWrite_wf {d : Dev} (r : Reader) (cx : CtxId) (a : Nat) (bs : List Byte) (h : d.mem.wf = true) :
    (d.tierWrite r cx a bs).mem.wf = true :=
  foldl_wf (fun _ _ hx => Dev.writePiece_wf r cx _ _ hx) _ h

theorem Dev.ats_wf {d : Dev} (cx : CtxId) (a : Nat) (h : d.mem.wf = true) : (d.ats cx a).2.mem.wf = true := h

theorem Dev.read_wf {d : Dev} (r : Reader) (cx : CtxId) (a n : Nat) (h : d.mem.wf = true) : (d.read r cx a n).2.mem.wf = true := by
  unfold Dev.read
  split
  · extract_lets t
    split <;> exact Dev.ats_wf cx a h
  · exact Dev.tierRead_wf r cx a n h

theorem Dev.write_wf {d : Dev} (r : Reader) (cx : CtxId) (a : Nat) (bs : List Byte) (h : d.mem.wf = true) : (d.write r cx a bs).mem.wf = true := by
  unfold Dev.write
  split
  · extract_lets t
    split
    · exact Mem.hostWrite_wf _ _ _ (Dev.ats_wf cx a h)
    · exact Dev.ats_wf cx a h
  · exact Dev.tierWrite_wf r cx a bs h

theorem Dev.readSegs_wf {d : Dev} (r : Reader) (cx : CtxId) (segs : List Seg) (h : d.mem.wf = true) : (d.readSegs r cx segs).2.mem.wf = true :=
  foldl_read_wf (fun _ s hx => Dev.read_wf r cx s.1 s.2 hx) _ (a := (some [], d)) h

theorem Dev.writeSegs_wf {d : Dev} (r : Reader) (cx : CtxId) (segs : List Seg) (bs : List Byte) (h : d.mem.wf = true) :
    (d.writeSegs r cx segs bs).mem.wf = true := by
  induction segs generalizing d bs with
  | nil => exact h
  | cons s ss ih => exact ih _ (Dev.write_wf r cx s.1 _ h)

/-! ## Translation -/

theorem Dev.walkStep_wf {d : Dev} (r : Reader) (cx : CtxId) (l t va : Nat) (h : d.mem.wf = true) : (d.walkStep r cx l t va).2.mem.wf = true := by
  have b (e : Nat) : (d.tierRead r cx e 8).2.mem.wf = true := Dev.tierRead_wf r cx e 8 h
  unfold Dev.walkStep
  extract_lets
  split
  · exact h
  · split
    · exact b _
    · extract_lets
      split
      · exact b _
      · split
        · exact b _
        · split <;> exact b _

theorem Dev.walk_wf (r : Reader) (bay ctx gen va fuel l t : Nat) {d : Dev} (h : d.mem.wf = true) :
    (d.walk r bay ctx gen va fuel l t).2.mem.wf = true := by
  induction fuel generalizing d l t with
  | zero => exact h
  | succ fuel ih =>
    have w := Dev.walkStep_wf r (some (ctx, gen)) l t va h
    unfold Dev.walk
    split
    · rename_i e; rw [e] at w; exact w
    · rename_i e; rw [e] at w; exact w
    · rename_i e
      rw [e] at w
      refine ih _ _ ?_
      split <;> exact w

theorem Dev.tlbHit_wf {d : Dev} (bay ctx va : Nat) (h : d.mem.wf = true) : (d.tlbHit bay ctx va).2.mem.wf = true := by
  unfold Dev.tlbHit
  dsimp only
  split
  · exact h
  · split <;> exact h

theorem Dev.walkHit_wf {d : Dev} (bay ctx va l : Nat) (h : d.mem.wf = true) : (d.walkHit bay ctx va l).2.mem.wf = true := by
  unfold Dev.walkHit
  dsimp only
  split
  · exact h
  · split <;> exact h

theorem Dev.walkFrom_wf (bay ctx va : Nat) (ls : List Nat) {d : Dev} (h : d.mem.wf = true) : (d.walkFrom bay ctx va ls).2.mem.wf = true := by
  induction ls generalizing d with
  | nil => exact h
  | cons l ls ih =>
    have w := Dev.walkHit_wf bay ctx va l h
    unfold Dev.walkFrom
    dsimp only
    split
    · exact w
    · exact ih w

theorem Dev.findPage_wf {d : Dev} (r : Reader) (bay ctx va : Nat) (first : Option Nat) (h : d.mem.wf = true) :
    (d.findPage r bay ctx va first).2.mem.wf = true := by
  have a := Dev.tlbHit_wf bay ctx va h
  unfold Dev.findPage
  extract_lets gen hit d1 root from_ start d2 wk
  have c : d1.mem.wf = true := a
  split
  · exact c
  · split
    · exact c
    · have w : wk.2.mem.wf = true := Dev.walk_wf _ _ _ _ _ _ _ _ (by rw [Dev.onPg_mem]; exact Dev.walkFrom_wf bay ctx va _ c)
      split
      · exact w
      · extract_lets reg wk2
        split
        · split
          · rw [Dev.onPg_mem]; exact w
          · dsimp only
            split
            · rw [Dev.onPg_mem]; exact w
            · exact w
        · show (if bay < 12 then wk2.2.onMem _ else wk2.2).mem.wf = true
          split
          · exact w
          · exact w

theorem Dev.xlPages_wf (r : Reader) (bay ctx : Nat) (wr : Bool) (fuel va n : Nat) (acc : List Seg) {d : Dev} (h : d.mem.wf = true) :
    (d.xlPages r bay ctx wr fuel va n acc).2.mem.wf = true := by
  induction fuel generalizing d va n acc with
  | zero => exact h
  | succ fuel ih =>
    have f := Dev.findPage_wf r bay ctx va (acc.getLast?.map (·.1)) h
    unfold Dev.xlPages
    split
    · exact h
    · split
      · rename_i e; rw [e] at f; exact f
      · rename_i e
        rw [e] at f
        dsimp only
        split
        · exact f
        · split
          · exact f
          · exact ih _ _ _ f

theorem Dev.translate_wf {d : Dev} (r : Reader) (bay ctx va n : Nat) (wr : Bool) (h : d.mem.wf = true) :
    (d.translate r bay ctx va n wr).2.mem.wf = true := by
  unfold Dev.translate
  split
  · exact h
  · split
    · exact h
    · have f := Dev.xlPages_wf r bay ctx wr (n / 65536 + 2) va n [] h
      split
      · rename_i e; rw [e] at f; exact f
      · rename_i e; rw [e] at f; exact f
      · rename_i e; rw [e] at f
        unfold Dev.decode
        rw [Dev.detect_mem]; exact f

/-! ## The commands of the memory system -/

theorem Dev.scrubLine_wf {d : Dev} (l : Nat) (h : d.mem.wf = true) : (d.scrubLine l).mem.wf = true := by
  unfold Dev.scrubLine
  split
  · exact h
  · split
    · exact h
    · exact Dev.foundCe_wf l none h
    · exact Dev.foundUe_wf _ l none h

theorem Dev.scrubNear_wf {d : Dev} (s : Nat) (h : d.mem.wf = true) : (d.scrubNear s).mem.wf = true := by
  unfold Dev.scrubNear
  dsimp only
  split
  · exact h
  · rw [Dev.onPg_mem]; exact Dev.scrubLine_wf _ h

theorem Dev.scrubFar_wf {d : Dev} (c : Nat) (h : d.mem.wf = true) : (d.scrubFar c).mem.wf = true := by
  unfold Dev.scrubFar
  extract_lets
  split
  · exact h
  · exact Dev.scrubLine_wf _ h

theorem Dev.chkCrc_wf {d : Dev} (c : Nat) (lost : BitVec 15) (h : d.mem.wf = true) : (d.chkCrc c lost).mem.wf = true := by
  unfold Dev.chkCrc
  extract_lets n base g first d1
  split
  · exact h
  · refine foldl_wf (fun d k hd => ?_) _ (Dev.chkAccess_wf true first h)
    split
    · exact Dev.foundUe_wf _ _ none hd
    · exact hd

theorem Dev.scrub_wf {d : Dev} (u n : Nat) (chk : Option (BitVec 15)) (h : d.mem.wf = true) : (d.scrub u n chk).mem.wf = true := by
  unfold Dev.scrub
  split
  · dsimp only
    split
    · exact Dev.scrubNear_wf u h
    · exact h
  · split
    · refine Dev.scrubFar_wf _ ?_
      split
      · exact Dev.chkCrc_wf _ _ h
      · exact h
    · exact h

theorem Dev.wcbTimeout_wf {d : Dev} (s : Nat) (h : d.mem.wf = true) : (d.wcbTimeout s).mem.wf = true := by
  unfold Dev.wcbTimeout
  split
  · exact Dev.wcbFlush_wf _ h
  · exact h

theorem Dev.wcbFlushReg_wf {d : Dev} (w : W32) (h : d.mem.wf = true) : (d.wcbFlushReg w).mem.wf = true := Dev.wcbFlushAll_wf _ h

theorem Dev.xlInval_wf {d : Dev} (w : W32) (h : d.mem.wf = true) : (d.xlInval w).2.mem.wf = true := by
  unfold Dev.xlInval
  dsimp only
  split
  · exact h
  · exact h

theorem Dev.winAccess_wf {d : Dev} (write : Bool) (h : d.mem.wf = true) : (d.winAccess write).2.mem.wf = true := by
  have b (a : Nat) : (d.tierRead .chaise none a 8).2.mem.wf = true := Dev.tierRead_wf _ _ _ _ h
  unfold Dev.winAccess
  dsimp only
  split
  · split
    · exact Dev.tierWrite_wf _ _ _ _ h
    · split <;> exact b _
  · split
    · exact Dev.tierWrite_wf _ _ _ _ h
    · split <;> exact b _
  · exact h

theorem Dev.winCmd_wf {d : Dev} (w : W32) (h : d.mem.wf = true) : (d.winCmd w).2.mem.wf = true := by
  unfold Dev.winCmd
  split
  · exact h
  · split
    · exact h
    · exact Dev.winAccess_wf _ h

theorem Dev.winDone_wf {d : Dev} (h : d.mem.wf = true) : d.winDone.mem.wf = true := by
  unfold Dev.winDone
  split <;> exact h

end Sys2Proof.Machine
end

