-- ==== Sys2Proof/Laws/PerInstr.lean ====
section
/-! SUPPORT. One law per command: the access path of a well-formed command names a function that exists. -/

namespace Sys2Proof.Laws.InRange

open Sys2Proof Sys2Proof.Machine

/-- A well-formed command that accesses register space does so on a path of an existing function (R441). -/
def Statement (i : Instr) : Prop := i.wf = true → ∀ p : Path, i.path? = some p → p.ok = true

theorem beatBoundary : Statement (.beatBoundary) := fun _ _ h => nomatch h
theorem capWindowEnd (watts : W16) : Statement (.capWindowEnd watts) := fun _ _ h => nomatch h
theorem syncMarkerRx (port : Fin 10) (rx : FlitRx) (marker now : W64) : Statement (.syncMarkerRx port rx marker now) := fun _ _ h => nomatch h
theorem syncEmit (port : Fin 10) : Statement (.syncEmit port) := fun _ _ h => nomatch h
theorem holdover : Statement (.holdover) := fun _ _ h => nomatch h
theorem holdoverLong : Statement (.holdoverLong) := fun _ _ h => nomatch h
theorem beatServoCtrlWrite (p : Path) (w : W32) : Statement (.beatServoCtrlWrite p w) := fun w _ h => Option.some.inj h ▸ w
theorem clrMax (p : Path) : Statement (.clrMax p) := fun w _ h => Option.some.inj h ▸ w
theorem beatSetArm (p : Path) : Statement (.beatSetArm p) := fun w _ h => Option.some.inj h ▸ w
theorem beatSetDisarm (p : Path) : Statement (.beatSetDisarm p) := fun w _ h => Option.some.inj h ▸ w
theorem beatLenArm (p : Path) (log2 : Fin 32) : Statement (.beatLenArm p log2) := fun w _ h => Option.some.inj h ▸ w
theorem beatLenDisarm (p : Path) (log2 : Fin 32) : Statement (.beatLenDisarm p log2) := fun w _ h => Option.some.inj h ▸ w
theorem revote (p : Path) (c : Byte) : Statement (.revote p c) := fun w _ h => Option.some.inj h ▸ w
theorem withdraw (p : Path) (c : Byte) : Statement (.withdraw p c) := fun w _ h => Option.some.inj h ▸ w
theorem resume (p : Path) (c : Byte) : Statement (.resume p c) := fun w _ h => Option.some.inj h ▸ w
theorem beatCmdRefused (p : Path) (code : Fin 13) (c : Byte) : Statement (.beatCmdRefused p code c) := fun w _ h => Option.some.inj h ▸ w
theorem vote (src : VoteRx) : Statement (.vote src) := fun _ _ h => nomatch h
theorem result (src : PktSrc) (latency : W16) : Statement (.result src latency) := fun _ _ h => nomatch h
theorem jrnlReplayStart (p : Path) : Statement (.jrnlReplayStart p) := fun w _ h => Option.some.inj h ▸ w
theorem jrnlTailWrite (p : Path) (v : W64) : Statement (.jrnlTailWrite p v) := fun w _ h => Option.some.inj h ▸ w
theorem registerWrite (p : Path) (off : BitVec 26) (full : Bool) (bytes : List Byte) : Statement (.registerWrite p off full bytes) := fun w _ h => Option.some.inj h ▸ (Bool.and_eq_true_iff.1 w).1
theorem holeAccess (p : Path) (off : BitVec 26) (write : Bool) : Statement (.holeAccess p off write) := fun w _ h => Option.some.inj h ▸ w
theorem rsnSnapshotRead (p : Path) (off : BitVec 26) (len : Fin 65) : Statement (.rsnSnapshotRead p off len) := fun w _ h => Option.some.inj h ▸ (Bool.and_eq_true_iff.1 w).1
theorem counterClearWrite (p : Path) (off : BitVec 26) (w : W32) : Statement (.counterClearWrite p off w) := fun w _ h => Option.some.inj h ▸ w
theorem blockReset (p : Path) (page : BitVec 14) : Statement (.blockReset p page) := fun w _ h => Option.some.inj h ▸ w
theorem blockResetDone (page : BitVec 14) : Statement (.blockResetDone page) := fun _ _ h => nomatch h
theorem clrCnt (p : Path) (page : BitVec 14) : Statement (.clrCnt p page) := fun w _ h => Option.some.inj h ▸ w
theorem lock (p : Path) (page : BitVec 14) : Statement (.lock p page) := fun w _ h => Option.some.inj h ▸ w
theorem fence (p : Path) (page : BitVec 14) : Statement (.fence p page) := fun w _ h => Option.some.inj h ▸ w
theorem enable (p : Path) (page : BitVec 14) (on : Bool) : Statement (.enable p page on) := fun w _ h => Option.some.inj h ▸ w
theorem pgIntForce (p : Path) (page : BitVec 14) (w : W32) : Statement (.pgIntForce p page w) := fun w _ h => Option.some.inj h ▸ w
theorem mmode (l : Fin 96) (o : MmodeOp) : Statement (.mmode l o) := fun _ _ h => nomatch h
theorem mload (l : Fin 96) (o : MloadOp) : Statement (.mload l o) := fun _ _ h => nomatch h
theorem mloadComplete (n : Fin 108) : Statement (.mloadComplete n) := fun _ _ h => nomatch h
theorem mstream (l : Fin 96) (o : MstreamOp) : Statement (.mstream l o) := fun _ _ h => nomatch h
theorem mdrain (l : Fin 96) (o : MdrainOp) : Statement (.mdrain l o) := fun _ _ h => nomatch h
theorem haltReq (p : Path) (n : Fin 108) (unit : Fin 3) : Statement (.haltReq p n unit) := fun w _ h => Option.some.inj h ▸ w
theorem dbgResume (p : Path) (n : Fin 108) (unit : Fin 3) : Statement (.dbgResume p n unit) := fun w _ h => Option.some.inj h ▸ w
theorem vop (l : Fin 96) (o : VopOp) : Statement (.vop l o) := fun _ _ h => nomatch h
theorem vtens (l : Fin 96) (o : VtensOp) : Statement (.vtens l o) := fun _ _ h => nomatch h
theorem vtensLd (l : Fin 96) (o : VtensLsOp) : Statement (.vtensLd l o) := fun _ _ h => nomatch h
theorem vtensSt (l : Fin 96) (o : VtensLsOp) : Statement (.vtensSt l o) := fun _ _ h => nomatch h
theorem vred (l : Fin 96) (o : VredOp) : Statement (.vred l o) := fun _ _ h => nomatch h
theorem vcvt (l : Fin 96) (o : VcvtOp) : Statement (.vcvt l o) := fun _ _ h => nomatch h
theorem vrngSeed (l : Fin 96) (o : VseedOp) : Statement (.vrngSeed l o) := fun _ _ h => nomatch h
theorem vrngDraw (l : Fin 96) (o : VdrawOp) : Statement (.vrngDraw l o) := fun _ _ h => nomatch h
theorem vmask (l : Fin 96) (o : VmaskOp) : Statement (.vmask l o) := fun _ _ h => nomatch h
theorem gcall (l : Fin 96) (o : GcallOp) : Statement (.gcall l o) := fun _ _ h => nomatch h
theorem gcallDispatch (l : Fin 96) : Statement (.gcallDispatch l) := fun _ _ h => nomatch h
theorem ret (l : Fin 96) : Statement (.ret l) := fun _ _ h => nomatch h
theorem addSubAndOrXor (l : Fin 96) (op : GAlu) (rd ra : Fin 32) (b : GSrc) : Statement (.addSubAndOrXor l op rd ra b) := fun _ _ h => nomatch h
theorem shlShrSra (l : Fin 96) (op : GShift) (rd ra : Fin 32) (b : GSrc) : Statement (.shlShrSra l op rd ra b) := fun _ _ h => nomatch h
theorem sltSltu (l : Fin 96) (signed : Bool) (rd ra : Fin 32) (b : GSrc) : Statement (.sltSltu l signed rd ra b) := fun _ _ h => nomatch h
theorem mul (l : Fin 96) (rd ra : Fin 32) (b : GSrc) : Statement (.mul l rd ra b) := fun _ _ h => nomatch h
theorem divRem (l : Fin 96) (op : GDiv) (rd ra : Fin 32) (b : GSrc) : Statement (.divRem l op rd ra b) := fun _ _ h => nomatch h
theorem lih (l : Fin 96) (rd : Fin 32) (imm : W32) : Statement (.lih l rd imm) := fun _ _ h => nomatch h
theorem ldlStl (l : Fin 96) (store : Bool) (rd : Fin 32) (m : GMem) : Statement (.ldlStl l store rd m) := fun _ _ h => nomatch h
theorem ldsSts (l : Fin 96) (store : Bool) (rd : Fin 32) (m : GMem) : Statement (.ldsSts l store rd m) := fun _ _ h => nomatch h
theorem ldp (l : Fin 96) (rd : Fin 32) (preg : BitVec 8) : Statement (.ldp l rd preg) := fun _ _ h => nomatch h
theorem ldcap (l : Fin 96) (rd : Fin 32) (off : BitVec 12) : Statement (.ldcap l rd off) := fun _ _ h => nomatch h
theorem gigBranch (l : Fin 96) (op : GBr) (ra : Fin 32) (rb : Option (Fin 32)) (imm : W32) : Statement (.gigBranch l op ra rb imm) := fun _ _ h => nomatch h
theorem popf (l : Fin 96) (rd : Fin 32) : Statement (.popf l rd) := fun _ _ h => nomatch h
theorem waitf (l : Fin 96) : Statement (.waitf l) := fun _ _ h => nomatch h
theorem waitfWake (l : Fin 96) : Statement (.waitfWake l) := fun _ _ h => nomatch h
theorem mflush (l : Fin 96) : Statement (.mflush l) := fun _ _ h => nomatch h
theorem trap (l : Fin 96) : Statement (.trap l) := fun _ _ h => nomatch h
theorem gigFifoFlush (p : Path) (n : Fin 108) : Statement (.gigFifoFlush p n) := fun w _ h => Option.some.inj h ▸ w
theorem loadModule (q : BitVec 14) : Statement (.loadModule q) := fun _ _ h => nomatch h
theorem loadModuleDone (us : Nat) : Statement (.loadModuleDone us) := fun _ _ h => nomatch h
theorem unloadModule (q : BitVec 14) : Statement (.unloadModule q) := fun _ _ h => nomatch h
theorem launch (q : BitVec 14) : Statement (.launch q) := fun _ _ h => nomatch h
theorem cset (l : Fin 96) (d : Fin 16) (clr : Bool) (src : Sop) : Statement (.cset l d clr src) := fun _ _ h => nomatch h
theorem cinc (l : Fin 96) (d : Fin 16) (src : Sop) : Statement (.cinc l d src) := fun _ _ h => nomatch h
theorem ccmp (l : Fin 96) (d : Fin 8) (a : Fin 16) (r : Rel) (src : Sop) : Statement (.ccmp l d a r src) := fun _ _ h => nomatch h
theorem loop (l : Fin 96) (a : Fin 16) (t : BitVec 24) : Statement (.loop l a t) := fun _ _ h => nomatch h
theorem br (l : Fin 96) (cond : Option (Fin 8 × Bool)) (t : BitVec 24) : Statement (.br l cond t) := fun _ _ h => nomatch h
theorem beat (l : Fin 96) (n : BeatNext) : Statement (.beat l n) := fun _ _ h => nomatch h
theorem waitarr (l : Fin 96) (tag : Option W16) : Statement (.waitarr l tag) := fun _ _ h => nomatch h
theorem fenceInsn (l : Fin 96) (sc : FScope) (cgs : BitVec 8) : Statement (.fenceInsn l sc cgs) := fun _ _ h => nomatch h
theorem signal (l : Fin 96) (host : Bool) (e : Fin 16) (v : Sop) : Statement (.signal l host e v) := fun _ _ h => nomatch h
theorem wait (l : Fin 96) (e : Fin 16) (v : Sop) : Statement (.wait l e v) := fun _ _ h => nomatch h
theorem dcopy (l : Fin 96) (o : DcopyOp) : Statement (.dcopy l o) := fun _ _ h => nomatch h
theorem dgather (l : Fin 96) (o : DlistOp) : Statement (.dgather l o) := fun _ _ h => nomatch h
theorem dscatter (l : Fin 96) (o : DlistOp) : Statement (.dscatter l o) := fun _ _ h => nomatch h
theorem dstash (l : Fin 96) (o : DstashOp) : Statement (.dstash l o) := fun _ _ h => nomatch h
theorem dunstash (l : Fin 96) (o : DstashOp) : Statement (.dunstash l o) := fun _ _ h => nomatch h
theorem xput (l : Fin 96) (o : XputOp) : Statement (.xput l o) := fun _ _ h => nomatch h
theorem xget (l : Fin 96) (o : XgetOp) : Statement (.xget l o) := fun _ _ h => nomatch h
theorem xatom (l : Fin 96) (o : XatomOp) : Statement (.xatom l o) := fun _ _ h => nomatch h
theorem xmsg (l : Fin 96) (o : XmsgOp) : Statement (.xmsg l o) := fun _ _ h => nomatch h
theorem callr (l : Fin 96) (o : CollOp) : Statement (.callr l o) := fun _ _ h => nomatch h
theorem crscat (l : Fin 96) (o : CollOp) : Statement (.crscat l o) := fun _ _ h => nomatch h
theorem cagath (l : Fin 96) (o : CollOp) : Statement (.cagath l o) := fun _ _ h => nomatch h
theorem cbcast (l : Fin 96) (o : CollOp) : Statement (.cbcast l o) := fun _ _ h => nomatch h
theorem ca2a (l : Fin 96) (o : CollOp) : Statement (.ca2a l o) := fun _ _ h => nomatch h
theorem ca2av (l : Fin 96) (o : CollOp) : Statement (.ca2av l o) := fun _ _ h => nomatch h
theorem cperm (l : Fin 96) (o : CollOp) : Statement (.cperm l o) := fun _ _ h => nomatch h
theorem collectiveComplete (i : Nat) : Statement (.collectiveComplete i) := fun _ _ h => nomatch h
theorem urecipe (l : Fin 96) (o : UrecipeOp) : Statement (.urecipe l o) := fun _ _ h => nomatch h
theorem uapply (l : Fin 96) (o : UapplyOp) : Statement (.uapply l o) := fun _ _ h => nomatch h
theorem suuRequestStart (u : Fin 32) : Statement (.suuRequestStart u) := fun _ _ h => nomatch h
theorem uapplyComplete : Statement (.uapplyComplete) := fun _ _ h => nomatch h
theorem suuSlotPartWrite (p : Path) (stack : Fin 8) (w : W32) : Statement (.suuSlotPartWrite p stack w) := fun w _ h => Option.some.inj h ▸ w
theorem scrub (unit : ScrubRun) : Statement (.scrub unit) := fun _ _ h => nomatch h
theorem wcbEntryTimeout (stack : Fin 8) : Statement (.wcbEntryTimeout stack) := fun _ _ h => nomatch h
theorem wcbFlush (p : Path) (which : Byte) : Statement (.wcbFlush p which) := fun w _ h => Option.some.inj h ▸ w
theorem xlInvalAll (p : Path) : Statement (.xlInvalAll p) := fun w _ h => Option.some.inj h ▸ w
theorem xlInvalCtx (p : Path) (c : Byte) : Statement (.xlInvalCtx p c) := fun w _ h => Option.some.inj h ▸ w
theorem xlInvalRange (p : Path) (c : Byte) : Statement (.xlInvalRange p c) := fun w _ h => Option.some.inj h ▸ w
theorem xlInvalDone : Statement (.xlInvalDone) := fun _ _ h => nomatch h
theorem xlWinRead (p : Path) : Statement (.xlWinRead p) := fun w _ h => Option.some.inj h ▸ w
theorem xlWinWrite (p : Path) : Statement (.xlWinWrite p) := fun w _ h => Option.some.inj h ▸ w
theorem laserLost (port : Fin 10) : Statement (.laserLost port) := fun _ _ h => nomatch h
theorem trainingStart (port : Fin 10) : Statement (.trainingStart port) := fun _ _ h => nomatch h
theorem laserCheckPass (port : Fin 10) (low high : W64) : Statement (.laserCheckPass port low high) := fun _ _ h => nomatch h
theorem lockDone (port : Fin 10) (locked : W16) : Statement (.lockDone port locked) := fun _ _ h => nomatch h
theorem eqDone (port : Fin 10) (passed : W16) : Statement (.eqDone port passed) := fun _ _ h => nomatch h
theorem fecAlignDone (port : Fin 10) : Statement (.fecAlignDone port) := fun _ _ h => nomatch h
theorem id (port : Fin 10) (f : IdRx) (now : W64) : Statement (.id port f now) := fun _ _ h => nomatch h
theorem idResend (port : Fin 10) : Statement (.idResend port) := fun _ _ h => nomatch h
theorem idExchangeDone (port : Fin 10) (us : W16) : Statement (.idExchangeDone port us) := fun _ _ h => nomatch h
theorem trainStateTimeout (port : Fin 10) : Statement (.trainStateTimeout port) := fun _ _ h => nomatch h
theorem trainRetry (port : Fin 10) : Statement (.trainRetry port) := fun _ _ h => nomatch h
theorem data (port : Fin 10) (rx : FlitRx) (f : Flit) : Statement (.data port rx f) := fun _ _ h => nomatch h
theorem idle (port : Fin 10) (rx : FlitRx) : Statement (.idle port rx) := fun _ _ h => nomatch h
theorem ackTimeout (port : Fin 10) : Statement (.ackTimeout port) := fun _ _ h => nomatch h
theorem widthReq (port : Fin 10) (rx : FlitRx) (seq : BitVec 12) (good : W16) : Statement (.widthReq port rx seq good) := fun _ _ h => nomatch h
theorem retrainReq (port : Fin 10) (rx : FlitRx) (seq : BitVec 12) : Statement (.retrainReq port rx seq) := fun _ _ h => nomatch h
theorem accept (port : Fin 10) (rx : FlitRx) (seq : BitVec 12) (good : W16) : Statement (.accept port rx seq good) := fun _ _ h => nomatch h
theorem switch (port : Fin 10) (rx : FlitRx) (seq : BitVec 12) : Statement (.switch port rx seq) := fun _ _ h => nomatch h
theorem widthChangeTimeout (port : Fin 10) : Statement (.widthChangeTimeout port) := fun _ _ h => nomatch h
theorem laneBerWindow (port : Fin 10) (lane : LaneRead) (bits codewords symbols bad : Nat) : Statement (.laneBerWindow port lane bits codewords symbols bad) := fun _ _ h => nomatch h
theorem laneLockLost (port : Fin 10) (lane : Fin 16) : Statement (.laneLockLost port lane) := fun _ _ h => nomatch h
theorem tuneLost (port : Fin 10) (lane : Fin 16) : Statement (.tuneLost port lane) := fun _ _ h => nomatch h
theorem ucwPersist (port : Fin 10) (intervals : Nat) : Statement (.ucwPersist port intervals) := fun _ _ h => nomatch h
theorem retrain (p : Path) (port : Fin 10) : Statement (.retrain p port) := fun w _ h => Option.some.inj h ▸ w
theorem holdOff (p : Path) (port : Fin 10) (on : Bool) : Statement (.holdOff p port on) := fun w _ h => Option.some.inj h ▸ w
theorem maxWidthWrite (p : Path) (port : Fin 10) (code : Fin 4) : Statement (.maxWidthWrite p port code) := fun w _ h => Option.some.inj h ▸ w
theorem packetGrant (port : Fin 10) : Statement (.packetGrant port) := fun _ _ h => nomatch h
theorem put (src : PktSrc) : Statement (.put src) := fun _ _ h => nomatch h
theorem putScr (src : PktSrc) : Statement (.putScr src) := fun _ _ h => nomatch h
theorem getReq (src : PktSrc) : Statement (.getReq src) := fun _ _ h => nomatch h
theorem getRsp (src : PktSrc) : Statement (.getRsp src) := fun _ _ h => nomatch h
theorem getRspScr (src : PktSrc) : Statement (.getRspScr src) := fun _ _ h => nomatch h
theorem atom (src : PktSrc) : Statement (.atom src) := fun _ _ h => nomatch h
theorem atomAck (src : PktSrc) : Statement (.atomAck src) := fun _ _ h => nomatch h
theorem msg (src : PktSrc) : Statement (.msg src) := fun _ _ h => nomatch h
theorem hostMsg (src : PktSrc) (whole : Bool) : Statement (.hostMsg src whole) := fun _ _ h => nomatch h
theorem collData (src : PktSrc) : Statement (.collData src) := fun _ _ h => nomatch h
theorem collCnt (src : PktSrc) : Statement (.collCnt src) := fun _ _ h => nomatch h
theorem mgWr (src : PktSrc) : Statement (.mgWr src) := fun _ _ h => nomatch h
theorem mgRd (src : PktSrc) : Statement (.mgRd src) := fun _ _ h => nomatch h
theorem mgRsp (src : PktSrc) : Statement (.mgRsp src) := fun _ _ h => nomatch h
theorem histSample : Statement (.histSample) := fun _ _ h => nomatch h
theorem rtrBankArm (p : Path) (bank : Bool) : Statement (.rtrBankArm p bank) := fun w _ h => Option.some.inj h ▸ w
theorem rtrBankDisarm (p : Path) (bank : Bool) : Statement (.rtrBankDisarm p bank) := fun w _ h => Option.some.inj h ▸ w
theorem rtrDrainArm (p : Path) (w : W32) : Statement (.rtrDrainArm p w) := fun w _ h => Option.some.inj h ▸ w
theorem rtrFepArm (p : Path) (ep : Byte) : Statement (.rtrFepArm p ep) := fun w _ h => Option.some.inj h ▸ w
theorem rtrFepDisarm (p : Path) (ep : Byte) : Statement (.rtrFepDisarm p ep) := fun w _ h => Option.some.inj h ▸ w
theorem grpSlotWrite (p : Path) (stage : Fin 4) (slot : Fin 64) (word : Fin 4) (w : W32) : Statement (.grpSlotWrite p stage slot word w) := fun w _ h => Option.some.inj h ▸ w
theorem doorbell (p : Path) (q : BitVec 14) (w : W32) : Statement (.doorbell p q w) := fun w _ h => Option.some.inj h ▸ w
theorem doorbellVisible (q : BitVec 14) : Statement (.doorbellVisible q) := fun _ _ h => nomatch h
theorem abort (q : BitVec 14) : Statement (.abort q) := fun _ _ h => nomatch h
theorem hcopy (q : BitVec 14) (ans : HostAns) : Statement (.hcopy q ans) := fun _ _ h => nomatch h
theorem send (q : BitVec 14) (ans : HostAns) : Statement (.send q ans) := fun _ _ h => nomatch h
theorem nop (q : BitVec 14) : Statement (.nop q) := fun _ _ h => nomatch h
theorem completionPost (q : BitVec 14) : Statement (.completionPost q) := fun _ _ h => nomatch h
theorem mrqStageTimeout (q : BitVec 14) : Statement (.mrqStageTimeout q) := fun _ _ h => nomatch h
theorem mrqSlotsFree (q : BitVec 14) : Statement (.mrqSlotsFree q) := fun _ _ h => nomatch h
theorem queueReset (p : Path) (q : BitVec 14) : Statement (.queueReset p q) := fun w _ h => Option.some.inj h ▸ w
theorem queueEnable (p : Path) (q : BitVec 14) (w : W32) : Statement (.queueEnable p q w) := fun w _ h => Option.some.inj h ▸ w
theorem bind (p : Path) (c func : Byte) (part gen : Fin 16) : Statement (.bind p c func part gen) := fun w _ h => Option.some.inj h ▸ w
theorem teardown (p : Path) (c : Byte) : Statement (.teardown p c) := fun w _ h => Option.some.inj h ▸ w
theorem flr (func : Byte) : Statement (.flr func) := fun _ _ h => nomatch h
theorem teardownDrainEnd (c : Byte) : Statement (.teardownDrainEnd c) := fun _ _ h => nomatch h
theorem teardownDone (c : Byte) : Statement (.teardownDone c) := fun _ _ h => nomatch h
theorem hotReset : Statement (.hotReset) := fun _ _ h => nomatch h
theorem zeroGo (p : Path) : Statement (.zeroGo p) := fun w _ h => Option.some.inj h ▸ w
theorem zeroDone : Statement (.zeroDone) := fun _ _ h => nomatch h
theorem create (p : Path) (j : Fin 8) : Statement (.create p j) := fun w _ h => Option.some.inj h ▸ w
theorem lendActivate (j : Fin 8) : Statement (.lendActivate j) := fun _ _ h => nomatch h
theorem hdmCommit (j : Fin 8) (ways dpa size : Nat) : Statement (.hdmCommit j ways dpa size) := fun _ _ h => nomatch h
theorem release (p : Path) (j : Fin 8) (zero : Bool) : Statement (.release p j zero) := fun w _ h => Option.some.inj h ▸ w
theorem lendFree (j : Fin 8) : Statement (.lendFree j) := fun _ _ h => nomatch h
theorem cxlMemRead (dpa : Nat) : Statement (.cxlMemRead dpa) := fun _ _ h => nomatch h
theorem cxlMemWrite (dpa : Nat) (bytes : List Byte) : Statement (.cxlMemWrite dpa bytes) := fun _ _ h => nomatch h
theorem hostLinkTrained (speed : Fin 7) (width : Fin 17) (flit cxl : Bool) : Statement (.hostLinkTrained speed width flit cxl) := fun _ _ h => nomatch h
theorem resetNRelease (i : BootIn) : Statement (.resetNRelease i) := fun _ _ h => nomatch h
theorem resetNAssert : Statement (.resetNAssert) := fun _ _ h => nomatch h
theorem getMeasurements (index : Byte) (sign : Bool) (nonce : List Byte) : Statement (.getMeasurements index sign nonce) := fun _ _ h => nomatch h
theorem getMeasurementExtensionLog : Statement (.getMeasurementExtensionLog) := fun _ _ h => nomatch h
theorem getCertificate (slot : Fin 8) : Statement (.getCertificate slot) := fun _ _ h => nomatch h
theorem getDigests : Statement (.getDigests) := fun _ _ h => nomatch h
theorem challenge (nonce : List Byte) : Statement (.challenge nonce) := fun _ _ h => nomatch h
theorem keyExchange (nonce : List Byte) : Statement (.keyExchange nonce) := fun _ _ h => nomatch h
theorem ideKm (session : Nat) : Statement (.ideKm session) := fun _ _ h => nomatch h
theorem spdmRequest (supported : Bool) (endSession : Option Nat) : Statement (.spdmRequest supported endSession) := fun _ _ h => nomatch h
theorem pldmDiscovery : Statement (.pldmDiscovery) := fun _ _ h => nomatch h
theorem pldmSensorRead (id : Byte) : Statement (.pldmSensorRead id) := fun _ _ h => nomatch h
theorem pldmFwTransfer (off : Nat) (bytes : List Byte) : Statement (.pldmFwTransfer off bytes) := fun _ _ h => nomatch h
theorem pldmFwVerify : Statement (.pldmFwVerify) := fun _ _ h => nomatch h
theorem pldmFwActivate : Statement (.pldmFwActivate) := fun _ _ h => nomatch h
theorem debugOpen (p : Path) : Statement (.debugOpen p) := fun w _ h => Option.some.inj h ▸ w
theorem secMeasRead (p : Path) (slot : Fin 32) : Statement (.secMeasRead p slot) := fun w _ h => Option.some.inj h ▸ w
theorem pwrPstateWrite (p : Path) (w : W32) : Statement (.pwrPstateWrite p w) := fun w _ h => Option.some.inj h ▸ w
theorem pwrCapWrite (p : Path) (w : W32) : Statement (.pwrCapWrite p w) := fun w _ h => Option.some.inj h ▸ w
theorem pwrSuspectClear (p : Path) : Statement (.pwrSuspectClear p) := fun w _ h => Option.some.inj h ▸ w
theorem vrStatusPoll (rails : List (Fin 9 × VrRead)) (busErr : List (Fin 9)) : Statement (.vrStatusPoll rails busErr) := fun _ _ h => nomatch h
theorem avsUpdate : Statement (.avsUpdate) := fun _ _ h => nomatch h
theorem thermSample (sensors : List Int) (near ports : List Nat) (far : List (Fin 8)) : Statement (.thermSample sensors near ports far) := fun _ _ h => nomatch h
theorem thermDutyStep : Statement (.thermDutyStep) := fun _ _ h => nomatch h
theorem thermtrip : Statement (.thermtrip) := fun _ _ h => nomatch h
theorem pllUnlock (pll : Fin 14) (i : WarmIn) : Statement (.pllUnlock pll i) := fun _ _ h => nomatch h
theorem frefDrift (tenthPpm : Int) : Statement (.frefDrift tenthPpm) := fun _ _ h => nomatch h
theorem rstCore (p : Path) (n : Fin 108) : Statement (.rstCore p n) := fun w _ h => Option.some.inj h ▸ w
theorem rstBay (p : Path) (b : Fin 12) : Statement (.rstBay p b) := fun w _ h => Option.some.inj h ▸ w
theorem rstPort (p : Path) (port : Fin 10) : Statement (.rstPort p port) := fun w _ h => Option.some.inj h ▸ w
theorem rstRouter (p : Path) : Statement (.rstRouter p) := fun w _ h => Option.some.inj h ▸ w
theorem warm (p : Path) (i : WarmIn) : Statement (.warm p i) := fun w _ h => Option.some.inj h ▸ w
theorem domainResetDone : Statement (.domainResetDone) := fun _ _ h => nomatch h
theorem rstTimeout (i : WarmIn) : Statement (.rstTimeout i) := fun _ _ h => nomatch h
theorem vaonLoss : Statement (.vaonLoss) := fun _ _ h => nomatch h
theorem hangConsent (p : Path) : Statement (.hangConsent p) := fun w _ h => Option.some.inj h ▸ w
theorem coreHang (n : Fin 108) : Statement (.coreHang n) := fun _ _ h => nomatch h
theorem queueHang (q : BitVec 14) : Statement (.queueHang q) := fun _ _ h => nomatch h
theorem portHang (port : Fin 10) : Statement (.portHang port) := fun _ _ h => nomatch h
theorem cmpHang (i : WarmIn) : Statement (.cmpHang i) := fun _ _ h => nomatch h
theorem bayFence (p : Path) (b : Fin 12) (slot : Fin 9) : Statement (.bayFence p b slot) := fun w _ h => Option.some.inj h ▸ w
theorem baySwitch (p : Path) (b : Fin 12) : Statement (.baySwitch p b) := fun w _ h => Option.some.inj h ▸ w
theorem spareZeroDone (b : Fin 12) : Statement (.spareZeroDone b) := fun _ _ h => nomatch h
theorem retest (p : Path) (b : Fin 12) (slot : Fin 9) : Statement (.retest p b slot) := fun w _ h => Option.some.inj h ▸ w
theorem retestDone (b : Fin 12) (pass : Bool) : Statement (.retestDone b pass) := fun _ _ h => nomatch h
theorem shdwCtrlWrite (p : Path) (w : W32) : Statement (.shdwCtrlWrite p w) := fun w _ h => Option.some.inj h ▸ w
theorem ras (src : PktSrc) : Statement (.ras src) := fun _ _ h => nomatch h
theorem tele (src : PktSrc) : Statement (.tele src) := fun _ _ h => nomatch h
theorem heartbeat (src : PktSrc) : Statement (.heartbeat src) := fun _ _ h => nomatch h
theorem log (src : PktSrc) : Statement (.log src) := fun _ _ h => nomatch h
theorem commitGen (src : PktSrc) : Statement (.commitGen src) := fun _ _ h => nomatch h
theorem config (src : PktSrc) : Statement (.config src) := fun _ _ h => nomatch h
theorem configAck (src : PktSrc) : Statement (.configAck src) := fun _ _ h => nomatch h
theorem congest (src : PktSrc) : Statement (.congest src) := fun _ _ h => nomatch h
theorem congestPeriod : Statement (.congestPeriod) := fun _ _ h => nomatch h
theorem collect (src : PktSrc) : Statement (.collect src) := fun _ _ h => nomatch h
theorem collectRsp (src : PktSrc) : Statement (.collectRsp src) := fun _ _ h => nomatch h
theorem takeover : Statement (.takeover) := fun _ _ h => nomatch h
theorem capVerWrite (ms : W16) : Statement (.capVerWrite ms) := fun _ _ h => nomatch h
theorem linkExpEpochWrite (p : Path) (port : Fin 10) (ep : Byte) : Statement (.linkExpEpochWrite p port ep) := fun w _ h => Option.some.inj h ▸ w
theorem ctxScrWrite (p : Path) (c : Byte) (w : W32) : Statement (.ctxScrWrite p c w) := fun w _ h => Option.some.inj h ▸ w
theorem pmbAlertN (rails : List (Fin 9 × VrRead)) : Statement (.pmbAlertN rails) := fun _ _ h => nomatch h
theorem pcieUe : Statement (.pcieUe) := fun _ _ h => nomatch h
theorem hdmDecoderUncommit (j : Fin 8) : Statement (.hdmDecoderUncommit j) := fun _ _ h => nomatch h
theorem dmaFinished (l : Fin 96) (index : Nat) : Statement (.dmaFinished l index) := fun _ _ h => nomatch h
theorem windowAccessDone : Statement (.windowAccessDone) := fun _ _ h => nomatch h

end Sys2Proof.Laws.InRange
end

