-- ==== Sys2Proof/Tests/Slice0.lean ====
section
/-! SUPPORT. Tests: what the checks of well-formedness refuse; a few steps and numbers worked by hand from the spec; and, for every statement
with hypotheses, a state and operands that meet each of its clauses together. -/

namespace Sys2Proof.Tests

set_option Elab.async false

open Sys2Proof Sys2Proof.Machine

/-! ## States -/

/-- The device that runs, its registers as cold reset leaves them, with an effect on it. -/
def run (f : Hw → Hw) : State := ⟨[], f { Hw.reset with power := { Power.reset with inReset := false } }⟩

/-- A register holds a word. -/
def rg (k : Nat) (v : W32) (h : Hw) : Hw := h.onPg (Pages.wr k v)

/-- A page is enabled. -/
def en (pg : Nat) (h : Hw) : Hw := rg (Reg.PG_CTRL pg) 1 h

/-- A packet is held for this node. -/
def held (k : Packet) (h : Hw) : Hw := { en Pg.rtr h with rtr := { h.rtr with local_ := [(k, none)] } }

/-- A packet of an opcode from node 1, of context 0, of one packet's transfer. -/
def pk (opc vc addr tag : Nat) (bs : List Byte) : Packet :=
  { dst := 0, src := 1, ctx := 0, gen := 0, bank := 0, vc := vc, opc := opc, fep := 0, addr := addr, eot := true, sot := true, len := bs.length,
    beat := 0, pseq := 0, tag := tag, ext := 0, hcrc := 0, payload := bs, score := 0 }

/-- A launch of a mode that runs. -/
def lau (mode : Nat) : Launch :=
  { handle := 1, mode := mode, slip := false, group := 255, start := 0, entry := 0, cookie := 0, sq := 0, running := true, beats := 0, last := 0,
    cur := none, prev := none, hist := [], conf := 0, slips := 0, hold := 0, resumeAt := none, abortPend := [], abort := none, ended := false,
    finalConf := false, halted := false, exc := false, excVote := false, fenced := false, pool := 0 }

/-- Context 0 is bound to partition 0, whose one slot it holds. -/
def bound (h : Hw) : Hw := rg (Reg.HIF_SLOT 0) 0 (rg (Reg.CTX_STATE 0) 0x20000000 h)

/-- Context 0 runs a launch. -/
def launched (mode : Nat) (h : Hw) : Hw := (bound h).modCtx 0 fun x => { x with launch := some (lau mode) }

/-- Physical core 0 holds a block of context 0 and more. -/
def core (f : Core → Core) (h : Hw) : Hw :=
  (launched 0 h).modCore 0 fun c => f { c with owner := some 0, blk := some ⟨0, 0, 0, false, none, false⟩ }

/-- A packet that a command finds and whose context is good is accepted. -/
theorem accepted {test : Packet → Bool} {src : PktSrc} {k : Packet} {inp : Option Nat} {h : Hw} (a : (h.arrive test src).1 = some (k, inp))
    (b : ((h.arrive test src).2.ctxCheck k).1 = true) : h.accepts test src k ((h.arrive test src).2.ctxCheck k).2 :=
  ⟨inp, Prod.ext a rfl, Prod.ext b rfl⟩

/-- A good flit without fields. -/
def good : FlitRx := ⟨false, false, 0, false, none, none⟩

/-! ## Witnesses: one step, beats -/

theorem wit_StepIdles : State.reset.pending = [] := rfl

theorem wit_ExecKeepsQueue : exec .beatBoundary State.reset = .next State.reset := rfl

theorem wit_RefusesOnlyIllFormed : coreInsn? (.waitarr 95 none) = some (95, .waitarr none) ∧ (CoreInsn.waitarr none).wf = true ∧
    ∃ i, (CoreInsn.wf i) = false := ⟨rfl, by decide +kernel, .mmode ⟨.ws, .e8s, .e8s, .default, false, false⟩, by decide +kernel⟩

theorem wit_BeatEventsRun :
    (let s := run (en Pg.beat ∘ en Pg.pwr)
     s.hw.up = true ∧ s.hw.pg.works Pg.beat = true ∧ s.hw.pg.works Pg.pwr = true ∧ s.hw.chaiseDead = false ∧ s.hw.pg.bit Reg.PWR_CAP 31 = true) ∧
    (let s := run (rg (Reg.LINK_STAT 9) 0x60000000 ∘ rg Reg.BEAT_SERVO_CTRL 0x109 ∘ en (Pg.ope 9) ∘ en (Pg.link 9) ∘ en Pg.beat)
     s.hw.up = true ∧ good.bad = false ∧ s.hw.pg.looped 9 = false ∧ (s.hw.syncTaken 9 good 0).pg.works Pg.beat = true ∧
       (s.hw.syncTaken 9 good 0).pg.bit Reg.BEAT_SERVO_CTRL 8 = true ∧
       (s.hw.syncTaken 9 good 0).pg.get Reg.BEAT_SERVO_CTRL 3 0 = 9 ∧ (s.hw.syncTaken 9 good 0).pg.marks 9 = true ∧
       s.hw.pg.works (Pg.link 9) = true ∧ s.hw.pg.linkActive 9 = true ∧ s.hw.pg.works Pg.beat = true ∧
       s.hw.pg.get Reg.BEAT_SERVO_CTRL 3 0 ≠ 15 ∧ s.hw.pg.bit Reg.BEAT_SERVO_STAT 30 = false) ∧
    (let s := run (rg Reg.BEAT_SERVO_STAT 0x40080000 ∘ en Pg.beat)
     s.hw.up = true ∧ s.hw.pg.works Pg.beat = true ∧ s.hw.pg.bit Reg.BEAT_SERVO_STAT 30 = true ∧ 8 ≤ s.hw.pg.get Reg.BEAT_SERVO_STAT 23 16) := by
  decide +kernel

theorem wit_BeatRegisterWrites :
    (let s := run id
     s.hw.up = true ∧ s.hw.pg.unarmed Pg.beat = true ∧ s.hw.admits .mgmt Pg.beat 0x064 = true ∧ s.hw.anyLaunch = false ∧
       wbit (0x109#32) 8 = true ∧ s.hw.pg.bit Reg.BEAT_SERVO_CTRL 8 = false ∧ wbit (0x109#32) 31 = false ∧ fld (0x109#32) 3 0 ≠ 15) ∧
    (wbit (0#32) 8 = false ∧ wbit (0#32) 31 = false) ∧
    (let s := run (rg Reg.BEAT_SERVO_CTRL 0x100)
     s.hw.up = true ∧ s.hw.admits .mgmt Pg.beat 0x064 = true ∧ s.hw.pg.bit Reg.BEAT_SERVO_CTRL 8 = true) ∧
    (let s := run (rg Reg.BEAT_SET_AT_LO 16384)
     s.hw.up = true ∧ s.hw.admits .mgmt Pg.beat 0x0D0 = true ∧ s.hw.pg.bit Reg.BEAT_LEN_NEXT 31 = false ∧ s.hw.anyLaunch = false ∧
       (s.hw.pg.rd64 Reg.BEAT_SET_AT_LO).toNat % s.hw.pg.beatLen = 0 ∧ s.hw.pg.fbc.toNat + 2 * s.hw.pg.beatLen ≤ (s.hw.pg.rd64 Reg.BEAT_SET_AT_LO).toNat) ∧
    (∀ k : Fin 32, k = 10 ∨ k = 17 → let s := run (rg Reg.BEAT_LEN_AT_LO 0x20000)
     s.hw.up = true ∧ s.hw.admits .mgmt Pg.beat 0x054 = true ∧ s.hw.anyLaunch = false ∧ s.hw.pg.bit Reg.BEAT_SET_CTRL 31 = false ∧ 10 ≤ k.val ∧
       k.val ≤ 17 ∧ (s.hw.pg.rd64 Reg.BEAT_LEN_AT_LO).toNat % s.hw.pg.beatLen = 0 ∧ (s.hw.pg.rd64 Reg.BEAT_LEN_AT_LO).toNat % 2 ^ k.val = 0 ∧
       s.hw.pg.fbc.toNat + 2 * s.hw.pg.beatLen ≤ (s.hw.pg.rd64 Reg.BEAT_LEN_AT_LO).toNat) := by
  refine ⟨?_, ?_, ?_, ?_, ?_⟩ <;> decide +kernel

theorem wit_BeatCommands :
    let r : Round := ⟨0, 0, some (1, 0), [], [], false, false, false⟩
    let s := run fun h => (en Pg.beat h).modCtx 255 fun x => { x with rounds := [r], launch := some (lau 0) }
    s.hw.up = true ∧ s.hw.pg.works Pg.beat = true ∧ s.hw.pg.unarmed Pg.beat = true ∧ s.hw.admits .mgmt Pg.beat 0x0AC = true ∧
      (s.hw.ctx (255#8).toNat).rounds.find? (fun r => r.vote.isSome && !r.ended) = some r ∧ (s.hw.ctx (255#8).toNat).launch.any (fun l => l.running) = true := by
  decide +kernel

theorem wit_VotesAndResults :
    (let k := pk 0x18 0 0 0 (bytesLE 2 1 ++ bytesLE 2 0 ++ bytesLE 1 255)
     let s := run (held k ∘ bound ∘ en Pg.beat)
     s.hw.up = true ∧ ∃ t, t.pg.works Pg.beat = true ∧ s.hw.accepts (fun k => k.opc = 0x18) .here k t ∧ ∃ ax, t.pg.fromAxis k.src = some ax) ∧
    (let k := pk 0x19 0 0 0 [1, 0, 0, 0, 0, 255]
     let s := run (held k ∘ bound ∘ en Pg.beat)
     s.hw.up = true ∧ s.hw.pg.isDareder = false ∧ ∃ t, t.pg.works Pg.beat = true ∧ s.hw.accepts (fun k => k.opc = 0x19) .here k t) :=
  ⟨⟨by decide +kernel, _, by decide +kernel, accepted (inp := none) (by decide +kernel) (by decide +kernel), 0, by decide +kernel⟩,
    by decide +kernel, by decide +kernel, _, by decide +kernel, accepted (inp := none) (by decide +kernel) (by decide +kernel)⟩

theorem wit_JournalRegisters :
    (let s := run id
     s.hw.up = true ∧ s.hw.admits (.host 0) Pg.jrnl 0x040 = true ∧ s.hw.pg.bit Reg.JRNL_CTRL 1 = false) ∧
    (let s := run (rg Reg.JRNL_CTRL 1 ∘ rg Reg.JRNL_SIZE 16 ∘ rg Reg.JRNL_HEAD_LO 64)
     s.hw.up = true ∧ s.hw.admits (.host 0) Pg.jrnl 0x060 = true ∧ s.hw.pg.tailBad (0#64).toNat = false ∧ s.hw.pg.tailBad (64#64).toNat = false ∧
       s.hw.pg.tailBad (96#64).toNat = true) := by decide +kernel



/-! ## Witnesses: register space -/

theorem wit_AdmittedRegisterWrite :
    (let s := run id
     s.hw.up = true ∧ (0x60#26).toNat % 4 = 0 ∧ s.hw.pg.target (.host 0) (0x60#26).toNat = .page Pg.dev 0x060 ∧
       s.hw.admits (.host 0) Pg.dev 0x060 = true ∧ (regRow Pg.dev 0x060).isSome = true ∧ pageKind Pg.dev = .dev) ∧
    (let s := run id
     s.hw.up = true ∧ s.hw.pg.target .mgmt (0x1074#26).toNat = .page Pg.beat 0x074 ∧ s.hw.admits .mgmt Pg.beat 0x074 = true ∧
       (regRow Pg.beat 0x074).any (fun r => (s.hw.blockWrite WarmIn.good Pg.beat 0x074 r 512).1 && !(s.hw.blockWrite WarmIn.good Pg.beat 0x074 r 513).1) = true) := by
  decide +kernel

theorem wit_TurnedAwayWrites :
    (let s := run id
     s.hw.up = true ∧ s.hw.pg.target (.host 0) (0x10AC#26).toNat = .page Pg.beat 0x0AC ∧ (0x10AC#26).toNat % 4 = 0 ∧ s.hw.pg.inReset Pg.beat = false ∧
       homePage Pg.beat 0x0AC = Pg.beat ∧ (regRow Pg.beat 0x0AC).any (fun r => decide (r.who = .dareder)) = true ∧ Path.host 0 ≠ .mgmt) ∧
    (let s := run id
     s.hw.pg.target (.host 0) (0x519044#26).toNat = .page (Pg.link 9) 0x044 ∧ s.hw.pg.inReset (Pg.link 9) = false ∧ homePage (Pg.link 9) 0x044 = Pg.link 9 ∧
       (regRow (Pg.link 9) 0x044).any (fun r => (r.who.denies (.host 0)).isNone && decide (r.kind = .plain) && decide (r.wr = 0 ∧ r.c1 = 0 ∧ r.wo = 0)) = true) ∧
    (let s := run (rg (Reg.PG_CTRL Pg.therm) 5)
     s.hw.pg.target (.host 0) (0xE04044#26).toNat = .page Pg.therm 0x044 ∧ s.hw.pg.inReset Pg.therm = false ∧ homePage Pg.therm 0x044 = Pg.therm ∧
       (regRow Pg.therm 0x044).any (fun r => (r.who.denies (.host 0)).isNone && decide (r.kind = .locked) && decide (r.wr ≠ 0)) = true ∧
       s.hw.pg.bit (Reg.PG_CTRL Pg.therm) 2 = true) ∧
    ((false && decide ((0x60#26).toNat % 4 = 0) && decide (([] : List Byte).length % 4 = 0)) = false) := by
  decide +kernel

theorem wit_SpecialAccesses :
    (let s := run id
     s.hw.up = true ∧ s.hw.pg.target (.host 0) ((0x2000FFF#26).toNat / 4 * 4) = .hole ∧ s.hw.pg.inReset Pg.beat = false) ∧
    (let s := run id
     s.hw.pg.target .chaise ((0x519088#26).toNat / 4 * 4) = .page (Pg.link 9) 0x088 ∧ s.hw.pg.inReset (Pg.link 9) = false ∧
       homePage (Pg.link 9) 0x088 = Pg.link 9 ∧ (regRow (Pg.link 9) 0x088).any (fun r => decide (r.kind = .eventLo) && (r.who.denies .chaise).isNone) = true ∧
       s.hw.pg.target .chaise ((0x51908F#26).toNat / 4 * 4) = .page (Pg.link 9) 0x08C ∧ homePage (Pg.link 9) 0x08C = Pg.link 9 ∧
       (regRow (Pg.link 9) 0x08C).any (fun r => decide (r.kind = .eventHi) && (r.who.denies .chaise).isNone) = true) := by
  decide +kernel

theorem wit_PageHeaderCommands :
    (let s := run id
     s.hw.up = true ∧ hasHeader (Pg.link 9) = true ∧ s.hw.pg.inReset (Pg.link 9) = false ∧
       s.hw.pg.target (.host 0) (4096 * (0x519#14).toNat) = .page (Pg.link 9) 0 ∧ s.hw.pg.target (.host 0) (4096 * (0x519#14).toNat + 8) = .page (Pg.link 9) 8 ∧
       s.hw.pg.blockResetBad (Pg.link 9) = false ∧ s.hw.pg.target (.host 0) (4096 * (0x519#14).toNat + 0x18) = .page (Pg.link 9) 0x18) ∧
    (let s := run (rg (Reg.PG_STAT (Pg.link 9)) 0x80000000)
     s.hw.up = true ∧ s.hw.pg.inReset (Pg.link 9) = true ∧ s.hw.pg.targetPf (4096 * (0x519#14).toNat) = .page (Pg.link 9) 0) := by
  decide +kernel

theorem wit_PageStatusReads : hasHeader (Pg.link 9) = true := by decide +kernel

theorem wit_EventCountersWrap : 2 ^ 63 - 1 < 2 ^ 63 := by decide

/-! ## Witnesses: cores -/

theorem wit_QueuedInstructions :
    let i : CoreInsn := .mmode ⟨.ws, .f16w, .f16w, .default, false, false⟩
    let s := run (core id)
    s.hw.up = true ∧ coreInsn? (.mmode 0 ⟨.ws, .f16w, .f16w, .default, false, false⟩) = some (0, i) ∧ i.wf = true ∧ i.place < 4 ∧ s.hw.takes 0 0 i = true := by
  decide +kernel



/-- A core whose Gig runs a routine. -/
def gig (f : Core → Core) (h : Hw) : Hw :=
  en (Pg.gig 0) (rg (Reg.CTX_SCR 0) 0x8000 (core (fun c => f { c with grun := some ⟨⟨0, 1, [], none, true, 0⟩, 0, false, false, false⟩ }) h))

theorem wit_QueueHeadsRun :
    (let s := run (en (Pg.mxa 0) ∘ core fun c => { c with mxq := [(0, .mmode ⟨.ws, .f16w, .f16w, .default, false, false⟩)], ord := [0] })
     let v : CV := { pg := s.hw.pg, core := s.hw.core 0 }
     let ci := s.hw.ciOf 0 0
     v.core.failed = false ∧ v.core.mStop = false ∧ v.core.mWait = false ∧ v.mxaHalted ci = false ∧ v.core.mayStart 0 = true ∧ v.core.mxq.length = 1 ∧
       mxaHeld ci (.mmode ⟨.ws, .f16w, .f16w, .default, false, false⟩) v = false ∧
       (match mxaStart ci 0 (.mmode ⟨.ws, .f16w, .f16w, .default, false, false⟩) v with
        | .ran w => !w.core.mStop && decide (w.pg.get (Reg.MXA_STAT ci.n) 31 29 ≠ 3) | _ => false) = true) ∧
    (let s := run (en (Pg.tvu 0) ∘ core fun c => { c with tvq := [(0, .vseed ⟨false, 0⟩)], ord := [1] })
     let v : CV := { pg := s.hw.pg, core := s.hw.core 0 }
     let ci := s.hw.ciOf 0 0
     v.core.failed = false ∧ v.core.tStop = false ∧ v.core.tWait = false ∧ v.pg.bit (Reg.TVU_DBG_CTRL ci.n) 30 = false ∧ v.core.mayStart 1 = true ∧ v.core.tvq.length = 1 ∧
       (match tvuStart ci 0 (.vseed ⟨false, 0⟩) v with | .ran w => !w.core.tStop | _ => false) = true) ∧
    (let i : CoreInsn := .dcopy ⟨0, .own, .own, 0, 0, .imm 0, .imm 4096, .imm 64⟩
     let s := run (rg (Reg.CTX_SCR 0) 0x8000 ∘ core fun c => { c with held := [(0, i)], ord := [2] })
     let ci := s.hw.ciOf 0 0
     (s.hw.core ci.n).failed = false ∧ (s.hw.core ci.n).xStop = false ∧ (s.hw.core ci.n).exc = false ∧ (s.hw.core ci.n).spec = none ∧
       (s.hw.core ci.n).mayStart 2 = true ∧ (s.hw.core ci.n).held = [(0, i)] ∧ i.isLocalFence = false ∧ s.hw.dmaPar ci i = (false, s.hw) ∧
       (match s.hw.xgo ci 0 i with | .ok _ _ => true | _ => false) = true) := by
  refine ⟨?_, ?_, ?_⟩ <;> decide +kernel

theorem wit_ControlAtOnce :
    let s := run (core id)
    s.hw.up = true ∧ [CoreInsn.cset 15 false (.imm 1), .cset 15 true (.imm 1), .cset 0 true (.flg true), .cinc 15 (.imm 1), .ccmp 7 15 .eq (.imm 0), .loop 15 0, .br none 0,
      .br (some (7, true)) 0, .beat .fin].all (fun i => i.wf && s.hw.takes 0 0 i) = true := by decide +kernel

theorem wit_ControlThatHolds :
    (let s := run (core id)
     s.hw.up = true ∧ (s.hw.core (s.hw.pg.physOf 0)).spec = none ∧
       [CoreInsn.waitarr (some 0xFFFF), .wait 15 (.imm 1), .fence .fabric 0xFF, .signal false 15 (.imm 1), .signal true 15 (.imm 1),
         .gcall ⟨true, none, 255, []⟩].all (fun i => i.wf && s.hw.takes 0 0 i) = true ∧
       s.hw.takes 0 0 (.fence .local 0) = true ∧ (s.hw.core (s.hw.pg.physOf 0)).held = [] ∧ (s.hw.core (s.hw.pg.physOf 0)).gigCalls = 0 ∧
       (s.hw.core (s.hw.pg.physOf 0)).ord = []) ∧
    (let s := run (core fun c => { c with spec := some ⟨[], [], none, 0, 0, 0, 0, [], [], [], [], false⟩ })
     s.hw.up = true ∧ coreInsn? (.waitarr 0 none) = some (0, .waitarr none) ∧ (CoreInsn.waitarr none).wf = true ∧ (CoreInsn.waitarr none).place = 4 ∧
       (CoreInsn.waitarr none).isScalar = false ∧ (CoreInsn.waitarr none).isLocalFence = false ∧ (s.hw.core (s.hw.pg.physOf 0)).spec.isSome = true ∧
       s.hw.takes 0 0 (.waitarr none) = true) := by
  refine ⟨?_, ?_⟩ <;> decide +kernel

theorem wit_GigArithmetic :
    let s := run (gig id)
    s.hw.up = true ∧ s.hw.gigRuns 0 0 = true ∧ (GSrc.imm 1).val (s.hw.core 0) ≠ 0 ∧ (GSrc.imm 0).val (s.hw.core 0) = 0 := by decide +kernel

theorem wit_GigMemoryAndBranches :
    (let s := run (gig id)
     let ci := s.hw.ciOf 0 0
     let c := s.hw.core ci.n
     let m : GMem := ⟨0, .imm 0xFFF8, 3, false⟩
     let w : GMem := ⟨0, .imm 0x7FFFF8, 3, false⟩
     let r : GRun := ⟨⟨0, 1, [], none, true, 0⟩, 0, false, false, false⟩
     s.hw.up = true ∧ s.hw.gigRuns 0 0 = true ∧ m.illegal 31 false = false ∧ m.bad c 0 65536 = none ∧
       w.illegal 31 true = false ∧ w.bad c ci.winLo ci.winHi = none ∧ c.grun = some r ∧
       CV.gigHeld ci r w { pg := s.hw.pg, core := c } = false ∧ c.scrFlips = [] ∧ c.spec = none ∧ w.blk = false ∧
       (⟨0, .imm 0, 3, true⟩ : GMem).illegal 0 false = true ∧ (⟨0, .imm 0, 3, true⟩ : GMem).illegal 25 true = true ∧
       (⟨0, .imm 0, 3, true⟩ : GMem).illegal 24 true = false ∧
       (⟨0, .imm 0xFFF9, 3, false⟩ : GMem).illegal 31 false = false ∧ (⟨0, .imm 0xFFF9, 3, false⟩ : GMem).bad c 0 65536 = some 2 ∧
       (⟨0, .imm 1, 3, false⟩ : GMem).illegal 31 true = false ∧ (⟨0, .imm 1, 3, false⟩ : GMem).bad c ci.winLo ci.winHi = some 3) ∧
    (let w : GMem := ⟨0, .imm 0, 3, false⟩
     let r : GRun := ⟨⟨0, 1, [], none, true, 1⟩, 0, false, false, false⟩
     let s := run (gig fun c => { c with mxq := [(0, .mdrain ⟨false, .f32w, .imm 0, .imm 0, .imm 0⟩)], pass := some ⟨16, 16, 0⟩, grun := some r })
     let ci := s.hw.ciOf 0 0
     let c := s.hw.core ci.n
     s.hw.up = true ∧ s.hw.gigRuns 0 0 = true ∧ w.illegal 31 true = false ∧ w.bad c ci.winLo ci.winHi = none ∧ c.grun = some r ∧
       CV.gigHeld ci r w { pg := s.hw.pg, core := c } = true) := by
  refine ⟨?_, ?_⟩ <;> decide +kernel

theorem wit_GigCallsAndFifo :
    (let s := run (en (Pg.gig 0) ∘ core fun c => { c with gq := [⟨0, 1, [], none, true, 0⟩] })
     let c := s.hw.core (s.hw.ciOf 0 0).n
     s.hw.up = true ∧ s.hw.runsOn 0 0 = true ∧ c.failed = false ∧ c.gStop = false ∧ s.hw.pg.bit (Reg.GIG_DBG_CTRL (s.hw.ciOf 0 0).n) 30 = false ∧ c.grun = none ∧
       c.gq = [⟨0, 1, [], none, true, 0⟩] ∧ s.hw.pg.enabled (Pg.gig (s.hw.ciOf 0 0).n) = true) ∧
    (let s := run (gig fun c => { c with grun := some ⟨⟨0, 1, [], none, true, 0⟩, 0, true, true, false⟩ })
     let c := s.hw.core (s.hw.ciOf 0 0).n
     s.hw.up = true ∧ s.hw.runsOn 0 0 = true ∧ c.failed = false ∧ c.gStop = false ∧ s.hw.pg.bit (Reg.GIG_DBG_CTRL (s.hw.ciOf 0 0).n) 30 = false ∧
       c.grun = some ⟨⟨0, 1, [], none, true, 0⟩, 0, true, true, false⟩) ∧
    (let s := run (gig fun c => { c with grun := some ⟨⟨0, 1, [], none, true, 0⟩, 1, false, false, false⟩ })
     let c := s.hw.core (s.hw.ciOf 0 0).n
     s.hw.up = true ∧ s.hw.runsOn 0 0 = true ∧ c.failed = false ∧ c.gStop = false ∧ s.hw.pg.bit (Reg.GIG_DBG_CTRL (s.hw.ciOf 0 0).n) 30 = false ∧
       c.grun = some ⟨⟨0, 1, [], none, true, 0⟩, 1, false, false, false⟩ ∧ s.hw.pg.enabled (Pg.gig (s.hw.ciOf 0 0).n) = true ∧
       s.hw.pg.unarmed (Pg.gig (s.hw.ciOf 0 0).n) = true) ∧
    (let s := run (gig id)
     s.hw.up = true ∧ s.hw.gigRuns 0 0 = true ∧ (s.hw.core (s.hw.ciOf 0 0).n).grun.isSome = true ∧ popfOk 7 = false ∧ popfOk 24 = true ∧
       (s.hw.core (s.hw.ciOf 0 0).n).fifo = [] ∧ s.hw.admits (.host 0) (Pg.gig 0) 0x050 = true ∧ s.hw.pg.logOf 0 = some 0) ∧
    (let s := run (gig fun c => { c with fifo := [⟨1, 0, [[1]], false, 0⟩] })
     s.hw.up = true ∧ s.hw.gigRuns 0 0 = true ∧ (s.hw.core (s.hw.ciOf 0 0).n).fifo ≠ []) := by
  refine ⟨?_, ?_, ?_, ?_, ?_⟩ <;> decide +kernel

/-! ## Witnesses: the host's queues -/

/-- Queue 16383 is a submission queue of context 0 with one entry. -/
def sq (e : List Byte) (h : Hw) : Hw :=
  (rg (Reg.Q_TAIL 16383) 1 (rg (Reg.Q_CTRL 16383) 0x80040000 (rg (Reg.CTX_QRANGE 0) 0x3FFF0001 (en Pg.hif (bound h))))).onMem (Mem.hostWrite 0 0 e)

/-- The entry that it then holds. -/
def entry (e : List Byte) : SqEntry := ⟨16383, 0, e ++ List.replicate (64 - e.length) 0⟩

theorem wit_QueueEntries :
    (let e := bytesLE 1 7
     let s := run (sq e)
     s.hw.up = true ∧ s.hw.entryReady 16383 7 (entry e) = true) ∧
    (∀ f ∈ [bound, launched 0, fun h => (bound h).modCtx 0 fun x => { x with launch := some { lau 0 with abort := some (0, 0) } }],
      let e := bytesLE 1 4
      let s := run (sq e ∘ f)
      s.hw.up = true ∧ s.hw.pg.works Pg.hif = true ∧ s.hw.pg.qOwner 16383 = some 0 ∧ s.hw.abortAt 16383 = some 0 ∧ entry e = s.hw.sqRead 16383 0 0 ∧
        (entry e).clean = true) ∧
    (((run (sq (bytesLE 1 4) ∘ bound)).hw.startedAt 16383 0 (entry (bytesLE 1 4))).ctx 0).launch = none ∧
    (((run (sq (bytesLE 1 4) ∘ launched 0)).hw.startedAt 16383 0 (entry (bytesLE 1 4))).ctx 0).launch = some (lau 0) ∧ (lau 0).abort = none ∧
    (((run (sq (bytesLE 1 4) ∘ fun h => (bound h).modCtx 0 fun x => { x with launch := some { lau 0 with abort := some (0, 0) } })).hw.startedAt 16383 0
      (entry (bytesLE 1 4))).ctx 0).launch.any (·.abort.isSome) = true ∧
    (let e := bytesLE 1 6 ++ List.replicate 19 0 ++ bytesLE 2 4096
     let s := run (sq e)
     s.hw.up = true ∧ s.hw.entryReady 16383 6 (entry e) = true ∧ (entry e).f 20 2 ≤ 4096) := by
  refine ⟨?_, ?_, ?_, ?_, ?_, ?_, ?_⟩ <;> decide +kernel



/-- CVA 0 of context 0 is mapped, for writes too, to the start of the near tier. -/
def mapped (h : Hw) : Hw :=
  (rg (Reg.XL_ROOT 0) 0x10001 (rg Reg.CAP_NT_TOP_LO 0x40000000 (en Pg.memxl h))).onMem fun m => ((m.setBytes 0x10000 (bytesLE 8 0x11001)).setBytes 0x11000
    (bytesLE 8 7))

/-- An answer that is no error. -/
def isOk {ε α : Type} : Except ε α → Bool
  | .ok _ => true
  | .error _ => false

/-- An HCOPY entry: its direction, 4 bytes at host address 64 and CVA 0. -/
def hcopy (dir : Nat) : List Byte := [5, BitVec.ofNat 8 dir] ++ List.replicate 6 0 ++ bytesLE 8 64 ++ bytesLE 8 0 ++ bytesLE 8 4

theorem wit_QueueEntries_hcopy :
    (∀ dir : Fin 2, let s := run (sq (hcopy dir.val) ∘ mapped)
     let e := entry (hcopy dir.val)
     let g := s.hw.entryStarted 16383 e
     let x := g.dev.translate .host 0xFF e.ctx (e.f 16 8) (e.f 24 8) (decide (dir.val = 0))
     s.hw.up = true ∧ s.hw.entryReady 16383 5 e = true ∧ e.f 24 8 ≠ 0 ∧ e.f 24 8 < 2 ^ 32 ∧ e.f 1 1 % 2 = dir.val ∧ isOk x.1 = true ∧
       (Pages.hostRx 4 x.2.pg).jIgnores 0 = false ∧ (x.2.readSegs .host (x.2.pg.ctxId 0) [(0, 4)]).1.isSome = true) ∧
    (∀ dir : Fin 2, let s := run (sq (hcopy dir.val))
     let e := entry (hcopy dir.val)
     s.hw.up = true ∧ s.hw.entryReady 16383 5 e = true ∧
       isOk ((s.hw.entryStarted 16383 e).dev.translate .host 0xFF e.ctx (e.f 16 8) (e.f 24 8) (decide (e.f 1 1 % 2 = 0))).1 = false) := by
  refine ⟨?_, ?_⟩ <;> decide +kernel

/-- A message that waits. -/
def msgOf (n : Nat) : Staged := ⟨1, 0, 0, 0, List.replicate n 0, 0⟩

/-- Queue 16383 of context 0 is a queue of a kind, with slots of 256 B, and holds more. -/
def qOf (kind : Nat) (f : Queue → Queue) (h : Hw) : Hw :=
  (rg (Reg.Q_CTRL 16383) (BitVec.ofNat 32 (0x80040800 + kind * 2 ^ 28)) (rg (Reg.CTX_QRANGE 0) 0x3FFF0001 (en Pg.hif (bound h)))).modQueue 16383 f

theorem wit_QueueEvents :
    (let s := run (qOf 0 fun x => { x with pend := [1] })
     s.hw.up = true ∧ s.hw.pg.works Pg.hif = true ∧ s.hw.pg.seesBell (.host 0) 16383 = true ∧
       (s.hw.pg.qOwner 16383).any s.hw.pg.jIgnores = false ∧ (s.hw.pg.qOwner 16383).any s.hw.dbSync = false ∧ (s.hw.queue 16383).pend = [1]) ∧
    (let s := run (qOf 1 fun x => { x with waiting := [List.replicate 32 0] })
     s.hw.up = true ∧ s.hw.pg.works Pg.hif = true ∧ (s.hw.queue 16383).waiting = [List.replicate 32 0] ∧ s.hw.pg.qIs 16383 1 = true ∧
       s.hw.pg.ringFree 16383 ≠ 0) ∧
    (let s := run (qOf 2 fun x => { x with staged := [msgOf 64] })
     s.hw.up = true ∧ s.hw.pg.works Pg.hif = true ∧ s.hw.pg.qOwner 16383 = some 0 ∧ s.hw.pg.ctxSt 0 = 1 ∧ (s.hw.queue 16383).staged = [msgOf 64] ∧ (s.hw.queue 16383).writing = none ∧ s.hw.pg.qIs 16383 2 = true) ∧
    (let s := run (qOf 2 fun x => { x with staged := [msgOf 1] })
     s.hw.pg.qOwner 16383 = some 0 ∧ s.hw.pg.ctxSt 0 = 1 ∧ (s.hw.queue 16383).staged = [msgOf 1] ∧ s.hw.pg.qIs 16383 2 = true ∧
       s.hw.mrqReady 16383 (msgOf 1) = true ∧ s.hw.pg.unarmed Pg.hif = true ∧ (s.hw.queue 16383).writing = none) ∧
    (let s := run (qOf 2 fun x => { x with writing := some (msgOf 1) })
     s.hw.pg.qOwner 16383 = some 0 ∧ s.hw.pg.ctxSt 0 = 1 ∧ (s.hw.queue 16383).writing = some (msgOf 1) ∧ s.hw.pg.qIs 16383 2 = true) := by
  refine ⟨?_, ?_, ?_, ?_, ?_⟩ <;> decide +kernel

theorem wit_QueueControl :
    (∀ q : Fin 3, let k := if q.val = 0 then 0 else if q.val = 1 then 16383 else 64
     let s := run (en Pg.hif ∘ rg (Reg.Q_CTRL k) 0x10000000)
     s.hw.up = true ∧ s.hw.admits (.host 0) (0x0900 + k / 64) (k % 64 * 64) = true ∧ s.hw.pg.bit (Reg.Q_CTRL k) 31 = false ∧
       s.hw.pg.get (Reg.Q_CTRL k) 29 28 ≠ 2) ∧
    (let s := run (qOf 2 id)
     s.hw.admits (.host 0) (0x0900 + 16383 / 64) (16383 % 64 * 64) = true ∧ s.hw.pg.get (Reg.Q_CTRL 16383) 29 28 = 2) ∧
    (∀ w : W32, w = 0x30040000 ∨ w = 0x30100000 → let s := run (rg (Reg.Q_CTRL 16383) 0 ∘ qOf 1 id)
     wbit w 30 = false ∧ s.hw.pg.bit (Reg.Q_CTRL 16383) 31 = false ∧ s.hw.pg.qEnableOk 16383 (setBit w 31 true) = true) := by
  refine ⟨by decide +kernel, by decide +kernel, ?_⟩
  rintro w (rfl | rfl) <;> decide +kernel



/-- A module of one stream with one block, in which nothing runs. -/
def emptyMod : Module :=
  ⟨[], [], 0, [], 0, 0, [⟨1, [⟨1000, [], []⟩]⟩], [], [], [], [], 0⟩

/-- Context 0 holds it under handle 1, in a device that is READY. -/
def loaded (h : Hw) : Hw := rg Reg.DEV_STATE 2 (h.modCtx 0 fun x => { x with handles := [(1, 7)], cache := [(7, emptyMod)] })

theorem wit_ModulesAndLaunch :
    ((run (sq [1])).hw.up = true ∧ (run (sq [1])).hw.entryReady 16383 1 (entry [1]) = true) ∧
    (let r : LoadReq := ⟨0, 0, 16383, 0, 0, 0, 0, 0, some [], 0, 0, 0, true⟩
     let s := run fun h => { h with hif := { h.hif with loads := [r] } }
     s.hw.hif.loads = [r] ∧ r.begun = true ∧ r.image = some [] ∧ r.err = 0 ∧ r.capGen = s.hw.pg.rd Reg.CAP_GEN) ∧
    (let s := run (loaded ∘ sq [3, 0, 1])
     let e := entry [3, 0, 1]
     let g := s.hw.entryStarted 16383 e
     s.hw.entryReady 16383 3 e = true ∧ (g.ctx e.ctx).handles.find? (fun x => x.1 = e.f 2 1) = some (1, 7) ∧
       (g.ctx e.ctx).launch.any (fun l => l.handle = e.f 2 1) = false) ∧
    (let b := [2, 0, 1, 0xFF]
     let s := run (loaded ∘ sq b)
     let e := entry b
     let g := s.hw.entryStarted 16383 e
     s.hw.entryReady 16383 2 e = true ∧ (g.ctx e.ctx).modOf (e.f 2 1) = some emptyMod ∧
       g.launchPre e 0 (g.pg.bit Reg.BEAT_OVR_CTRL 0) = none ∧ max (e.f 1 1 % 4) emptyMod.minMode = 0 ∧ e.f 24 2 = 0 ∧ patchCode emptyMod [] = none ∧
       e.f 8 6 = 0 ∧ e.f 3 1 = 0xFF) ∧
    (let b := [2, 0, 1, 0xFF, 0, 0, 0, 0, 4]
     let s := run (loaded ∘ sq b)
     let e := entry b
     s.hw.entryReady 16383 2 e = true ∧ (s.hw.entryStarted 16383 e).pg.beatNum.toNat + 4 = e.f 8 6) := by
  refine ⟨?_, ?_, ?_, ?_, ?_⟩ <;> decide +kernel

theorem wit_UnitEvents :
    (let t : Tile := ⟨.f16w, 0, [], []⟩
     let s := run (core fun c => { c with loading := some t })
     s.hw.up = true ∧ s.hw.pg.logOf 0 = some 0 ∧ s.hw.coreCtx 0 = some 0 ∧ (s.hw.core 0).owner = some 0 ∧ s.hw.pg.physOf 0 = 0 ∧
       (s.hw.core 0).loading = some t) ∧
    (∀ u : Fin 3, ∀ n : Fin 108, n.val = 0 ∨ n.val = 107 → let s := run (rg Reg.SEC_STAT 0x02000000)
     s.hw.admits .mgmt (unitPage u.val n.val) 0x080 = true ∧ s.hw.pg.dbgAvail = true) ∧
    (run (core id)).hw.coreCtx 95 = some 0 ∧
    (let c : Coll := ⟨.callr, 0, 0, 0, 0, 0, 0, .sum, .f32w, false, 0, 0, [0], 0, [⟨3, 2, 1⟩], [0], 0, [], [], [], [], [], 0, [], [], false, none, []⟩
     let s := run fun h => { h with colls := [c] }
     s.hw.colls[0]? = some c ∧ c.finished = true ∧ ∀ r ∈ c.axes, s.hw.pg.unarmed (Pg.stg r.ax) = true) ∧
    (let r : UReq := ⟨0, 0, 0, 0, 0, 0, 0, 7, .default, false, 0, 0, [], [], [], 0, [], 0, 0, [31], [], false⟩
     let s := run (en (Pg.suu 7) ∘ fun h => { h with suu := { h.suu with reqs := [r], slots := [(31 * 8 + 7, some ⟨[], [], 0, 0⟩)] } })
     let qs := s.hw.suu.mine 31 r
     s.hw.up = true ∧ s.hw.pg.works (Pg.suu (31 / 4)) = true ∧ (Hw.suuGroups 31 ⟨[], [], 0, 0⟩ r (r.groups s.hw.pg qs) s.hw).1 = [] ∧
       (s.hw.suu.queued 31).find? (fun r => !((s.hw.ctx r.ctx).launch.any fun l => l.exc)) = some r ∧
       tget (fun _ => none) s.hw.suu.slots (31 * 8 + r.slot) = some ⟨[], [], 0, 0⟩) ∧
    (let r : UReq := ⟨0, 0, 0, 0, 0, 0, 0, 7, .default, false, 0, 0, [], [], [], 0, [], 0, 0, [], [], false⟩
     let s := run fun h => { h with suu := { h.suu with reqs := [r] } }
     s.hw.suu.reqs.find? (fun r => r.left.isEmpty) = some r ∧ r.poisoned = false) ∧
    ((run id).hw.up = true ∧ (run id).hw.admits (.host 0) (Pg.suu 0) 0x048 = true ∧
      (((List.range 8).filter fun n => fld (0xFFFFFFF0#32) (4 * n + 3) (4 * n) ≠ (run id).hw.pg.slotPart n).any fun n =>
        (run id).hw.partLaunch ((run id).hw.pg.slotPart n) || (run id).hw.partLaunch (fld (0xFFFFFFF0#32) (4 * n + 3) (4 * n))) = false) := by
  refine ⟨?_, ?_, ?_, ?_, ?_, ?_, ?_⟩ <;> decide +kernel

theorem wit_MemoryCommands :
    (∀ u : Fin 16, let pg := if u.val < 8 then Pg.ntc u.val else Pg.ftc (u.val - 8)
     let s := run (rg (Reg.NT_SCRUB_CTRL u.val) 1 ∘ rg (Reg.FT_SCRUB_CTRL (u.val - 8)) 1 ∘ en pg)
     s.hw.up = true ∧ s.hw.pg.works pg = true ∧ (u.val < 8 → s.hw.pg.bit (Reg.NT_SCRUB_CTRL u.val) 0 = true) ∧
       (8 ≤ u.val → s.hw.pg.bit (Reg.FT_SCRUB_CTRL (u.val - 8)) 0 = true)) ∧
    (let e : WcbEntry := ⟨0, [], none, []⟩
     let s := run (en Pg.wcb ∘ fun h => h.onMem fun m => { m with wcb := [e] })
     s.hw.pg.works Pg.wcb = true ∧ s.hw.dev.wcbStack 0 = [e]) ∧
    (let s := run id
     s.hw.admits .mgmt Pg.wcb 0x044 = true ∧ s.hw.admits .mgmt Pg.memxl 0x048 = true ∧ s.hw.pg.bit Reg.XL_INVAL_STAT 0 = false ∧
       s.hw.admits .mgmt Pg.memxl 0x070 = true ∧ s.hw.pg.bit Reg.XL_WIN_STAT 0 = false ∧ s.hw.invalWaits = false) ∧
    (run fun h => h.onMem fun m => { m with win := some 6 }).hw.dev.mem.win = some 6 := by
  refine ⟨?_, ?_, ?_, ?_⟩ <;> decide +kernel



/-! ## Witnesses: links, packets, registers of the fabric -/

/-- Port k works, its link is in a state of LINK_STAT and holds more. -/
def port (k st : Nat) (f : Link → Link) (h : Hw) : Hw :=
  let h1 := rg (Reg.LINK_STAT k) (BitVec.ofNat 32 (st * 2 ^ 28)) (en (Pg.ope k) (en (Pg.link k) h))
  { h1 with links := tset (fun _ => Link.reset) h1.links k (f (h1.link k)) }

/-- The partner's ID: every lane of it is good, or none. -/
def partner (good : W16) : IdFlit := ⟨true, false, false, 0, 1, 0, 0, 0, good, 5, 0, 0, 0, 0⟩

theorem wit_LinkTraining :
    (∀ k : Fin 10, ∀ st : Fin 6, let s := run (port k.val st.val id)
     s.hw.up = true ∧ s.hw.pg.portWorks k.val = true ∧ s.hw.pg.get (Reg.LINK_STAT k.val) 31 28 = st.val ∧ (s.hw.link k.val).waiting = false ∧
       s.hw.pg.bit (Reg.LINK_CTRL k.val) 30 = false ∧ (s.hw.link k.val).replied = false ∧ s.hw.pg.looped k.val = false) ∧
    (good.bad = false ∧ good.rsvdType = false ∧ ({ good with bad := true } : FlitRx).bad = true ∧ (partner 0).reply = false ∧
      ({ partner 0 with reply := true } : IdFlit).reply = true) ∧
    (∀ g : W16, g = 0 ∨ g = 0xFFFF → let s := run (port 0 5 fun l => { l with good := 0xFFFF, peer := some (partner g), replied := true })
     (s.hw.link 0).peer = some (partner g) ∧ (s.hw.link 0).replied = true ∧ s.hw.pg.unarmed (Pg.link 0) = true ∧
       s.hw.up = true ∧ s.hw.pg.portWorks 0 = true ∧ s.hw.pg.get (Reg.LINK_STAT 0) 31 28 = 5 ∧
       laneSet ((s.hw.link 0).good &&& (partner g).good) (LV.limit 0 ⟨s.hw.pg, s.hw.link 0⟩) =
         (if g = 0 then none else some 0xFFFF) ∧
       LV.quarCause 0 (partner g) ⟨s.hw.pg, s.hw.link 0⟩ = 0 ∧ (s.hw.link 0).discard = true) ∧
    ((run (port 0 5 fun l => { l with waiting := true })).hw.link 0).waiting = true ∧
    (∀ st : Fin 8, 1 ≤ st.val → let s := run (rg (Reg.OPE_STAT 9) 0x40000000 ∘ port 9 st.val id)
     s.hw.pg.bit (Reg.OPE_STAT 9) 30 = true ∧ s.hw.pg.get (Reg.LINK_STAT 9) 31 28 = st.val ∧ s.hw.pg.portWorks 9 = true) := by
  refine ⟨by decide +kernel, by decide +kernel, ?_, by decide +kernel, by decide +kernel⟩
  rintro g (rfl | rfl) <;> decide +kernel

theorem wit_FlitsAtLinks :
    (∀ k : Fin 10, k.val = 0 ∨ k.val = 9 → let s := run (port k.val 6 id)
     let v0 : LV := ⟨s.hw.pg, s.hw.link k.val⟩
     let f : Flit := ⟨0, none, 0, true, true, []⟩
     s.hw.up = true ∧ s.hw.pg.portWorks k.val = true ∧ s.hw.pg.linkActive k.val = true ∧ s.hw.pg.looped k.val = false ∧ s.hw.pg.unarmed (Pg.link k.val) = true ∧ good.bad = false ∧
       good.rsvdType = false ∧ ({ good with bad := true } : FlitRx).bad = true ∧ (v0.rxHead k.val good).st k.val = 6 ∧ f.seq < 4096 ∧
       f.seq = (v0.rxHead k.val good).lk.rxSeq ∧ ((v0.rxHead k.val good).lk.reorder.any fun x => x.seq = f.seq) = false) ∧
    (∀ n : Fin 4, let s := run (port 9 6 fun l => { l with timeouts := n.val, txSeq := 1, replay := [(⟨0, none, 0, true, true, []⟩, 0)] })
     s.hw.up = true ∧ s.hw.pg.portWorks 9 = true ∧ s.hw.pg.linkActive 9 = true ∧ (s.hw.link 9).outstanding ≠ 0 ∧ (s.hw.link 9).timeouts = n.val) ∧
    (let s := run (rg (Reg.OPE_CTRL 9) 0x01000000 ∘ port 9 6 id)
     s.hw.up = true ∧ s.hw.pg.portWorks 9 = true ∧ s.hw.pg.linkActive 9 = true ∧ s.hw.pg.looped 9 = true) := by
  refine ⟨?_, ?_, ?_⟩ <;> decide +kernel

theorem wit_LanesAndPorts :
    (let s := run (port 9 7 id)
     s.hw.up = true ∧ s.hw.pg.portWorks 9 = true ∧ s.hw.pg.get (Reg.LINK_STAT 9) 31 28 = 7) ∧
    (let s := run (port 9 6 fun l => { l with req := some true })
     s.hw.pg.portWorks 9 = true ∧ s.hw.pg.get (Reg.LINK_STAT 9) 31 28 = 6 ∧ (s.hw.link 9).req = some true) ∧
    (let s := run (rg (Reg.OPE_THRESH 0) 0x00020001 ∘ rg (Reg.LINK_CTRL 0) 1 ∘ port 0 6 id)
     s.hw.pg.portWorks 0 = true ∧ s.hw.pg.get (Reg.OPE_THRESH 0) 15 0 < min (8 / 4) 65535 ∧ min (8 / 4) 65535 ≤ s.hw.pg.get (Reg.OPE_THRESH 0) 31 16 ∧
       s.hw.pg.get (Reg.LINK_STAT 0) 31 28 = 6 ∧ s.hw.pg.get (Reg.LINK_CTRL 0) 7 0 = 1) ∧
    (∀ k : Fin 10, let s := run id
     s.hw.admits (.host 0) (Pg.link k.val) 0x040 = true ∧ s.hw.admits .mgmt (Pg.ope k.val) 0x040 = true ∧ s.hw.admits .mgmt (Pg.link k.val) 0x058 = true ∧
       s.hw.pg.bit (Reg.LINK_CTRL k.val) 30 = false ∧ wbit (s.hw.pg.rd (Reg.LINK_CTRL k.val)) 31 = false ∧ s.hw.pg.get (Reg.OPE_CTRL k.val) 17 16 = 0) := by
  refine ⟨?_, ?_, ?_, ?_⟩ <;> decide +kernel



/-- A collective of context 0 of two nodes. -/
def coll (kind : CollKind) : Coll :=
  ⟨kind, 0, 0, 0, 0, 0, 0, .sum, .f32w, false, 4, 0, [0], 0, [⟨3, 2, 1⟩], [1, 0], 1, [], [], [], [], [], 0, [⟨0, 1, none, 0, 0, false, 0, false⟩], [], false, none, []⟩

/-- What the device is once the packet held for this node has been taken. -/
def got (test : Packet → Bool) (k : Packet) (s : State) : Hw := ((s.hw.arrive test .here).2.ctxCheck k).2

theorem wit_ArrivingPackets_taken : ∀ n : Fin 18, n.val ∈ [1, 2, 4, 5, 7, 0x10, 0x11] → let k := pk n.val 0 0 0 []
    let s := run (held k ∘ bound)
    s.hw.up = true ∧ s.hw.accepts (fun k => k.opc = n.val) .here k (got (fun k => k.opc = n.val) k s) := by
  intro n h
  have a : ∀ n : Fin 18, (((run (held (pk n.val 0 0 0 []) ∘ bound)).hw.arrive (fun k => k.opc = n.val) .here).1 = some (pk n.val 0 0 0 [], none)) := by
    decide +kernel
  have b : ∀ n : Fin 18, (((run (held (pk n.val 0 0 0 []) ∘ bound)).hw.arrive (fun k => k.opc = n.val) .here).2.ctxCheck (pk n.val 0 0 0 [])).1 = true := by
    decide +kernel
  exact ⟨by revert n; decide +kernel, accepted (a n) (b n)⟩

theorem wit_ArrivingPackets_ack :
    let k := pk 0x07 0 0 0 []
    let s := run (held k ∘ bound ∘ fun h => h.modCtx 0 fun x => { x with unacked := [(5, 1)] })
    ((got (fun k => k.opc = 0x07) k s).ctx k.ctx).unacked.find? (fun u => u.2 = k.src) = some (5, 1) := by decide +kernel

theorem wit_ArrivingPackets_getReq :
    (let k := pk 0x03 0 0 0 (List.replicate 8 0 ++ bytesLE 4 4)
     let s := run (held k ∘ bound ∘ mapped)
     let t := got (fun k => k.opc = 0x03) k s
     let x := t.dev.translate .remote (t.pg.lowBay k.ctx) k.ctx k.addr (leAt k.payload 8 4) false
     s.hw.up = true ∧ s.hw.accepts (fun k => k.opc = 0x03) .here k t ∧ leAt k.payload 7 1 / 2 % 2 = 0 ∧ isOk x.1 = true ∧
       (x.2.readSegs .remote (some (k.ctx, k.gen)) [(0, 4)]).1.isSome = true) ∧
    (let k := pk 0x03 0 0 0 (List.replicate 6 0 ++ [5, 2] ++ bytesLE 4 4)
     let s := run (held k ∘ rg (Reg.CTX_SCR 0) 0x8000 ∘ bound)
     let t := got (fun k => k.opc = 0x03) k s
     s.hw.up = true ∧ s.hw.accepts (fun k => k.opc = 0x03) .here k t ∧ leAt k.payload 7 1 / 2 % 2 = 1 ∧
       t.pg.scrTarget k.ctx (leAt k.payload 6 1 % 128) k.addr (leAt k.payload 8 4) = some 5) :=
  ⟨⟨by decide +kernel, accepted (inp := none) (by decide +kernel) (by decide +kernel), by decide +kernel, by decide +kernel, by decide +kernel⟩,
    by decide +kernel, accepted (inp := none) (by decide +kernel) (by decide +kernel), by decide +kernel, by decide +kernel⟩

theorem wit_ArrivingPackets_atom :
    (let k := pk 0x06 0 0 6 (List.replicate 8 1)
     let s := run (held k ∘ bound ∘ mapped)
     let t := got (fun k => k.opc = 0x06) k s
     s.hw.up = true ∧ s.hw.accepts (fun k => k.opc = 0x06) .here k t ∧ k.tag % 16 ≤ 6 ∧ t.mode k.ctx = 0 ∧
       (t.atomApply k.ctx (k.tag % 16) k.addr (BitVec.ofNat 64 (ofBytesLE k.payload))).1 = true) ∧
    (let k := pk 0x06 0 0 0 (List.replicate 8 1)
     let s := run (held k ∘ launched 2 ∘ mapped)
     let t := got (fun k => k.opc = 0x06) k s
     s.hw.up = true ∧ s.hw.accepts (fun k => k.opc = 0x06) .here k t ∧ k.tag % 16 ≤ 6 ∧ t.mode k.ctx ≠ 0 ∧ (t.ctx k.ctx).held.length < 4096 ∧
       isOk (t.dev.translate .dma (t.pg.lowBay k.ctx) k.ctx k.addr (aopSize (k.tag % 16)) true).1 = true) :=
  ⟨⟨by decide +kernel, accepted (inp := none) (by decide +kernel) (by decide +kernel), by decide +kernel, by decide +kernel, by decide +kernel⟩,
    by decide +kernel, accepted (inp := none) (by decide +kernel) (by decide +kernel), by decide +kernel, by decide +kernel, by decide +kernel, by decide +kernel⟩

theorem wit_ArrivingPackets_msg :
    (let k := { pk 0x08 0 95 0 [] with src := 0 }
     let s := run (held k ∘ bound)
     let t := got (fun k => k.opc = 0x08 && k.addr / 512 % 2 = 0) k s
     s.hw.accepts (fun k => k.opc = 0x08 && k.addr / 512 % 2 = 0) .here k t ∧ t.pg.coreAt k.ctx (k.addr % 128) = some 95 ∧ t.reach 95 = true ∧
       t.pg.jIgnores k.ctx = false ∧ t.pg.inInstance (((t.ctx k.ctx).launch.map (·.group)).getD 0xFF) k.src = true) ∧
    (let k := { pk 0x08 0 (16383 * 1024 + 512) 0 [] with src := 0 }
     let s := run (held k ∘ qOf 2 id)
     let t := got (fun k => k.opc = 0x08 && k.addr / 512 % 2 = 1) k s
     let q := k.addr / 1024 % 16384
     s.hw.accepts (fun k => k.opc = 0x08 && k.addr / 512 % 2 = 1) .here k t ∧ t.pg.qIs q 2 = true ∧ t.pg.qOwner q = some k.ctx ∧
       t.pg.ctxSt k.ctx = 1 ∧ t.pg.jIgnores k.ctx = false ∧
       t.pg.inInstance (((t.ctx k.ctx).launch.map (·.group)).getD 0xFF) k.src = true ∧ (t.queue q).staged = [] ∧ t.mrqReady q (msgOf 0) = true) :=
  ⟨⟨accepted (inp := none) (by decide +kernel) (by decide +kernel), by decide +kernel⟩,
    accepted (inp := none) (by decide +kernel) (by decide +kernel), by decide +kernel⟩

theorem wit_ArrivingPackets_coll :
    (let k := pk 0x10 0 0 0 []
     let s := run (held k ∘ bound ∘ fun h => { h with colls := [coll .callr] })
     (got (fun k => k.opc = 0x10) k s).findColl k = some (0, coll .callr)) ∧
    (let k := pk 0x11 0 0 0 (bytesLE 4 4)
     let s := run (held k ∘ bound ∘ fun h => { h with colls := [coll .ca2av] })
     let co := coll .ca2av
     (got (fun k => k.opc = 0x11) k s).findColl k = some (0, co) ∧ co.nodes.findIdx? (· = k.src) = some 0 ∧
       (co.counts.all fun x => x.1 ≠ 0) = true ∧ k.tag % 65536 = co.ctag ∧ ofBytesLE k.payload = co.count ∧ co.cores = [0]) := by
  refine ⟨?_, ?_⟩ <;> decide +kernel

theorem wit_ManagementPackets : ∀ n : Fin 3, let k := pk (0x20 + n.val) 7 regBase 0 [0, 0, 0, 0]
    let s := run (held k)
    s.hw.up = true ∧ s.hw.acceptsMg (fun k => k.opc = 0x20 + n.val) .here k (s.hw.arrive (fun k => k.opc = 0x20 + n.val) .here).2 := by
  intro n
  have a : ∀ n : Fin 3, ((run (held (pk (0x20 + n.val) 7 regBase 0 [0, 0, 0, 0]))).hw.arrive (fun k => k.opc = 0x20 + n.val) .here).1 =
      some (pk (0x20 + n.val) 7 regBase 0 [0, 0, 0, 0], none) := by decide +kernel
  exact ⟨by revert n; decide +kernel, none, Prod.ext (a n) rfl⟩

theorem wit_RouterCommands :
    (let x : Held := ⟨pk 0x01 0 0 0 [], 9, none, 0⟩
     let s := run (port 9 6 id ∘ en Pg.rtr ∘ fun h => { h with rtr := { h.rtr with held := [x] } })
     s.hw.up = true ∧ s.hw.pg.works Pg.rtr = true ∧ s.hw.pg.portWorks 9 = true ∧
       (s.hw.rtr.grantOrder 9).find? (fun x => LV.canSend 9 x.pkt.vc (flitsOf x.pkt.payload.length) x.pkt.conf ⟨s.hw.pg, s.hw.link 9⟩) = some x) ∧
    (let s := run (rg Reg.RTR_HIST_CTRL 0x80000000 ∘ en Pg.rtr)
     s.hw.pg.works Pg.rtr = true ∧ s.hw.pg.bit Reg.RTR_HIST_CTRL 31 = true) ∧
    (let s := run (rg Reg.RTR_BANK_AT_LO 2 ∘ rg Reg.RTR_FEP_AT_LO 2)
     s.hw.admits .mgmt Pg.rtr 0x044 = true ∧ s.hw.pg.beatNum.toNat + 2 = (s.hw.pg.rd64 Reg.RTR_BANK_AT_LO).toNat ∧
       s.hw.admits .mgmt Pg.rtr 0x060 = true ∧ s.hw.pg.beatNum.toNat + 2 = (s.hw.pg.rd64 Reg.RTR_FEP_AT_LO).toNat ∧
       s.hw.admits .mgmt Pg.rtr 0x050 = true ∧ s.hw.pg.get (inflightReg 1) 15 0 = 0 ∧ s.hw.pg.get Reg.RTR_BANK 0 0 ≠ 1) ∧
    (∀ j : Fin 64, j.val = 0 ∨ j.val = 63 → ∀ i : Fin 4, let s := run id
     let off := 0x400 + 16 * j.val + 4 * i.val
     let h1 := s.hw.onPg (Pages.upd (regKey (Pg.stg 0) off) fun o => mixed (Pg.stg 0) off o 0)
     s.hw.admits .mgmt (Pg.stg 0) off = true ∧ s.hw.slotUsed j.val = false ∧ (h1.pg.bit (Reg.GRP_CFG j.val) 31 && h1.pg.grpBad j.val) = false) := by
  refine ⟨?_, ?_, ?_, ?_⟩ <;> decide +kernel



/-! ## Witnesses: contexts, the host, the Chaise, power, resets, spares, the pod -/

theorem wit_ContextLife :
    (∀ c : Byte, c = 1 ∨ c = 255 → let s := run id
     s.hw.up = true ∧ s.hw.admits (.host 0) Pg.hif 0x044 = true ∧ s.hw.bindBad c.toNat 255 0 15 = false) ∧
    (let s := run (rg (Reg.SRIOV_CTX 63) 0xFFFFFF01 ∘ rg (Reg.CTX_STATE 255) 0x20000000 ∘ rg (Reg.CTX_STATE 1) 0x20000000)
     s.hw.up = true ∧ s.hw.admits (.host 0) Pg.hif 0x044 = true ∧ s.hw.pg.ctxSt 255 = 1 ∧ s.hw.pg.anyTearing = false ∧ s.hw.pg.funcCtx 252 = 1 ∧ s.hw.pg.ctxSt 1 = 1) ∧
    (∀ n : Fin 4, (let s := run fun h => h.modCtx 255 fun x => { x with tear := n.val }
     s.hw.up = true ∧ (s.hw.ctx 255).tear = n.val)) ∧
    (∀ n : W32, n = 0 ∨ n = 16 → let s := run (rg Reg.CAP_NT_TOP_LO 0x100000 ∘ rg Reg.HIF_ZERO_LEN n)
     let a := (s.hw.pg.rd64 Reg.HIF_ZERO_ADDR_LO).toNat
     s.hw.up = true ∧ s.hw.admits (.host 0) Pg.hif 0x05C = true ∧ s.hw.pg.bit Reg.HIF_ZERO_STAT 31 = false ∧ a % 65536 = 0 ∧
       (n = 16 → s.hw.pg.rangeRegion a ((s.hw.pg.rd Reg.HIF_ZERO_LEN).toNat * 65536) = .near)) ∧
    (let s := run fun h => { h with hif := { h.hif with zero := some (0, 65536) } }
     s.hw.up = true ∧ s.hw.hif.zero = some (0, 65536)) ∧
    (let s := run (rg (Reg.CTX_SCR 1) 0x8040 ∘ rg (Reg.CTX_STATE 1) 0x20000000)
     s.hw.up = true ∧ s.hw.admits (.host 0) (Pg.ctx 0) 0x048 = true ∧ s.hw.launched 0 = false ∧ fld (0x4000#32) 7 0 < fld (0x4000#32) 15 8 ∧ s.hw.pg.ctxSt 0 ≠ 0 ∧
       (s.hw.pg.partMates 0).all (fun x => decide (fld (0x4000#32) 15 8 ≤ s.hw.pg.get (Reg.CTX_SCR x) 7 0) ||
         decide (s.hw.pg.get (Reg.CTX_SCR x) 15 8 ≤ fld (0x4000#32) 7 0)) = true) := by
  refine ⟨?_, ?_, ?_, ?_, ?_, ?_⟩
  · rintro c (rfl | rfl) <;> decide +kernel
  · decide +kernel
  · decide +kernel
  · rintro n (rfl | rfl) <;> decide +kernel
  · decide +kernel
  · decide +kernel

theorem wit_LendingAndHostLink :
    (∀ j : Fin 8, let s := run (rg Reg.CAP_FT_USE_LO 0x10000000 ∘ rg (Reg.LEND_SIZE j.val) 1)
     let r := s.hw.pg.lendRange j.val
     s.hw.up = true ∧ s.hw.admits (.host 0) Pg.hif (0x708 + 16 * j.val) = true ∧ s.hw.pg.lendSt j.val = 0 ∧ r.2 ≠ 0 ∧ s.hw.pg.rangeRegion r.1 r.2 = .far ∧ ftBase ≤ r.1 ∧
       (List.range 8).all (fun k => k = j.val || s.hw.pg.lendSt k = 0) = true) ∧
    (∀ n : Fin 4, let s := run (rg Reg.CAP_FT_USE_LO 0x10000000 ∘ rg (Reg.LEND_STAT 7) (BitVec.ofNat 32 n.val))
     s.hw.up = true ∧ s.hw.admits (.host 0) Pg.hif (0x708 + 16 * 7) = true ∧ s.hw.pg.lendSt 7 = n.val ∧ s.hw.pg.bit (Reg.LEND_STAT 7) 8 = false ∧
       ftBase ≤ (s.hw.pg.lendRange 7).1) ∧
    (let s := run (rg Reg.HIF_LINK 2 ∘ rg (Reg.LEND_SIZE 0) 1 ∘ rg (Reg.LEND_STAT 0) 0x102)
     s.hw.up = true ∧ s.hw.pg.bit Reg.HIF_LINK 1 = true ∧ s.hw.pg.committed (0x0FFFFFFF / 64 * 64) 64 = true ∧
       (s.hw.dev.tierRead .host none (ftBase + 0x0FFFFFFF / 64 * 64) 64).1.isSome = true ∧
       s.hw.pg.committed 0x0FFFFFFF (([1, 2] : List Byte).take (64 - 0x0FFFFFFF % 64)).length = true) ∧
    ((run id).hw.up = true ∧ (run id).hw.pg.bit Reg.DEV_STRAP 6 = false ∧ (run id).hw.pg.unarmed Pg.hif = true) := by
  refine ⟨?_, ?_, ?_, ?_⟩ <;> decide +kernel

theorem wit_BootCommands :
    State.reset.hw.power.inReset = true ∧
    (∀ e : Bool, let s := run (rg Reg.DEV_STATE 0x701 ∘ rg Reg.HANG_STAT (if e then 0x80000000 else 0))
     s.hw.up = true ∧ s.hw.pg.get Reg.DEV_STATE 15 8 = 7 ∧ s.hw.pg.devState = 1 ∧ s.hw.power.escalate = false) ∧
    (let s := run (rg Reg.FUSE_POLICY 0 ∘ rg Reg.DEV_STATE 2)
     s.hw.up = true ∧ s.hw.admits (.host 0) Pg.sec 0x048 = true ∧ s.hw.fusePolicy.1 = false ∧ s.hw.fusePolicy.2.2.pg.devState = 2 ∧
       s.hw.fusePolicy.2.2.pg.bit Reg.SEC_STAT 25 = false ∧ s.hw.fusePolicy.2.2.anyLaunch = false) := by
  refine ⟨?_, ?_, ?_⟩ <;> decide +kernel

/-- The extension firmware runs. -/
def ext (h : Hw) : Hw := rg Reg.CMP_STAT 0x60000000 h

theorem wit_SpdmRequests :
    (let s := run (ext ∘ rg Reg.DEV_STATE 2)
     s.hw.power.inReset = false ∧ s.hw.extUp = true ∧ s.hw.pg.devState ≠ 1 ∧ (s.hw.sign ([] ++ (s.hw.chaise.blocks 1).flatMap (·.2))).1.isSome = true ∧
       (s.hw.sign []).1.isSome = true ∧ s.hw.chaise.sessions = []) ∧
    (let s := run (ext ∘ rg Reg.DEV_STATE 1)
     s.hw.power.inReset = false ∧ s.hw.extUp = true ∧ s.hw.pg.devState = 1) ∧
    (let s := run (ext ∘ rg Reg.DEV_STATE 2 ∘ fun h => { h with chaise := { h.chaise with sessions := [2, 1, 0] } })
     s.hw.power.inReset = false ∧ s.hw.extUp = true ∧ s.hw.chaise.sessions.length < 4 ∧ (s.hw.sign []).1.isSome = true ∧ 2 ∈ s.hw.chaise.sessions) := by
  refine ⟨?_, ?_, ?_⟩ <;> decide +kernel

theorem wit_PldmCommands :
    (∀ b : Bool, let s := run (rg Reg.CMP_STAT (if b then 0x60000000 else 0x80000000))
     s.hw.power.inReset = false ∧ s.hw.pldmUp = true ∧ s.hw.extUp = b) ∧
    0xBFF000 % 4096 = 0 ∧ (List.replicate 4096 (0 : Byte)).length = 4096 ∧ 0xBFF000 + 4096 = 0xC00000 ∧
    (let s := run (ext ∘ fun h => { h with chaise := { h.chaise with update := some ⟨1, true⟩ } })
     s.hw.power.inReset = false ∧ s.hw.pldmUp = true ∧ s.hw.chaise.update = some ⟨1, true⟩) ∧
    ((run ext).hw.power.inReset = false ∧ (run ext).hw.extUp = true ∧ ∀ i : Fin 23, ((run ext).hw.pg.pldmSensor (i.val + 1)).isSome = true) := by
  refine ⟨by decide +kernel, by decide, by rw [List.length_replicate], by decide, by decide +kernel, by decide +kernel⟩

theorem wit_PowerAndClocks :
    (let s := run (en Pg.pwr ∘ en Pg.therm ∘ en Pg.clk)
     s.hw.up = true ∧ s.hw.admits (.host 0) Pg.pwr 0x040 = true ∧ s.hw.admits (.host 0) Pg.pwr 0x048 = true ∧ s.hw.admits (.host 0) Pg.pwr 0x070 = true ∧
       s.hw.anyExact = false ∧ s.hw.power.inReset = false ∧ s.hw.chaiseDead = false ∧ s.hw.pg.works Pg.pwr = true ∧ s.hw.pg.works Pg.therm = true ∧
       s.hw.pg.works Pg.clk = true ∧ s.hw.pg.unarmed Pg.clk = true) ∧
    (∀ k : Fin 14, k.val = 1 ∨ k.val = 12 → let s := run (rg Reg.DEV_STATE 2 ∘ en Pg.clk)
     let h := s.hw.onPg fun p => ((p.raise Pg.clk 0 k.val none).setb Reg.CLK_STAT k.val false).sat Reg.CLK_LOCKLOSS_CNT 1
     s.hw.up = true ∧ s.hw.pg.works Pg.clk = true ∧ h.chaiseDead = false ∧ h.pg.devState ≠ 1) := by
  refine ⟨?_, ?_⟩ <;> decide +kernel

theorem wit_ResetsAndHangs :
    (let s := run (rg (Reg.HIF_SLOT 0) 0xFFFFFFFF ∘ rg Reg.DEV_STATE 2 ∘ en Pg.rst)
     s.hw.up = true ∧ s.hw.admits .mgmt Pg.rst 0x040 = true ∧ s.hw.pg.works Pg.rst = true ∧ (∀ n : Fin 10, s.hw.rstBad 3 n.val = false) ∧ s.hw.rstBad 4 0 = false ∧
       s.hw.rstBad 5 0 = false) ∧
    (∀ b : Fin 12, b.val = 0 ∨ b.val = 11 → (run (en Pg.rst)).hw.rstBad 1 (9 * b.val + 8) = false ∧ (run (en Pg.rst)).hw.rstBad 2 b.val = false) ∧
    (let s := run fun h => { h with power := { h.power with doms := [(3, 0)] } }
     s.hw.up = true ∧ s.hw.power.doms = [(3, 0)] ∧ s.hw.power.escalate = false ∧ s.hw.pg.unarmed Pg.rst = true) ∧
    (∀ b : Bool, let s := run (rg Reg.HANG_CTRL (if b then 0xF0F else 0xF) ∘ rg (Reg.BEAT_PART_STAT 0) 0x20000000 ∘ rg Reg.DEV_STATE 2 ∘ en Pg.hang ∘ ext ∘ port 9 6 id ∘ sq [] ∘
       fun h => { launched 0 h with rtr := { h.rtr with held := [⟨pk 1 0 0 0 [], 9, none, 0⟩] } })
     s.hw.up = true ∧ s.hw.coreWatched 0 = true ∧ s.hw.queueWatched 16383 = true ∧ s.hw.pg.qOwner 16383 = some 0 ∧ s.hw.portWatched 9 = true ∧ s.hw.cmpWatched = true ∧
       s.hw.pg.hangAct 1 = b ∧ s.hw.pg.hangAct 4 = b) ∧
    (let s := run (rg Reg.HANG_STAT 0x80000000)
     s.hw.up = true ∧ s.hw.admits .mgmt Pg.hang 0x04C = true ∧ s.hw.pg.bit Reg.HANG_STAT 31 = true) := by
  refine ⟨?_, ?_, ?_, ?_, ?_⟩ <;> decide +kernel

theorem wit_SparesAndShadow :
    (∀ b : Fin 12, let s := run id
     s.hw.up = true ∧ s.hw.admits .mgmt (Pg.bay b.val) 0x04C = true ∧ (s.hw.bay b.val).retest = none) ∧
    (let s := run fun h => h.onPg fun p => (p.setCoreSt 99 2).setCoreSt 107 1
     s.hw.up = true ∧ s.hw.pg.mayswitch 11 = true ∧ s.hw.pg.lostSlot 11 = some 0 ∧ s.hw.pg.spareOf 11 = some 8 ∧ s.hw.pg.bit (Reg.BAY_STAT 11) 31 = false ∧
       (s.hw.bay 11).zeroing = none) ∧
    (let s := run fun h => h.onPg fun p => p.setCoreSt 107 3
     s.hw.up = true ∧ s.hw.pg.coreSt (9 * 11 + 8) = 3 ∧ (s.hw.bay 11).retest = none) ∧
    (let s := run fun h => h.modBay 11 fun _ => ⟨some 8, some 8⟩
     s.hw.up = true ∧ (s.hw.bay 11).zeroing = some 8 ∧ (s.hw.bay 11).retest = some 8 ∧ s.hw.pg.unarmed (Pg.bay 11) = true) ∧
    (∀ w : W32, w = 0x00080000 ∨ w = 0x40090000 → let s := run (port 8 6 id ∘ port 9 6 id)
     s.hw.up = true ∧ s.hw.admits .mgmt (Pg.bay 0) 0x100 = true ∧ s.hw.anyLaunch = false ∧ (fld w 19 16 = 8 ∨ fld w 19 16 = 9) ∧
       s.hw.pg.linkActive (fld w 19 16) = true) := by
  refine ⟨?_, ?_, ?_, ?_, ?_⟩
  · decide +kernel
  · decide +kernel
  · decide +kernel
  · decide +kernel
  · rintro w (rfl | rfl) <;> decide +kernel



/-- A device that can be in the pod: its Chaise runs, and it is a Dareder or a worker. -/
def podDev (dareder active : Bool) (h : Hw) : Hw :=
  rg Reg.DEV_STRAP (if dareder then 1 else 0) (ext { h with pod := { h.pod with active := active } })

/-- A management message of a KIND. -/
def mg (kind : Nat) (body : List Byte) : Packet :=
  { pk 0x23 7 0 0 (bytesLE 1 kind ++ bytesLE 1 0 ++ bytesLE 2 body.length ++ bytesLE 4 2 ++ bytesLE 8 1 ++ body) with src := 1 }

/-- The device once the message held for this node has been taken. -/
def gotMg (kind : Nat) (s : State) : Hw := (s.hw.arrive (mgTest kind) .here).2

/-- The message is taken, by a device of the role that the clause names. -/
def podTakes (kind : Nat) (dareder active : Bool) (k : Packet) (s : State) : Bool :=
  let t := gotMg kind s
  s.hw.up && t.extUp && decide ((s.hw.arrive (mgTest kind) .here).1 = some (k, none)) && decide (leAt k.payload 0 1 = kind) &&
    t.pg.isDareder == dareder && t.pod.active == active

/-- A message that is held is taken. -/
theorem takesMg {kind : Nat} {dareder active : Bool} {k : Packet} {s : State} (h : podTakes kind dareder active k s = true) :
    s.hw.acceptsMg (mgTest kind) .here k (gotMg kind s) := by
  simp only [podTakes, Bool.and_eq_true, decide_eq_true_eq] at h
  exact ⟨none, Prod.ext h.1.1.1.2 rfl⟩

theorem wit_PodMessages_active :
    (∀ x ∈ [(1, [0, 0]), (1, [0, 0x50]), (1, [0, 0x70]), (1, [0, 0x60]), (2, [0, 0, 0, 5]), (2, [0, 0, 0, 8]), (2, [0, 8, 9, 7]), (7, [0]), (8, []), (10, [])],
      let k := mg x.1 (x.2.map (BitVec.ofNat 8))
      let s := run (held k ∘ podDev true true)
      let t := gotMg x.1 s
      podTakes x.1 true true k s = true ∧ t.pod.config = none ∧ (k.src, leAt k.mgBody 2 1) ∉ t.pod.down) ∧
    (let k := mg 7 [5]
     let s := run (held k ∘ podDev true true ∘ fun h => { h with pod := { h.pod with config := some (5, [1]) } })
     podTakes 7 true true k s = true ∧ (gotMg 7 s).pod.config = some (5, [k.src]) ∧ leAt k.payload 1 1 = 0 ∧ leAt k.mgBody 0 1 = 5) := by
  refine ⟨?_, ?_⟩ <;> decide +kernel

theorem wit_PodMessages_standby :
    (∀ a : Bool, let k := mg 3 (bytesLE 8 1)
     podTakes 3 true a k (run (held k ∘ podDev true a)) = true) ∧
    (let k := mg 4 [0]
     podTakes 4 true false k (run (held k ∘ podDev true false)) = true) ∧
    (let k := mg 5 []
     let s := run (held k ∘ podDev true false ∘ fun h => { h with pod := { h.pod with logs := [(1, [0])] } })
     let t := gotMg 5 s
     podTakes 5 true false k s = true ∧ t.pod.gen < k.mgSeq ∧ (t.pod.logs.filter fun l => l.1 = k.mgSeq) ≠ []) ∧
    (let s := run (podDev true false ∘ fun h => { h with pod := { h.pod with missed := 2 } })
     s.hw.up = true ∧ s.hw.pg.isDareder = true ∧ s.hw.pod.active = false ∧ s.hw.extUp = true ∧ 2 ≤ s.hw.pod.missed) := by
  refine ⟨?_, ?_, ?_, ?_⟩ <;> decide +kernel

theorem wit_PodMessages_worker :
    (let k := mg 6 (bytesLE 16 1 ++ bytesLE 8 0x3000000 ++ bytesLE 6 0)
     let s := run (held k ∘ podDev false true)
     let t := gotMg 6 s
     podTakes 6 false true k s = true ∧ t.pg.cfgMoves (cfgOf k.mgBody) = true ∧ t.anyLaunch = false ∧
       t.pg.fbc.toNat + 2 * t.pg.beatLen ≤ (cfgOf k.mgBody).atFbc ∧ (cfgOf k.mgBody).atFbc % t.pg.beatLen = 0 ∧ t.pg.bit Reg.BEAT_LEN_NEXT 31 = false) ∧
    (let k := mg 9 []
     podTakes 9 false true k (run (held k ∘ podDev false true)) = true) ∧
    (let s := run (podDev false true)
     s.hw.up = true ∧ s.hw.pg.isDareder = false ∧ s.hw.extUp = true) := by
  refine ⟨?_, ?_, ?_⟩ <;> decide +kernel

/-! ## Witnesses: the other statements -/

theorem wit_HeldStep : State.reset.hw.held = true ∧ (∀ i : BootIn, State.reset.pending.head? ≠ some (.resetNRelease i)) ∧
    step State.reset = .next State.reset :=
  ⟨by decide +kernel, by intro i; simp [State.reset], rfl⟩

theorem wit_TripStep : let s : State := ⟨[.beatBoundary], { (run id).hw with power := { (run id).hw.power with tripped := true } }⟩
    s.pending = [.beatBoundary] ∧ isPin .beatBoundary = false ∧ s.hw.frozen = true ∧ ∃ t, step s = .next t :=
  ⟨rfl, rfl, by decide +kernel, _, rfl⟩

/-- The largest header. -/
def big : Packet :=
  { dst := 2 ^ 16 - 1, src := 2 ^ 16 - 1, ctx := 255, gen := 15, bank := 1, vc := 7, opc := 255, fep := 255, addr := 2 ^ 48 - 1, eot := true, sot := true,
    len := 2 ^ 13 - 1, beat := 7, pseq := 63, tag := 2 ^ 23 - 1, ext := BitVec.allOnes 64, hcrc := BitVec.allOnes 32, payload := [1],
    score := Config.packetCore (2 ^ 32 - 1) % 128 }

theorem wit_PacketRoundTrip :
    (big.dst < 2 ^ 16 ∧ big.src < 2 ^ 16 ∧ big.ctx < 2 ^ 8 ∧ big.gen < 16 ∧ big.bank < 2 ∧ big.vc < 8 ∧ big.opc < 2 ^ 8 ∧ big.fep < 2 ^ 8) ∧
    (big.addr < 2 ^ 48 ∧ big.len < 2 ^ 13 ∧ big.beat < 8 ∧ big.pseq < 64 ∧ big.tag < 2 ^ 23) ∧
    big.score = Config.packetCore big.hcrc.toNat % 128 :=
  ⟨by decide +kernel, by decide +kernel, rfl⟩

theorem wit_FlitsCarryPacket : let v : LV := ⟨Pages.reset, Link.reset⟩
    v.pg.get (Reg.LINK_STAT 9) 27 26 = 0 ∧ v.lk.replay = [] := ⟨by decide +kernel, rfl⟩

theorem wit_FlitLayout : 15 < 16 ∧ 7 < 8 ∧ 4095 < 4096 ∧ (List.replicate 240 (0 : Byte)).length ≤ 240 := by
  rw [List.length_replicate]; decide

theorem wit_TransferPieces : (0 < 1 ∧ 63 < 64) ∧ 4096 ≤ 4096 := by decide

theorem wit_AtomicsOrderFree : let a (node seq : Nat) : HeldAtom := ⟨node, 0, seq, 0, 0, 1⟩
    ([a 0 0, a 1 1].map (·.seq)).Pairwise (· < ·) ∧ ([a 1 0, a 0 1].map (·.seq)).Pairwise (· < ·) ∧
    ∀ n k : Nat, (([a 0 0, a 1 1].filter fun x => x.node = n ∧ x.core = k).map fun x => (x.aop, x.cva, x.val)) =
      (([a 1 0, a 0 1].filter fun x => x.node = n ∧ x.core = k).map fun x => (x.aop, x.cva, x.val)) := by
  refine ⟨by decide, by decide, fun n k => ?_⟩
  by_cases h : n = 0 <;> by_cases g : n = 1 <;> by_cases f : k = 0 <;> simp_all [eq_comm]

theorem wit_ConversionToE8s : 2 ^ 0 ≤ 1 ∧ 1 < 2 ^ (0 + 1) ∧ 2 ^ 3 ≤ 15 ∧ 15 < 2 ^ (3 + 1) ∧ 255 < 256 := by decide

theorem wit_MemoryBytes : Mem.reset.wf = true ∧ (0 + 4 ≤ 4 ∨ 4 + 1 ≤ 0) := by decide +kernel

theorem wit_ReadsWithoutEffect :
    (∀ r, regRow (homePage Pg.dev 0x040) 0x040 = some r → r.kind ≠ .eventLo ∧ r.kind ≠ .timeLo) ∧ pageKind (homePage Pg.fuse 0x044) = .fuse ∧
      (run id).hw.pg.unarmed Pg.fuse = true := by
  refine ⟨?_, by decide +kernel, by decide +kernel⟩
  have e : (regRow (homePage Pg.dev 0x040) 0x040).all (fun r => decide (r.kind ≠ .eventLo ∧ r.kind ≠ .timeLo)) = true := by decide +kernel
  intro r h
  rw [h] at e
  simpa using e

theorem wit_VfSeesOwnContext :
    (let g := (run (rg (Reg.SRIOV_CTX 0) 0xFFFF05FF ∘ rg (Reg.CTX_QRANGE 5) 0x3FFF0001)).hw.pg
     g.target (.host 1) 0xFFC = .page (Pg.ctx 5) 0xFFC ∧ g.funcCtx 1 = 5) ∧
    ((run id).hw.up = true ∧ (run id).hw.pg.mgOut = [] ∧ (run id).hw.pg.funcCtx 255 = 0xFF ∧ (0x3FFFFFC#26).toNat % 4 = 0) := by
  refine ⟨?_, ?_⟩ <;> decide +kernel

theorem wit_LinkFrame : linkPort? (.trainingStart 9) = some 9 ∧ ∃ t, exec (.trainingStart 9) (run (port 9 0 id)) = .next t := ⟨rfl, _, rfl⟩

theorem wit_TierWriteFrame : let d : Dev := ⟨Pages.reset, Mem.reset⟩
    (∀ e ∈ d.mem.wcb, e.line ≠ 4095 / 64) ∧ (4095 < 4096 ∨ 4096 + 1 ≤ 4095) ∧ (List.replicate 64 (0 : Byte)).length = 64 := by decide +kernel

theorem wit_TierWriteFrame_line : ∀ n : Fin 2, let line := n.val * (ftBase / 64)
    let d : Dev := (run (en (Pg.ntc 0) ∘ en (Pg.ftc 0) ∘ en Pg.wcb)).hw.dev
    d.tierOff .dma line = false ∧ (d.stackDead none line).1 = false := by decide +kernel

theorem wit_PlainWriteFrame : ∀ x ∈ [(Pg.dev, 0x054), (Pg.therm, 0x044), (Pg.ras, 0x074), (Pg.tele, 0x04C), (Pg.ntc 7, 0x048), (Pg.ftc 7, 0x048), (Pg.bcu 11, 0x044)],
    let a : BitVec 26 := BitVec.ofNat 26 (4096 * x.1 + x.2)
    let s := run id
    s.hw.up = true ∧ s.hw.pg.mgOut = [] ∧ a.toNat % 4 = 0 ∧ s.hw.pg.target .mgmt a.toNat = .page x.1 x.2 ∧ s.hw.admits .mgmt x.1 x.2 = true ∧
      (regRow x.1 x.2).isSome = true ∧ pageKind x.1 ∈ [PageKind.dev, .scr, .ntc, .ftc, .bcu, .clk, .therm, .ras, .tele] := by decide +kernel



/-! ## What the checks of well-formedness refuse -/

theorem smoke_path : Path.ok (.host 256) = false ∧ Path.ok (.host 255) = true ∧ Instr.wf (.xlInvalAll (.host 256)) = false := by decide +kernel

theorem smoke_packet : Packet.ok big = false ∧ Packet.ok { big with len := 1 } = true ∧ Packet.ok { big with len := 1, vc := 8 } = false ∧
    PktSrc.ok (.port 0 big) = false ∧ Instr.wf (.put (.port 0 big)) = false ∧ Instr.wf (.put .here) = true := by decide +kernel

theorem smoke_flit : Flit.ok ⟨4096, none, 0, true, true, []⟩ = false ∧ Flit.ok ⟨4095, none, 7, true, true, List.replicate 240 0⟩ = true ∧
    Flit.ok ⟨0, none, 8, true, true, []⟩ = false ∧ Flit.ok ⟨0, none, 0, true, true, List.replicate 241 0⟩ = false ∧
    FlitRx.ok { good with ucw := true } = false ∧ Instr.wf (.idle 0 { good with ucw := true }) = false := by decide +kernel

theorem smoke_operands : Instr.wf (.registerWrite .mgmt 0 true []) = false ∧ Instr.wf (.registerWrite .mgmt 0x3FFFFFF true [0, 0]) = false ∧
    Instr.wf (.rsnSnapshotRead .mgmt 0 0) = false ∧ Instr.wf (.laneBerWindow 0 ⟨0, 0⟩ 0 0 0 1) = false ∧
    Instr.wf (.hdmCommit 0 0 0 0) = false ∧ Instr.wf (.cxlMemRead 63) = false ∧ Instr.wf (.cxlMemWrite 64 []) = false ∧ Instr.wf (.challenge []) = false ∧
    Instr.wf (.keyExchange []) = false ∧ Instr.wf (.getMeasurements 1 true []) = false ∧ Instr.wf (.pldmFwTransfer 0 (List.replicate 4097 0)) = false ∧
    Instr.wf (.thermSample [] [] [] []) = false := by decide +kernel

/-- MMODE of E8S, which no tile has, and a DCOPY from a flag operand: the translator refuses them (R244, R258). -/
theorem smoke_insns : CoreInsn.wf (.mmode ⟨.ws, .e8s, .e8s, .default, false, false⟩) = false ∧
    CoreInsn.wf (.mmode ⟨.ws, .f16w, .f16w, .default, false, false⟩) = true ∧ CoreInsn.wf (.dcopy ⟨0, .own, .own, 0, 0, .flg true, .imm 0, .imm 64⟩) = false := by
  decide +kernel

/-! ## Numbers of the spec -/

/-- The check value of the CRC-64 of R375 over the digits 1 to 9. -/
theorem test_crc64 : crc64 (asciiOf "123456789") = 0x995DC9BBDF1939FA#64 := by decide +kernel

/-- 1.0, -2.75 and 1,000,000 in each float format, as the table of worked encodings in chapter 4 has them. -/
theorem test_worked_encodings :
    [(Fmt.f32w, 0x3F800000, 0xC0300000, 0x49742400), (.f16w, 0x3C00, 0xC180, 0x7FFF), (.f16x, 0x3F80, 0xC030, 0x4974), (.f8a, 0x38, 0xC3, 0x7F),
      (.f8b, 0x3C, 0xC2, 0x7F), (.f6a, 0x0C, 0x32, 0x1F), (.f4a, 0x2, 0xD, 0x7)].all (fun x =>
        decide ((x.1.encode .default 0 (Fmt.f32w.decode 0x3F800000)).1 = x.2.1) && decide ((x.1.encode .default 0 (Fmt.f32w.decode 0xC0300000)).1 = x.2.2.1) &&
        decide ((x.1.encode .default 0 (Fmt.f32w.decode 0x49742400)).1 = x.2.2.2)) = true := by decide +kernel

/-- 0.001, the same table's last column. -/
theorem test_worked_encodings_small : [(Fmt.f32w, 0x3A83126F), (.f16w, 0x1419), (.f16x, 0x3A83), (.f8a, 0x01), (.f8b, 0x14), (.f6a, 0), (.f4a, 0)].all
    (fun x => decide ((x.1.encode .default 0 (Fmt.f32w.decode 0x3A83126F)).1 = x.2)) = true := by decide +kernel

/-- The F32W NaN goes to F16X as 0x8000 and to F16W as zero with NAN_LOST (chapter 4). -/
theorem test_nan : Fmt.f16x.encode .default 0 (Fmt.f32w.decode 0x80000000) = (0x8000, flNanIn) ∧
    Fmt.f16w.encode .default 0 (Fmt.f32w.decode 0x80000000) = (0, flNanIn ||| flNanLost) := by decide +kernel

/-- Stochastic rounding of 0x3F80_099A to F16W with two draws (chapter 4). -/
theorem test_stochastic : (Fmt.f16w.encode ⟨false, .sr⟩ 0x1700 (Fmt.f32w.decode 0x3F80099A)).1 = 0x3C01 ∧
    (Fmt.f16w.encode ⟨false, .sr⟩ 0x0400 (Fmt.f32w.decode 0x3F80099A)).1 = 0x3C00 := by decide +kernel

/-- The F4A block of chapter 4: its scale and its first four codes (3.3, -1.2, 0.26 and 0.1 as F32W). -/
theorem test_block : let r := blockEncode .f4a .default (fun _ => 0) (([0x40533333, 0xBF99999A, 0x3E851EB8, 0x3DCCCCCD] : List Nat).map Fmt.f32w.decode)
    r.1 = [0x7, 0xC, 0x1, 0x0] ∧ r.2.1 = 0x7E ∧ r.2.2 = 0 := by decide +kernel

/-- The three instructions of chapter 9's worked example, read from their bytes. -/
theorem test_insns :
    insnOf [] 0x71 (ofBytesLE [0x71, 0, 0, 0, 1, 0, 0, 0, 0xFF, 0xFF, 0xFF, 0xFF, 0, 0, 0, 0]) = some (.cinc 1 (.imm 0xFFFFFFFF)) ∧
    insnOf [] 0x72 (ofBytesLE [0x72, 0, 0, 0, 0x10, 4, 0, 0, 0, 0, 0, 0, 0, 0, 0, 0]) = some (.ccmp 0 1 .gt (.imm 0)) ∧
    insnOf [] 0x75 (ofBytesLE [0x75, 0, 2, 0, 0, 0, 1, 0, 0, 0, 0, 0, 0, 0, 0, 0]) = some (.beat (.ifK 0 1)) := by decide +kernel

/-- The pieces of chapter 13's transfer of 10,000 B, and their flits. -/
theorem test_pieces : pieces 0x001234560F00 10000 = [(0x001234560F00, 256), (0x001234561000, 4096), (0x001234562000, 4096), (0x001234563000, 1552)] ∧
    ([256, 4096, 4096, 1552].map flitsOf) = [2, 18, 18, 7] := by decide +kernel

/-- The channel of chapter 10's address with channel 37 mapped out: 66. -/
theorem test_channel : ((run fun h => (List.range 64).foldl (fun h j => rg (Reg.XL_CHMAP j)
    (BitVec.ofNat 32 (ofBytesLE ((List.range 4).map fun i => BitVec.ofNat 8 (if 4 * j + i < 37 then 4 * j + i else 4 * j + i + 1)))) h)
      (rg Reg.CAP_NT_CHAN 255 h)).hw.pg.channelOf 0x000040000100) = 66 := by decide +kernel

/-! ## One step by hand -/

/-- A write of ones reads back in the fields that the register has: DEV_CTX_SEL [7:0] (R79). -/
theorem test_write_reads_back : (match exec (.registerWrite .mgmt (BitVec.ofNat 26 (4096 * Pg.dev + 0x054)) true [0xFF, 0xFF, 0xFF, 0xFF]) (run id) with
    | .next t => t.hw.pg.rd (regKey Pg.dev 0x054) | _ => 0) = 0xFF := by decide +kernel

/-- G0 takes nothing, and ADD wraps (R207, R222). -/
theorem test_gig_add : ∀ rd : Fin 2, (match exec (.addSubAndOrXor 0 .add (if rd = 0 then 0 else 31) 1 (.imm 1))
      (run (gig fun c => { c with greg := [(1, BitVec.allOnes 64), (31, 7)] })) with
    | .next t => some ((t.hw.core 0).g 0, (t.hw.core 0).g 31) | _ => none) = some (0, if rd = 0 then 7 else 0) := by decide +kernel

/-- ENABLE of a link that is OFF starts its training at LASER_CHECK with the laser on (R358). -/
theorem test_training : (match exec (.trainingStart 9) (run (port 9 0 id)) with
    | .next t => some (t.hw.pg.get (Reg.LINK_STAT 9) 31 28, t.hw.pg.bit (Reg.OPE_STAT 9) 30) | _ => none) = some (1, true) := by decide +kernel

/-- CINC adds to the counter modulo 2^64 (R276). -/
theorem test_cinc : (match exec (.cinc 0 1 (.imm 0xFFFFFFFF)) (run (core id)) with
    | .next t => some ((t.hw.core 0).c 1) | _ => none) = some (BitVec.allOnes 64) := by decide +kernel


end Sys2Proof.Tests
end

/-! # Proofs: reset and the held device (R13, R343, R514) -/

namespace Sys2Proof.Machine

/-! ## The held device, part by part -/

/-- The lasers are dark when OPE_STAT.LASER_EN reads 0 on each of the ten ports (R343). -/
theorem Hw.dark_iff {h : Hw} : h.dark = true ↔ ∀ k < 10, h.pg.bit (Reg.OPE_STAT k) 30 = false := by
  simp [Hw.dark]

theorem Hw.held_iff {h : Hw} : h.held = true ↔
    h.power.inReset = true ∧ h.dark = true ∧ h.cores = [] ∧ h.parks = [] ∧ h.ctxs = [] ∧ h.links = [] ∧ h.colls = [] ∧
      h.hif.queues = [] ∧ h.rtr = Router.reset ∧ h.suu = Suu.reset := by
  simp only [Hw.held, Bool.and_eq_true, List.isEmpty_iff, decide_eq_true_eq, and_assoc]

/-- A device that RESET_N holds does not run. -/
theorem Hw.up_of_inReset {h : Hw} (r : h.power.inReset = true) : h.up = false := by
  simp [Hw.up, r]

/-! ## The reset state (R13) -/

theorem Hw.reset_dark : Hw.reset.dark = true := by decide +kernel

theorem Hw.reset_held : Hw.reset.held = true :=
  Hw.held_iff.2 ⟨rfl, Hw.reset_dark, rfl, rfl, rfl, rfl, rfl, rfl, rfl, rfl⟩

/-! ## The state that an assertion of RESET_N leaves (R514) -/

theorem Reg.opeStat_ne_hangStat {k : Nat} (hk : k < 10) : Reg.OPE_STAT k ≠ Reg.HANG_STAT := by
  simp only [Reg.OPE_STAT, Reg.HANG_STAT, regKey]
  omega

/-- Cold reset gives every register its reset value but HANG_STAT, which may keep OOS (R536). -/
theorem Hw.coldState_rd (h : Hw) {k : Nat} (hk : k ≠ Reg.HANG_STAT) : h.coldState.pg.rd k = Hw.reset.pg.rd k := by
  simp only [Hw.coldState, Hw.pg, Hw.onPg_dev, Dev.onPg_pg, Hw.onMem_dev, Dev.onMem_pg, Pages.setb_eq, Pages.rd_wr, if_neg hk]
  rfl

theorem Hw.coldState_dark (h : Hw) : h.coldState.dark = true := by
  refine Hw.dark_iff.2 fun k hk => ?_
  rw [Pages.bit_eq, h.coldState_rd (Reg.opeStat_ne_hangStat hk), ← Pages.bit_eq]
  exact Hw.dark_iff.1 Hw.reset_dark k hk

/-- Of memory, cold reset keeps what the host holds and nothing else. -/
theorem Hw.coldState_mem (h : Hw) : h.coldState.dev.mem = { Mem.reset with host := h.dev.mem.host } := rfl

@[simp] theorem Hw.coldState_host (h : Hw) : h.coldState.dev.mem.host = h.dev.mem.host := by
  rw [h.coldState_mem]

@[simp] theorem Hw.coldState_flash (h : Hw) : h.coldState.chaise.flash = h.chaise.endUpdate.flash := by
  simp only [Hw.coldState, Hw.onPg_chaise, Hw.onMem_chaise]

theorem Hw.coldState_held (h : Hw) : h.coldState.held = true :=
  Hw.held_iff.2 ⟨rfl, h.coldState_dark, rfl, rfl, rfl, rfl, rfl, rfl, rfl, rfl⟩

/-- An assertion of RESET_N completes in every state and puts the device into cold reset (R514). -/
theorem exec_resetNAssert (s : State) : exec .resetNAssert s = .next { s with hw := s.hw.coldState } := rfl

/-- Settles O45: the reset state by its parts and its registers' table values, and an assertion by what cold reset keeps. -/
theorem resetState : Obligations.ResetState := by
  refine ⟨rfl, Hw.reset_held, Hw.up_of_inReset rfl, ?registers, fun s => ?asserted⟩
  -- A closed fact: five keys looked up in the table of reset values (R13).
  case registers => decide +kernel
  case asserted => exact ⟨_, exec_resetNAssert s, s.hw.coldState_held, rfl, s.hw.coldState_host, s.hw.coldState_flash⟩

end Sys2Proof.Machine

/-! # Proofs: held atomics (R58, R273) -/

namespace Sys2Proof.Machine

/-! ## Writes of one key -/

section
variable {α : Type}

theorem terase_tinsert (t : Tbl α) (k : Nat) (v : α) : terase (tinsert t k v) k = terase t k := by
  induction t with
  | nil => simp [tinsert, terase]
  | cons e t ih =>
    by_cases hk : e.1 < k
    · simp [tinsert, hk, terase, ih]
    · simp [tinsert, hk, terase]

theorem terase_terase (t : Tbl α) (k : Nat) : terase (terase t k) k = terase t k := by
  simp [terase_eq_filter, List.filter_filter]

/-- Of two writes of a key the first leaves nothing. -/
theorem tset_tset [DecidableEq α] (d : Nat → α) (t : Tbl α) (k : Nat) (v w : α) : tset d (tset d t k v) k w = tset d t k w := by
  have e : terase (tset d t k v) k = terase t k := by
    unfold tset
    split
    · exact terase_terase t k
    · rw [terase_tinsert, terase_terase]
  show (if w = d k then terase (tset d t k v) k else tinsert (terase (tset d t k v) k) k w) = _
  rw [e]
  rfl

end

/-- Of two updates of a context the second acts on what the first made. -/
theorem Hw.modCtx_modCtx (h : Hw) (c : Nat) (f g : Ctx → Ctx) : (h.modCtx c f).modCtx c g = h.modCtx c fun x => g (f x) := by
  simp only [Hw.modCtx, tmod, tset_tset, tget_tset_self]

/-! ## The order in which the boundary applies held atomics -/

/-- The source of a held atomic, by which R273 orders first. -/
def HeldAtom.source (a : HeldAtom) : Nat ×ₗ Nat := toLex (a.node, a.core)

/-- What the boundary takes of a held atomic. -/
def HeldAtom.effect (a : HeldAtom) : Nat × Nat × W64 := (a.aop, a.cva, a.val)

theorem HeldAtom.source_eq {a : HeldAtom} {n k : Nat} : a.source = toLex (n, k) ↔ a.node = n ∧ a.core = k := by
  simp [HeldAtom.source]

/-- An atomic of a source is inserted behind those of its own and of lower sources that were issued before it. -/
theorem atomInsert_cons (x y : HeldAtom) (ys : List HeldAtom) (s : y.seq ≤ x.seq) :
    atomInsert x (y :: ys) = if y.source ≤ x.source then y :: atomInsert x ys else x :: y :: ys := by
  have e : (y.node < x.node ∨ (y.node = x.node ∧ (y.core < x.core ∨ (y.core = x.core ∧ y.seq ≤ x.seq)))) ↔ y.source ≤ x.source := by
    simp only [HeldAtom.source, Prod.Lex.toLex_le_toLex, le_iff_lt_or_eq (a := y.core), s, and_true]
  simp only [atomInsert, e]

theorem mem_atomInsert {x z : HeldAtom} {l : List HeldAtom} : z ∈ atomInsert x l ↔ z = x ∨ z ∈ l := by
  induction l with
  | nil => simp [atomInsert]
  | cons y ys ih =>
    unfold atomInsert
    split
    · simp only [List.mem_cons, ih]
      exact or_left_comm
    · simp

/-- Insertion of the latest atomic keeps the sources in order. -/
theorem atomInsert_sorted {x : HeldAtom} {l : List HeldAtom} (s : ∀ y ∈ l, y.seq ≤ x.seq)
    (o : l.Pairwise (·.source ≤ ·.source)) : (atomInsert x l).Pairwise (·.source ≤ ·.source) := by
  induction l with
  | nil => simp [atomInsert]
  | cons y ys ih =>
    obtain ⟨hy, hys⟩ := List.pairwise_cons.1 o
    rw [atomInsert_cons x y ys (s y (by simp))]
    split
    · rename_i c
      refine List.pairwise_cons.2 ⟨fun z hz => ?_, ih (fun z hz => s z (by simp [hz])) hys⟩
      rcases mem_atomInsert.1 hz with rfl | hz
      · exact c
      · exact hy z hz
    · rename_i c
      have lt : x.source < y.source := not_le.1 c
      refine List.pairwise_cons.2 ⟨fun z hz => ?_, o⟩
      rcases List.mem_cons.1 hz with rfl | hz
      · exact lt.le
      · exact lt.le.trans (hy z hz)

/-- Insertion of the latest atomic puts it last among those of its source. -/
theorem atomInsert_filter {x : HeldAtom} {l : List HeldAtom} (s : ∀ y ∈ l, y.seq ≤ x.seq)
    (o : l.Pairwise (·.source ≤ ·.source)) (k : Nat ×ₗ Nat) :
    (atomInsert x l).filter (·.source = k) = (l ++ [x]).filter (·.source = k) := by
  induction l with
  | nil => rfl
  | cons y ys ih =>
    obtain ⟨hy, hys⟩ := List.pairwise_cons.1 o
    rw [atomInsert_cons x y ys (s y (by simp))]
    split
    · rw [List.filter_cons, ih (fun z hz => s z (by simp [hz])) hys, List.cons_append, List.filter_cons]
    · rename_i c
      have above : ∀ z ∈ y :: ys, x.source < z.source := fun z hz => by
        rcases List.mem_cons.1 hz with rfl | hz
        · exact not_le.1 c
        · exact (not_le.1 c).trans_le (hy z hz)
      rw [List.filter_append, List.filter_cons]
      by_cases e : x.source = k
      · have none : (y :: ys).filter (·.source = k) = [] :=
          List.filter_eq_nil_iff.2 fun z hz => by simpa using (e ▸ above z hz).ne'
        rw [none]; simp [e]
      · simp [e]

/-- The held atomics in the order of R273. -/
def atomOrder (l : List HeldAtom) : List HeldAtom := l.foldl (fun l x => atomInsert x l) []

theorem atomOrder_append (l : List HeldAtom) (x : HeldAtom) : atomOrder (l ++ [x]) = atomInsert x (atomOrder l) := by
  simp [atomOrder]

theorem mem_atomOrder {l : List HeldAtom} {z : HeldAtom} : z ∈ atomOrder l ↔ z ∈ l := by
  induction l using List.reverseRecOn with
  | nil => rfl
  | append_singleton l x ih => rw [atomOrder_append, mem_atomInsert, ih]; simp [or_comm]

/-- Atomics held in the order of their arrival stand, once ordered, by source, and those of one source as they arrived. -/
theorem atomOrder_spec {l : List HeldAtom} (s : (l.map (·.seq)).Pairwise (· < ·)) :
    (atomOrder l).Pairwise (·.source ≤ ·.source) ∧ ∀ k, (atomOrder l).filter (·.source = k) = l.filter (·.source = k) := by
  induction l using List.reverseRecOn with
  | nil => exact ⟨List.Pairwise.nil, fun _ => rfl⟩
  | append_singleton l x ih =>
    rw [List.map_append, List.pairwise_append] at s
    obtain ⟨hl, _, hx⟩ := s
    obtain ⟨sorted, same⟩ := ih hl
    have latest : ∀ y ∈ atomOrder l, y.seq ≤ x.seq := fun y hy =>
      (hx y.seq (List.mem_map_of_mem (mem_atomOrder.1 hy)) x.seq (by simp)).le
    rw [atomOrder_append]
    exact ⟨atomInsert_sorted latest sorted, fun k => by rw [atomInsert_filter latest sorted, List.filter_append, same, List.filter_append]⟩

/-- A source that one list starts with occurs in the other, which then starts no later. -/
theorem source_le_of_effects {a b : HeldAtom} {as bs : List HeldAtom} (o : ∀ z ∈ bs, b.source ≤ z.source)
    (e : ((a :: as).filter (·.source = a.source)).map HeldAtom.effect = ((b :: bs).filter (·.source = a.source)).map HeldAtom.effect) :
    b.source ≤ a.source := by
  have ne : (b :: bs).filter (·.source = a.source) ≠ [] := fun n => by simp [n] at e
  obtain ⟨z, hz⟩ := List.exists_mem_of_ne_nil _ ne
  obtain ⟨m, k⟩ := List.mem_filter.1 hz
  rw [← of_decide_eq_true k]
  rcases List.mem_cons.1 m with rfl | m
  · exact le_rfl
  · exact o z m

/-- Lists ordered by source whose parts of each source have the same effects have the same effects. -/
theorem effects_eq_of_sources {l1 l2 : List HeldAtom} (o1 : l1.Pairwise (·.source ≤ ·.source)) (o2 : l2.Pairwise (·.source ≤ ·.source))
    (e : ∀ k, (l1.filter (·.source = k)).map HeldAtom.effect = (l2.filter (·.source = k)).map HeldAtom.effect) :
    l1.map HeldAtom.effect = l2.map HeldAtom.effect := by
  induction l1 generalizing l2 with
  | nil =>
    cases l2 with
    | nil => rfl
    | cons y ys => simpa using e y.source
  | cons x xs ih =>
    cases l2 with
    | nil => simpa using e x.source
    | cons y ys =>
      obtain ⟨hx, hxs⟩ := List.pairwise_cons.1 o1
      obtain ⟨hy, hys⟩ := List.pairwise_cons.1 o2
      have same : x.source = y.source := le_antisymm (source_le_of_effects hx (e y.source).symm) (source_le_of_effects hy (e x.source))
      have head : x.effect = y.effect := by
        have := e x.source
        simp only [List.filter_cons, same, decide_true, if_true, List.map_cons, List.cons.injEq] at this
        exact this.1
      have tail : xs.map HeldAtom.effect = ys.map HeldAtom.effect := ih hxs hys fun k => by
        have := e k
        by_cases c : y.source = k <;> simpa [List.filter_cons, same, c, head] using this
      rw [List.map_cons, List.map_cons, head, tail]

/-! ## The boundary -/

/-- The boundary applies the effects of the held atomics in their order, and holds none from then on. -/
theorem Hw.atomFlush_eq (c : Nat) (h : Hw) (l : List HeldAtom) :
    (h.modCtx c fun x => { x with held := l }).atomFlush c =
      ((atomOrder l).map HeldAtom.effect).foldl (fun h e => (h.atomApply c e.1 e.2.1 e.2.2).2) (h.modCtx c fun x => { x with held := [] }) := by
  have held : ((h.modCtx c fun x => { x with held := l }).ctx c).held = l := by simp [Hw.ctx_modCtx]
  rw [List.foldl_map]
  simp only [Hw.atomFlush, held, Hw.modCtx_modCtx]
  rfl

/-- Settles O52: the order that R273 gives depends on each source's own order alone, and the boundary sees nothing else of the arrivals. -/
theorem atomicsOrderFree : Obligations.AtomicsOrderFree := by
  unfold Obligations.AtomicsOrderFree
  intro h c l1 l2 s1 s2 e
  obtain ⟨o1, f1⟩ := atomOrder_spec s1
  obtain ⟨o2, f2⟩ := atomOrder_spec s2
  rw [Hw.atomFlush_eq, Hw.atomFlush_eq, effects_eq_of_sources o1 o2 fun k => ?_]
  obtain ⟨⟨n, m⟩, rfl⟩ := toLex.surjective k
  rw [f1, f2]
  simp only [HeldAtom.source_eq]
  exact e n m

end Sys2Proof.Machine

/-! # Proofs: the beat, its servo and the Input Journal (R26 to R71) -/

namespace Sys2Proof.Machine

/-! ## Running a command of a block -/

/-- A command that a page's block carries out completes where the block works (R81). -/
theorem State.onBlock_next {s : State} {pg : Nat} {f g : Hw → Hw} (u : s.hw.up = true) (w : s.hw.pg.works pg = true) (h : f s.hw = g s.hw) :
    s.onBlock pg f = .next (s.done g) :=
  State.onHw_next u (by simp only [w, if_true, h])

/-- Two link functions that agree on the port as it stands do the same to it. -/
theorem Hw.onLink0_congr {h : Hw} {p : Nat} {f g : LV → LV} (e : f ⟨h.pg, h.link p⟩ = g ⟨h.pg, h.link p⟩) : h.onLink0 p f = h.onLink0 p g := by
  simp only [Hw.onLink0, Hw.onLink, e]

/-! ## The servo's events -/

/-- The end of a capping window, with the cap enabled and the Chaise running (R503). -/
theorem Hw.capWindow_enabled {h : Hw} (d : h.chaiseDead = false) (c : h.pg.bit Reg.PWR_CAP 31 = true) (watts : Nat) :
    h.capWindow watts =
      ({ (h.onPg (Pages.count Reg.PWR_ENERGY_LO (watts * h.pg.capWin))) with
          power := { h.power with
            capStep := if h.pg.get Reg.PWR_CAP 15 0 < watts then 1 else if watts * 100 < h.pg.get Reg.PWR_CAP 15 0 * 95 then 2 else 0 } } : Hw).onPg
        fun p => (p.put Reg.PWR_PKG 15 0 watts).maxFld Reg.PWR_PKG_MAX 15 0 watts := by
  simp only [Hw.capWindow, d, c, Bool.not_true, Bool.false_eq_true, if_false, Hw.onPg_power]

/-- The servo takes a marker that its parent's port delivers (R27, R32). -/
theorem Hw.servoTake_parent {h : Hw} {p : Nat} (w : h.pg.works Pg.beat = true) (e : h.pg.bit Reg.BEAT_SERVO_CTRL 8 = true)
    (q : h.pg.get Reg.BEAT_SERVO_CTRL 3 0 = p) (k : h.pg.marks p = true) (m : Nat) : h.servoTake p m = h.marker p m := by
  simp [Hw.servoTake, w, e, q, k]

/-- A whole marker reaches the servo on a port that is not under loopback (R27, R368). -/
theorem Hw.syncMarker_good {h : Hw} {p : Nat} {rx : FlitRx} (b : rx.bad = false) (l : h.pg.looped p = false) (m now : W64) :
    h.syncMarker p rx m now = (h.syncTaken p rx now).servoTake p m.toNat := by
  simp [Hw.syncMarker, b, l]

/-- The state of a link that is ACTIVE. -/
theorem LV.st_active {p : Nat} {v : LV} (a : v.pg.linkActive p = true) : v.st p = 6 := of_decide_eq_true a

/-- A marker leaves an ACTIVE link, and comes back under loopback (R355, R368). -/
theorem Hw.syncEmit_active {h : Hw} {p : Nat} (a : h.pg.linkActive p = true) :
    h.syncEmit p =
      let h1 := h.onLink0 p fun v => (v.head p none).2.onLk fun l => { l with sent := .sync (v.head p none).1 v.pg.fbc :: l.sent }
      if h.pg.looped p then h1.servoTake p h.pg.fbc.toNat else h1 := by
  have st : (LV.mk h.pg (h.link p)).st p = 6 := LV.st_active a
  have e : h.onLink0 p (LV.syncEmit p) =
      h.onLink0 p fun v => (v.head p none).2.onLk fun l => { l with sent := .sync (v.head p none).1 v.pg.fbc :: l.sent } :=
    Hw.onLink0_congr (by simp only [LV.syncEmit, st, if_true])
  simp only [Hw.syncEmit, st, e, decide_true, Bool.and_true]

/-- The parent falls silent while the servo follows it (R30). -/
theorem Hw.holdover_starts {h : Hw} (e : h.pg.bit Reg.BEAT_SERVO_CTRL 8 = true) (q : h.pg.get Reg.BEAT_SERVO_CTRL 3 0 ≠ 15)
    (n : h.pg.bit Reg.BEAT_SERVO_STAT 30 = false) :
    h.holdover = ({ h with servo := { h.servo with run := 0 } } : Hw).onPg fun p =>
      (((p.setb Reg.BEAT_SERVO_STAT 30 true).setb Reg.BEAT_SERVO_STAT 31 false).put Reg.BEAT_SERVO_STAT 23 16 0).raise Pg.beat 0 0 none := by
  simp [Hw.holdover, e, q, n]

/-- HOLDOVER lasts for 8 beats (R30). -/
theorem Pages.holdoverLong_raises {p : Pages} (b : p.bit Reg.BEAT_SERVO_STAT 30 = true) (n : 8 ≤ p.get Reg.BEAT_SERVO_STAT 23 16) :
    p.holdoverLong = p.raise Pg.beat 1 0 none := by
  simp [Pages.holdoverLong, b, n]

/-- Settles O5: each event by what its own function does under the clause's conditions. -/
theorem beatEventsRun : Obligations.BeatEventsRun := by
  unfold Obligations.BeatEventsRun
  intro s up
  refine ⟨fun w => ?boundary, fun watts w d c => ?cap, fun k rx m now b l w e q a => ?rx, fun k w a => ?emit, fun w e q n => ?silent,
    fun w b n => ?long⟩
  case boundary => exact State.onBlock_next up w rfl
  case cap => exact State.onBlock_next up w (Hw.capWindow_enabled d c watts.toNat)
  case rx => exact State.onHw_next up ((Hw.syncMarker_good b l m now).trans (Hw.servoTake_parent w e q a m.toNat))
  case emit => exact State.onBlock_next up w (Hw.syncEmit_active a)
  case silent => exact State.onBlock_next up w (Hw.holdover_starts e q n)
  case long =>
    refine State.onBlock_next up w ?_
    simp only [Hw.onPg, Dev.onPg, Pages.holdoverLong_raises b n]

end Sys2Proof.Machine

/-! # Proofs: the registers of the beat page and of the journal (R32, R35, R46, R65 to R71) -/

namespace Sys2Proof.Machine

/-! ## Admitted writes -/

/-- An admitted write that its page takes does what the page does with it. -/
theorem Hw.regCmd_taken {h t : Hw} {path : Path} {pg off : Nat} {r : RegRow} {w : Hw → W32} {wi : WarmIn} (a : h.admits path pg off = true)
    (hr : regRow pg off = some r) (e : h.blockWrite wi pg off r (w h) = (true, t)) : h.regCmd wi path pg off w = t := by
  rw [Hw.regCmd_admits a hr, e]; rfl

/-- An admitted write that its page refuses is flagged STATE (R89). -/
theorem Hw.regCmd_refused {h t : Hw} {path : Path} {pg off : Nat} {r : RegRow} {w : Hw → W32} {wi : WarmIn} (a : h.admits path pg off = true)
    (hr : regRow pg off = some r) (e : h.blockWrite wi pg off r (w h) = (false, t)) : h.regCmd wi path pg off w = t.flag pg off path .state := by
  rw [Hw.regCmd_admits a hr, e]; rfl

/-- A register that a path may write has a row in its page's table. -/
theorem Hw.admits_row {h : Hw} {path : Path} {pg off : Nat} (a : h.admits path pg off = true) : ∃ r, regRow pg off = some r := by
  simp only [Hw.admits, Bool.and_eq_true, Option.any_eq_true] at a
  obtain ⟨_, r, hr, _⟩ := a
  exact ⟨r, hr⟩

/-- A path that may write a register sees its page, and a page with a header is not in reset (R76, R82). -/
theorem Hw.admits_page {h : Hw} {path : Path} {pg off : Nat} (a : h.admits path pg off = true) :
    h.pg.sees path pg = true ∧ (hasHeader pg = true → h.pg.inReset pg = false) := by
  simp only [Hw.admits, Bool.and_eq_true, Bool.not_eq_true', Bool.and_eq_false_iff, Bool.or_eq_false_iff] at a
  obtain ⟨⟨⟨sees, quiet⟩, _⟩, _⟩ := a
  exact ⟨sees, fun header => quiet.elim (fun no => absurd (header.symm.trans no) (by decide)) And.left⟩

/-! ## BEAT_SERVO_CTRL (R32, R66) -/

/-- BEAT_SERVO_CTRL at the beat page's write. -/
theorem Hw.blockWrite_servoCtrl (h : Hw) (wi : WarmIn) (r : RegRow) (w : W32) : h.blockWrite wi Pg.beat 0x064 r w = h.servoCtrl w := rfl

/-- BEAT_SET_CTRL likewise. -/
theorem Hw.blockWrite_setCtrl (h : Hw) (wi : WarmIn) (r : RegRow) (w : W32) : h.blockWrite wi Pg.beat 0x0D0 r w = h.setCtrl w := rfl

/-- BEAT_LEN_NEXT likewise. -/
theorem Hw.blockWrite_lenNext (h : Hw) (wi : WarmIn) (r : RegRow) (w : W32) : h.blockWrite wi Pg.beat 0x054 r w = h.lenNext w := rfl

/-- ENABLE set under a parent starts acquisition. -/
theorem Hw.servoCtrl_enable {h : Hw} {w : W32} (l : h.anyLaunch = false) (e : wbit w 8 = true) (was : h.pg.bit Reg.BEAT_SERVO_CTRL 8 = false)
    (m : wbit w 31 = false) (q : fld w 3 0 ≠ 15) :
    h.servoCtrl w = (true, { (h.onPg (Pages.wr Reg.BEAT_SERVO_CTRL (w &&& 0x001F010F#32))) with servo := { h.servo with acq := true, run := 0 } }) := by
  simp only [Hw.servoCtrl, Hw.servoSet, l, e, was, m, decide_eq_true q]
  rfl

/-- A write with ENABLE clear ends acquisition. -/
theorem Hw.servoCtrl_disable {h : Hw} {w : W32} (e : wbit w 8 = false) (m : wbit w 31 = false) :
    h.servoCtrl w = (true, { (h.onPg (Pages.wr Reg.BEAT_SERVO_CTRL (w &&& 0x001F010F#32))) with servo := { h.servo with acq := false, run := 0 } }) := by
  simp only [Hw.servoCtrl, Hw.servoSet, e, m]
  rfl

/-- BEAT_SERVO_CTRL written as it stands with CLR_MAX, while the servo is enabled, clears the maxima. -/
theorem Hw.servoCtrl_clrMax {h : Hw} (e : h.pg.bit Reg.BEAT_SERVO_CTRL 8 = true) :
    h.servoCtrl (Hw.withBit Reg.BEAT_SERVO_CTRL 31 true h) = (true, h.onPg fun g =>
      ((g.wr Reg.BEAT_SKEW_MAX 0).wr Reg.BEAT_CONF_MAX 0).wr Reg.BEAT_SERVO_CTRL (g.rd Reg.BEAT_SERVO_CTRL &&& 0x001F010F#32)) := by
  have enable : wbit (Hw.withBit Reg.BEAT_SERVO_CTRL 31 true h) 8 = true := (wbit_setBit _ (by decide) true 8).trans e
  have clear : wbit (Hw.withBit Reg.BEAT_SERVO_CTRL 31 true h) 31 = true := wbit_setBit _ (by decide) true 31
  have kept : Hw.withBit Reg.BEAT_SERVO_CTRL 31 true h &&& 0x001F010F#32 = h.pg.rd Reg.BEAT_SERVO_CTRL &&& 0x001F010F#32 :=
    setBit_and _ _ (by decide) true (by decide)
  simp only [Hw.servoCtrl, Hw.servoSet, e, enable, clear, kept]
  rfl

/-! ## BEAT_SET_CTRL and BEAT_LEN_NEXT (R32, R35) -/

/-- ARM of BEAT_SET two beats ahead on a whole beat, with no launch and no length armed. -/
theorem Hw.setCtrl_arm {h : Hw} (n : h.pg.bit Reg.BEAT_LEN_NEXT 31 = false) (l : h.anyLaunch = false)
    (m : (h.pg.rd64 Reg.BEAT_SET_AT_LO).toNat % h.pg.beatLen = 0)
    (f : h.pg.fbc.toNat + 2 * h.pg.beatLen ≤ (h.pg.rd64 Reg.BEAT_SET_AT_LO).toNat) :
    h.setCtrl 0x80000000#32 = (true, h.onPg fun g => g.setb Reg.BEAT_SET_CTRL 31 true) :=
  Hw.setCtrl_arms h id (h.pg.rd64 Reg.BEAT_SET_AT_LO) l rfl n rfl rfl f m

/-- A write of zero disarms BEAT_SET. -/
theorem Hw.setCtrl_disarms (h : Hw) : h.setCtrl 0 = (true, h.onPg fun g => g.setb Reg.BEAT_SET_CTRL 31 false) := rfl

/-- A length that is armed two beats ahead, on whole beats of both lengths, with no launch and no BEAT_SET armed. -/
theorem Hw.lenNext_arms {h : Hw} (u : h.pg.unarmed Pg.beat = true) (l : h.anyLaunch = false) (b : h.pg.bit Reg.BEAT_SET_CTRL 31 = false) (k : Fin 32)
    (lo : 10 ≤ k.val) (hi : k.val ≤ 17) (m : (h.pg.rd64 Reg.BEAT_LEN_AT_LO).toNat % h.pg.beatLen = 0)
    (n : (h.pg.rd64 Reg.BEAT_LEN_AT_LO).toNat % 2 ^ k.val = 0) (f : h.pg.fbc.toNat + 2 * h.pg.beatLen ≤ (h.pg.rd64 Reg.BEAT_LEN_AT_LO).toNat) :
    h.lenNext (BitVec.ofNat 32 (2 ^ 31 + k.val)) = (true, h.onPg (Pages.wr Reg.BEAT_LEN_NEXT (BitVec.ofNat 32 (2 ^ 31 + k.val)))) := by
  have word : ∀ k : Fin 32, let w := BitVec.ofNat 32 (2 ^ 31 + k.val); wbit w 31 = true ∧ fld w 4 0 = k.val ∧ w &&& 0x8000001F#32 = w := by
    decide +kernel
  obtain ⟨arm, len, kept⟩ := word k
  have range : ¬(k.val < 10 ∨ 17 < k.val) := by omega
  simp only [Hw.lenNext, arm, len, kept, l, b, m, n, range, Nat.not_lt.mpr f, Hw.holds_unarmed u]
  rfl

/-- A write of BEAT_LEN_NEXT without ARM disarms it. -/
theorem Hw.lenNext_disarms (h : Hw) (k : Fin 32) :
    h.lenNext (BitVec.ofNat 32 k.val) = (true, h.onPg (Pages.wr Reg.BEAT_LEN_NEXT (BitVec.ofNat 32 k.val))) := by
  have word : ∀ k : Fin 32, let w := BitVec.ofNat 32 k.val; wbit w 31 = false ∧ w &&& 0x8000001F#32 = w := by decide +kernel
  obtain ⟨arm, kept⟩ := word k
  simp only [Hw.lenNext, arm, kept]
  rfl

/-- Settles O6: each write by what its register does with the word that the command forms. -/
theorem beatRegisterWrites : Obligations.BeatRegisterWrites := by
  unfold Obligations.BeatRegisterWrites
  intro s p up un
  refine ⟨fun a => ?servo, fun a => ?set, fun a k => ?len⟩ <;> obtain ⟨r, hr⟩ := Hw.admits_row a
  case servo =>
    have act (w : W32) := Hw.blockWrite_servoCtrl s.hw WarmIn.good r w
    refine ⟨fun w l e was m q => ?_, fun w e m => ?_, fun e => ?_⟩
    · exact State.onHw_next up (Hw.regCmd_taken a hr ((act w).trans (Hw.servoCtrl_enable l e was m q)))
    · exact State.onHw_next up (Hw.regCmd_taken a hr ((act w).trans (Hw.servoCtrl_disable e m)))
    · exact State.onHw_next up (Hw.regCmd_taken a hr ((act _).trans (Hw.servoCtrl_clrMax e)))
  case set =>
    have act (w : W32) := Hw.blockWrite_setCtrl s.hw WarmIn.good r w
    refine ⟨fun n l m f => ?_, ?_⟩
    · exact State.onHw_next up (Hw.regCmd_taken a hr ((act _).trans (Hw.setCtrl_arm n l m f)))
    · exact State.onHw_next up (Hw.regCmd_taken a hr ((act _).trans (Hw.setCtrl_disarms s.hw)))
  case len =>
    have act (w : W32) := Hw.blockWrite_lenNext s.hw WarmIn.good r w
    refine ⟨fun l b lo hi m n f => ?_, ?_⟩
    · exact State.onHw_next up (Hw.regCmd_taken a hr ((act _).trans (Hw.lenNext_arms un l b k lo hi m n f)))
    · exact State.onHw_next up (Hw.regCmd_taken a hr ((act _).trans (Hw.lenNext_disarms s.hw k)))

/-! ## BEAT_CMD (R46) -/

/-- BEAT_CMD while the beat page works. -/
theorem Hw.blockWrite_beatCmd {h : Hw} (k : h.pg.works Pg.beat = true) (wi : WarmIn) (r : RegRow) (w : W32) :
    h.blockWrite wi Pg.beat 0x0AC r w = h.beatCmd w := by
  show (if h.pg.works Pg.beat then h.beatCmd w else (true, h)) = _
  rw [if_pos k]

/-- The word of a command of BEAT_CMD: its code above, its context below. -/
theorem beatCmd_word {n m : Nat} {c : Byte} (hn : n < 16) (e : m = n * 2 ^ 28 + c.toNat) :
    fld (BitVec.ofNat 32 m) 31 28 = n ∧ fld (BitVec.ofNat 32 m) 7 0 = c.toNat := by
  have := c.isLt
  simp only [fld, BitVec.toNat_ofNat]
  omega

/-- What a code of BEAT_CMD does, with no refusal injected. -/
theorem Hw.beatCmd_code {h : Hw} (u : h.pg.unarmed Pg.beat = true) {n m : Nat} {c : Byte} (hn : n < 16) (e : m = n * 2 ^ 28 + c.toNat) :
    h.beatCmd (BitVec.ofNat 32 m) =
      if n = 1 then (true, h.revote c.toNat) else if n = 2 then (true, h.withdraw c.toNat) else if n = 3 then (true, h.resumeCmd c.toNat)
      else (false, h.onPg (Pages.raise Pg.beat 7 0 none)) := by
  obtain ⟨code, ctx⟩ := beatCmd_word hn e
  simp only [Hw.beatCmd, code, ctx, Hw.holds_unarmed u, Bool.or_eq_true, decide_eq_true_eq]
  by_cases good : n = 1 ∨ n = 2 ∨ n = 3
  · rcases good with rfl | rfl | rfl <;> rfl
  · have bad : n = 0 ∨ 4 ≤ n := by omega
    simp only [bad, if_true]
    rw [if_neg (by omega), if_neg (by omega), if_neg (by omega)]

/-- REVOTE runs the oldest round that has not ended again. -/
theorem Hw.revote_oldest {h : Hw} {c : Nat} {r : Round} (f : (h.ctx c).rounds.find? (fun r => r.vote.isSome && !r.ended) = some r) :
    h.revote c = (h.modRound c r.beat fun r => { r with sent := [], withdrawn := false }).roundGo c (((h.ctx c).launch.map (·.group)).getD 255) r.beat
      (h.pg.fbc.toNat - h.servo.top) := by
  simp only [Hw.revote, f]

/-- WITHDRAW of a running launch. -/
theorem Hw.withdraw_running {h : Hw} {c : Nat} (l : (h.ctx c).launch.any (fun l => l.running) = true) :
    h.withdraw c =
      let openR (r : Round) : Bool := r.vote.isSome && !r.ended && !r.withdrawn
      let h1 := (h.discardSpec c).modCtx c fun x => { x with rounds := x.rounds.map fun r => { r with withdrawn := r.withdrawn || openR r } }
      ((h1.onPg (Pages.sat Reg.BEAT_WDRAW_CNT ((h.ctx c).rounds.filter openR).length)).enterHold c 2 0).showParts := by
  simp only [Hw.withdraw, l, if_true]

theorem refusedCode_range (code : Fin 13) : refusedCode code < 16 ∧ refusedCode code ≠ 1 ∧ refusedCode code ≠ 2 ∧ refusedCode code ≠ 3 := by
  simp only [refusedCode]
  split <;> omega

/-- Settles O7: the four kinds of command code, each by the work of its code. -/
theorem beatCommands : Obligations.BeatCommands := by
  unfold Obligations.BeatCommands
  intro s p c up un a wk
  obtain ⟨r, hr⟩ := Hw.admits_row a
  have cmd {n m : Nat} (hn : n < 16) (e : m = n * 2 ^ 28 + c.toNat) := (Hw.blockWrite_beatCmd wk WarmIn.good r _).trans (Hw.beatCmd_code un hn e)
  refine ⟨fun q f => ?revote, fun l => ?withdraw, ?resume, fun code => ?refused⟩
  case revote =>
    refine State.onHw_next up ((Hw.regCmd_taken a hr ?_).trans (Hw.revote_oldest f))
    exact cmd (n := 1) (by decide) (by omega)
  case withdraw =>
    refine State.onHw_next up ((Hw.regCmd_taken a hr ?_).trans (Hw.withdraw_running l))
    exact cmd (n := 2) (by decide) (by omega)
  case resume =>
    refine State.onHw_next up (Hw.regCmd_taken a hr ?_)
    exact cmd (n := 3) (by decide) (by omega)
  case refused =>
    obtain ⟨lt, no1, no2, no3⟩ := refusedCode_range code
    refine State.onHw_next up (Hw.regCmd_refused a hr ((cmd lt rfl).trans ?_))
    rw [if_neg no1, if_neg no2, if_neg no3]

/-! ## The Input Journal (R64, R71) -/

/-- JRNL_CTRL at the journal page's write. -/
theorem Hw.blockWrite_jrnlCtrl (h : Hw) (wi : WarmIn) (r : RegRow) (w : W32) : h.blockWrite wi Pg.jrnl 0x040 r w = (true, h.jrnlCtrl w) := rfl

/-- The two bits of JRNL_CTRL with REPLAY set. -/
theorem jrnlCtrl_word (w : W32) : setBit w 1 true &&& 3#32 = BitVec.ofNat 32 (2 + (wbit w 0).toNat) := by
  have three : ∀ i : Fin 32, wbit (3#32) i.val = decide (i.val < 2) := by decide +kernel
  have both : ∀ (b : Bool) (i : Fin 32), wbit (BitVec.ofNat 32 (2 + b.toNat)) i.val = if i.val = 1 then true else if i.val = 0 then b else false := by
    decide +kernel
  refine word_ext fun i hi => ?_
  rw [wbit_and, wbit_setBit w (by decide), three ⟨i, hi⟩, both _ ⟨i, hi⟩]
  rcases i with _ | _ | i <;> simp

/-- REPLAY set starts a replay. -/
theorem Hw.jrnlCtrl_replay {h : Hw} (n : h.pg.bit Reg.JRNL_CTRL 1 = false) :
    h.jrnlCtrl (Hw.withBit Reg.JRNL_CTRL 1 true h) =
      (h.onPg (Pages.wr Reg.JRNL_CTRL (BitVec.ofNat 32 (2 + (h.pg.bit Reg.JRNL_CTRL 0).toNat)))).jStart := by
  have enable : wbit (Hw.withBit Reg.JRNL_CTRL 1 true h) 0 = wbit (h.pg.rd Reg.JRNL_CTRL) 0 := wbit_setBit _ (by decide) true 0
  have replay : wbit (Hw.withBit Reg.JRNL_CTRL 1 true h) 1 = true := wbit_setBit _ (by decide) true 1
  have was : wbit (h.pg.rd Reg.JRNL_CTRL) 1 = false := n
  have word : Hw.withBit Reg.JRNL_CTRL 1 true h &&& 3#32 = BitVec.ofNat 32 (2 + (h.pg.bit Reg.JRNL_CTRL 0).toNat) := jrnlCtrl_word _
  simp [Hw.jrnlCtrl, enable, replay, was, word]

/-- A good JRNL_TAIL is written as one pair. -/
theorem Hw.writePair_jrnlTail {h : Hw} (q : h.pg.inReset Pg.jrnl = false) {v : W64} (b : h.pg.tailBad v.toNat = false) (wi : WarmIn) (path : Path) :
    h.writePair wi path Pg.jrnl 0x060 (lo32 v) (hi32 v) = h.onPg (Pages.wr64 Reg.JRNL_TAIL_LO v) := by
  simp only [Hw.writePair, q, and_self, if_true, join_lo_hi, Hw.tailWrite, b]
  rfl

/-- Settles O9: REPLAY by the bits that the command leaves in JRNL_CTRL, JRNL_TAIL by the write of its pair. -/
theorem journalRegisters : Obligations.JournalRegisters := by
  unfold Obligations.JournalRegisters
  intro s p up
  refine ⟨fun a n => ?start, fun v a b => ?tail⟩
  case start =>
    obtain ⟨r, hr⟩ := Hw.admits_row a
    exact State.onHw_next up ((Hw.regCmd_taken a hr (Hw.blockWrite_jrnlCtrl _ _ _ _)).trans (Hw.jrnlCtrl_replay n))
  case tail =>
    obtain ⟨sees, quiet⟩ := Hw.admits_page a
    refine State.onHw_next up ?_
    simp only [sees, if_true]
    exact Hw.writePair_jrnlTail (quiet rfl) b _ _

/-! ## VOTE and RESULT (R42 to R47) -/

/-- A vote of a neighbour on an axis joins its round. -/
theorem Hw.voteTake_neighbour {h : Hw} {k : Packet} {ax : Nat} (f : h.pg.fromAxis k.src = some ax) (lat : Nat) :
    h.voteTake lat k =
      let g := ofBytesLE (slice 4 1 k.payload)
      let v := (ax, ofBytesLE (slice 0 2 k.payload), ofBytesLE (slice 2 2 k.payload))
      let h1 := if (h.ctx k.ctx).rounds.any fun r => r.beat = k.addr then h
        else h.modCtx k.ctx fun y => { y with rounds := y.rounds ++ [⟨k.addr, 0, none, [], [], false, false, false⟩] }
      (h1.modRound k.ctx k.addr fun r =>
        { r with sent := if r.got.any fun y => y.1 = ax then [] else r.sent, got := v :: r.got.filter fun y => y.1 ≠ ax }).roundGo k.ctx g k.addr lat := by
  simp only [Hw.voteTake, f]

/-- Settles O8: an accepted VOTE or RESULT is taken by the beat page, which works. -/
theorem votesAndResults : Obligations.VotesAndResults := by
  unfold Obligations.VotesAndResults
  intro s src k t up w
  refine ⟨fun a ax lat f => State.onHw_next up ?vote, fun lat d a => State.onHw_next up ?result⟩
  case vote =>
    refine (Hw.onPacket_accepts a _).trans ?_
    simp only [w, if_true]
    exact Hw.voteTake_neighbour f lat.toNat
  case result =>
    have taken : s.hw.resultRx src lat.toNat = t.resultTake lat.toNat k := by
      simp only [Hw.resultRx, d, Hw.onPacket_accepts a, w, if_true, Bool.false_eq_true, if_false]
    exact congrArg Hw.pumpAll taken

end Sys2Proof.Machine

/-! # Proofs: queue entries and queue events (R242 to R256, R449 to R459) -/

namespace Sys2Proof.Machine

/-! ## Entries that start (R452 to R454, R456) -/

/-- The host answers a DMA. -/
theorem Hw.hostAns_ok (h : Hw) : h.hostAns .ok = (true, h) := rfl

/-- An ABORT that is found stands in the ring as one. -/
theorem Hw.abortAt_opcode {h : Hw} {q c i : Nat} (o : h.pg.qOwner q = some c) (a : h.abortAt q = some i) : (h.sqRead q c i).f 0 1 = 4 := by
  simp only [Hw.abortAt, o] at a
  split at a
  · cases a
  · have found := List.find?_some a
    simp only [Bool.and_eq_true, decide_eq_true_eq] at found
    exact found.2

/-- The first visible ABORT starts from where it stands in the ring. -/
theorem Hw.abortCmd_starts {h : Hw} {q c i : Nat} {e : SqEntry} (o : h.pg.qOwner q = some c) (a : h.abortAt q = some i) (r : e = h.sqRead q c i)
    (k : e.clean = true) : h.abortCmd q = h.afterRead q i (Hw.abortGo e (h.startedAt q i e)) := by
  subst r
  have opcode : 1 ≤ (h.sqRead q c i).f 0 1 ∧ (h.sqRead q c i).f 0 1 ≤ 7 := by rw [Hw.abortAt_opcode o a]; decide
  simp only [Hw.abortCmd, a, o]
  exact Hw.startAt_clean opcode k Hw.abortGo

/-- Nothing is to be aborted: no launch, or one whose abort is latched. -/
theorem Hw.abortGo_nothing {h : Hw} {e : SqEntry} (l : ∀ l, (h.ctx e.ctx).launch = some l → l.abort.isSome = true) :
    Hw.abortGo e h = h.complete e.q e.cookie 4 2 := by
  unfold Hw.abortGo
  cases x : (h.ctx e.ctx).launch with
  | none => rfl
  | some y => simp [l y x]

/-- A launch with no abort latched keeps the ABORT for the boundary. -/
theorem Hw.abortGo_pends {h : Hw} {e : SqEntry} {l : Launch} (x : (h.ctx e.ctx).launch = some l) (n : l.abort = none) :
    Hw.abortGo e h = h.modLaunch e.ctx fun l => { l with abortPend := l.abortPend ++ [(e.q, e.cookie)] } := by
  simp [Hw.abortGo, x, n]

/-- The work of a SEND entry that the host answers, on the device g that has started it. -/
theorem Hw.sendCmd_ready {h : Hw} {q : Nat} {e : SqEntry} (r : h.entryReady q 6 e = true) (n : e.f 20 2 ≤ 4096) :
    h.hifDo (Hw.sendCmd q .ok) = h.afterHead q (
      let g := h.entryStarted q e
      let bs := g.dev.mem.hostRead (g.pg.ctxFunc e.ctx) (e.f 8 8) (e.f 20 2)
      let h1 := g.onPg (Pages.hostRx (e.f 20 2))
      (h1.inject (h1.pg.mkPacket (e.f 16 2) 0x08 6 e.ctx (h1.pg.ctxGen e.ctx) (512 + e.f 18 2 % 16384 * 1024) 0 (e.f 22 2) true true (crc64 bs) bs 0xFF)).complete
        e.q e.cookie 6 0) := by
  refine (Hw.startEntry_ready r (by decide) _).trans (congrArg _ ?_)
  simp only [Nat.not_lt.mpr n, if_false, Hw.hostAns_ok]
  rfl

section HCopy
variable {h : Hw} {q : Nat} {e : SqEntry} {d : Dev} (r : h.entryReady q 5 e = true) (z : e.f 24 8 ≠ 0) (n : e.f 24 8 < 2 ^ 32)
include r z n

/-- HCOPY into context memory: the bytes are read from the host, stored, and journalled as an external input (R62). -/
theorem Hw.hcopy_in {segs : List Seg} (w : e.f 1 1 % 2 = 0)
    (x : (h.entryStarted q e).dev.translate .host 0xFF e.ctx (e.f 16 8) (e.f 24 8) true = (.ok segs, d))
    (j : (Pages.hostRx (e.f 24 8) d.pg).jIgnores e.ctx = false) :
    h.hifDo (Hw.hcopy q .ok) = h.afterHead q (
      let g := h.entryStarted q e
      let bs := d.mem.hostRead (g.pg.ctxFunc e.ctx) (e.f 8 8) (e.f 24 8)
      let h2 := ({ g with dev := d } : Hw).onPg (Pages.hostRx (e.f 24 8))
      ((h2.onDev (Dev.writeSegs .host (h2.pg.ctxId e.ctx) segs bs)).journal e.ctx 1 (e.f 16 8) bs).complete e.q e.cookie 5 0) := by
  refine (Hw.startEntry_ready r (by decide) _).trans (congrArg _ ?_)
  have live : (Hw.onPg (Pages.hostRx (e.f 24 8)) { h.entryStarted q e with dev := d }).pg.jIgnores e.ctx = false := j
  simp only [z, Nat.not_le.mpr n, or_self, if_false, w, decide_true, x, Hw.hostAns_ok, Bool.not_true, Bool.false_eq_true, if_true, live]

/-- HCOPY out of context memory, whose bytes are good. -/
theorem Hw.hcopy_out {segs : List Seg} {bs : List Byte} {d2 : Dev} (w : e.f 1 1 % 2 ≠ 0)
    (x : (h.entryStarted q e).dev.translate .host 0xFF e.ctx (e.f 16 8) (e.f 24 8) false = (.ok segs, d))
    (y : d.readSegs .host (d.pg.ctxId e.ctx) segs = (some bs, d2)) :
    h.hifDo (Hw.hcopy q .ok) = h.afterHead q (
      let g := h.entryStarted q e
      ((({ g with dev := d2 } : Hw).onMem (Mem.hostWrite (g.pg.ctxFunc e.ctx) (e.f 8 8) bs)).onPg (Pages.hostTx (e.f 24 8))).complete
        e.q e.cookie 5 0) := by
  refine (Hw.startEntry_ready r (by decide) _).trans (congrArg _ ?_)
  simp only [z, Nat.not_le.mpr n, or_self, if_false, w, decide_false, x, Hw.hostAns_ok, Bool.not_true, Bool.false_eq_true, y]

/-- HCOPY whose range does not translate moves nothing. -/
theorem Hw.hcopy_untranslated {v : XlReason} (x : (h.entryStarted q e).dev.translate .host 0xFF e.ctx (e.f 16 8) (e.f 24 8) (e.f 1 1 % 2 = 0) = (.error v, d))
    (a : HostAns) : h.hifDo (Hw.hcopy q a) = h.afterHead q (({ h.entryStarted q e with dev := d } : Hw).complete e.q e.cookie 5 0x0302) := by
  refine (Hw.startEntry_ready r (by decide) _).trans (congrArg _ ?_)
  simp only [z, Nat.not_le.mpr n, or_self, if_false, x]

end HCopy

/-- Settles O24: each entry by the work of its opcode on the device that has started it. -/
theorem queueEntries : Obligations.QueueEntries := by
  unfold Obligations.QueueEntries
  intro s q e up g
  refine ⟨fun r => ?nop, fun i c w o a re k => ?abort, fun r n => ?send, fun r z n segs d => ?hcopy⟩
  case nop => exact State.onHw_next up (Hw.startEntry_ready r (by decide) _)
  case abort =>
    have starts : s.hw.hifDo (Hw.abortCmd q.toNat) = _ := (Hw.hifDo_works w _).trans (Hw.abortCmd_starts o a re k)
    subst re
    refine ⟨fun x => ?_, fun l x n => ?_, fun l x n => ?_⟩
    · exact State.onHw_next up (starts.trans (congrArg _ (Hw.abortGo_nothing fun _ y => nomatch x.symm.trans y)))
    · exact State.onHw_next up (starts.trans (congrArg _ (Hw.abortGo_pends x n)))
    · exact State.onHw_next up (starts.trans (congrArg _ (Hw.abortGo_nothing fun _ y => Option.some.inj (x.symm.trans y) ▸ n)))
  case send => exact State.onHw_next up (Hw.sendCmd_ready r n)
  case hcopy =>
    refine ⟨fun w x j => ?_, fun w x bs d2 y => ?_, fun v w ew x a => ?_⟩
    · exact State.onHw_next up (Hw.hcopy_in r z n w x j)
    · exact State.onHw_next up (Hw.hcopy_out r z n w x y)
    · subst ew
      exact State.onHw_next up (Hw.hcopy_untranslated r z n x a)

/-! ## Doorbells, completions and staged messages (R60, R61, R450 to R457) -/

/-- A doorbell of a context that is not under replay waits. -/
theorem Hw.doorbell_waits {h : Hw} {q : Nat} (j : (h.pg.qOwner q).any h.pg.jIgnores = false) (w : W32) :
    h.doorbell q w = h.modQueue q fun x => { x with pend := x.pend ++ [w] } := by
  simp [Hw.doorbell, j]

/-- The oldest doorbell of a queue whose context's do not wait for the boundary. -/
theorem Hw.doorbellVisible_oldest {h : Hw} {q : Nat} {w : W32} {rest : List W32} (y : (h.pg.qOwner q).any h.dbSync = false)
    (p : (h.queue q).pend = w :: rest) : h.doorbellVisible q = (h.modQueue q fun x => { x with pend := rest }).dbVisible q w := by
  simp [Hw.doorbellVisible, Hw.dbNext, y, p]

/-- The oldest waiting completion of a CQ whose ring has room. -/
theorem Hw.completionPost_oldest {h : Hw} {q : Nat} {e : List Byte} {rest : List (List Byte)} (w : (h.queue q).waiting = e :: rest)
    (k : h.pg.qIs q 1 = true) (f : h.pg.ringFree q ≠ 0) :
    h.completionPost q =
      let h1 := (h.modQueue q fun x => { x with waiting := rest }).ringPut q 32 31 e
      if h1.stalled (cqSq e) then h1 else h1.onPg (Pages.setb (Reg.Q_STAT (cqSq e)) 28 false) := by
  simp [Hw.completionPost, w, k, f]

/-- The oldest staged message of a queue is too old. -/
theorem Hw.mrqTimeout_oldest {h : Hw} {q : Nat} {m : Staged} {rest : List Staged} (g : (h.queue q).staged = m :: rest) :
    h.mrqTimeout q = ((h.modQueue q fun x => { x with staged := rest }).mrqDrop q).showStage q := by
  simp only [Hw.mrqTimeout, g]

section Slots
variable {h : Hw} {q c : Nat} {m : Staged} (o : h.pg.qOwner q = some c) (b : h.pg.ctxSt c = 1) (k : h.pg.qIs q 2 = true)
include o b k

/-- A message that is being written is finished first. -/
theorem Hw.mrqSlotsFree_writing (w : (h.queue q).writing = some m) :
    h.mrqSlotsFree q = (h.modQueue q fun x => { x with writing := none }).mrqWrite q m := by
  simp [Hw.mrqSlotsFree, o, b, k, w]

/-- The oldest staged message, when its slots are free and no parity fault is armed. -/
theorem Hw.mrqSlotsFree_staged {rest : List Staged} (w : (h.queue q).writing = none) (g : (h.queue q).staged = m :: rest)
    (r : h.mrqReady q m = true) (u : h.pg.unarmed Pg.hif = true) :
    h.mrqSlotsFree q = ((h.modQueue q fun x => { x with staged := rest }).mrqWrite q m).showStage q := by
  simp [Hw.mrqSlotsFree, o, b, k, w, g, r, Pages.detect_unarmed u]

end Slots

/-- Settles O25: each event of the host interface by the function that does it. -/
theorem queueEvents : Obligations.QueueEvents := by
  unfold Obligations.QueueEvents
  intro s q up wk
  -- Each of these commands is work of the host interface, whose page works.
  have hif {f g : Hw → Hw} (e : f s.hw = g s.hw) : s.onHw (Hw.hifDo f) = .next (s.done g) := State.onHw_next up ((Hw.hifDo_works wk f).trans e)
  refine ⟨fun p w y j => ?bell, fun w rest y p => ?visible, fun e rest w k f => ?post, fun c m rest o b g => ?staged, fun c m o b w k => ?writing⟩
  case bell =>
    refine hif ?_
    simp only [y, if_true]
    exact Hw.doorbell_waits j w
  case visible => exact hif (Hw.doorbellVisible_oldest y p)
  case post => exact hif (Hw.completionPost_oldest w k f)
  case staged => exact ⟨hif (Hw.mrqTimeout_oldest g), fun w k r u => hif (Hw.mrqSlotsFree_staged o b k w g r u)⟩
  case writing => exact hif (Hw.mrqSlotsFree_writing o b k w)

end Sys2Proof.Machine

/-! # Proofs: packets of a context that the device accepts (R272, R273, R378, R379, R408, R458) -/

namespace Sys2Proof.Machine

/-! ## Data (R379) -/

/-- A PUT lands at its CVA. -/
theorem Hw.landTake_put (k : Packet) (t : Hw) : t.landTake 0x01 k = (t.landCva k).2 := by simp [Hw.landTake]

/-- A PUT_SCR lands in scratch. -/
theorem Hw.landTake_putScr (k : Packet) (t : Hw) : t.landTake 0x02 k = (t.landScr k).2 := by simp [Hw.landTake]

/-- A GET_RSP that lands counts for its XGET. -/
theorem Hw.landTake_getRsp (k : Packet) (t : Hw) :
    t.landTake 0x04 k = if (t.landCva k).1 then (t.landCva k).2.getDone k else (t.landCva k).2 := by simp [Hw.landTake]

/-- A GET_RSP_SCR that lands counts for its XGET. -/
theorem Hw.landTake_getRspScr (k : Packet) (t : Hw) :
    t.landTake 0x05 k = if (t.landScr k).1 then (t.landScr k).2.getDone k else (t.landScr k).2 := by simp [Hw.landTake]

/-! ## Reads (R272) -/

/-- A read of memory whose range translates and whose bytes are good is answered with them. -/
theorem Hw.getServe_memory {k : Packet} {t : Hw} {segs : List Seg} {d d2 : Dev} {bs : List Byte} (m : leAt k.payload 7 1 / 2 % 2 = 0)
    (x : t.dev.translate .remote (t.pg.lowBay k.ctx) k.ctx k.addr (leAt k.payload 8 4) false = (.ok segs, d))
    (r : d.readSegs .remote (some (k.ctx, k.gen)) segs = (some bs, d2)) :
    t.getServe k = ({ t with dev := d2 } : Hw).sendTransfer k.src (if leAt k.payload 7 1 % 2 = 1 then 0x05 else 0x04) 2 k.ctx k.gen
      (leAt k.payload 0 6) k.tag 0 bs := by
  simp only [leAt] at m x ⊢
  simp only [Hw.getServe, m, x, r]
  rfl

/-- A read of the scratch of a core inside the partition and the window is answered. -/
theorem Hw.getServe_scratch {k : Packet} {t : Hw} {l : Nat} (m : leAt k.payload 7 1 / 2 % 2 = 1)
    (x : t.pg.scrTarget k.ctx (leAt k.payload 6 1 % 128) k.addr (leAt k.payload 8 4) = some l) :
    t.getServe k = (t.scrOutside l k.addr (leAt k.payload 8 4)).2.sendTransfer k.src (if leAt k.payload 7 1 % 2 = 1 then 0x05 else 0x04) 2 k.ctx k.gen
      (leAt k.payload 0 6) k.tag 0 (t.scrOutside l k.addr (leAt k.payload 8 4)).1 := by
  simp only [leAt] at m x ⊢
  simp only [Hw.getServe, m, x, if_true]
  rfl

/-! ## Atomics (R273) -/

/-- In FAST mode an atomic that is applied is acknowledged. -/
theorem Hw.atomTake_fast {k : Packet} {t : Hw} (o : k.tag % 16 ≤ 6) (m : t.mode k.ctx = 0)
    (a : (t.atomApply k.ctx (k.tag % 16) k.addr (BitVec.ofNat 64 (ofBytesLE k.payload))).1 = true) :
    t.atomTake k = (t.atomApply k.ctx (k.tag % 16) k.addr (BitVec.ofNat 64 (ofBytesLE k.payload))).2.atomAck k := by
  simp only [Hw.atomTake, Nat.not_lt.mpr o, if_false, m, if_true, a]

/-- In the other modes an atomic that translates is held while there is room, and acknowledged. -/
theorem Hw.atomTake_held {k : Packet} {t : Hw} {segs : List Seg} {d : Dev} (o : k.tag % 16 ≤ 6) (m : t.mode k.ctx ≠ 0)
    (room : (t.ctx k.ctx).held.length < 4096)
    (x : t.dev.translate .dma (t.pg.lowBay k.ctx) k.ctx k.addr (aopSize (k.tag % 16)) true = (.ok segs, d)) :
    t.atomTake k = (({ t with dev := d } : Hw).modCtx k.ctx fun x =>
      { x with held := x.held ++ [⟨k.src, k.score, x.held.length, k.tag % 16, k.addr, BitVec.ofNat 64 (ofBytesLE k.payload)⟩] }).atomAck k := by
  have free : ¬4096 ≤ (({ t with dev := d } : Hw).ctx k.ctx).held.length := Nat.not_le.mpr room
  simp only [Hw.atomTake, Nat.not_lt.mpr o, if_false, m, x, free]

/-- An acknowledgement ends the oldest atomic outstanding at its source. -/
theorem Hw.ackTake_oldest {k : Packet} {t : Hw} {u : Nat × Nat} (f : (t.ctx k.ctx).unacked.find? (fun u => u.2 = k.src) = some u) :
    t.ackTake k =
      let h1 := t.modCtx k.ctx fun x => { x with unacked := x.unacked.filter (· ≠ u) }
      (h1.pg.partCores (h1.pg.ctxPart k.ctx)).foldl (fun h l => h.modOwned (h.pg.physOf l) k.ctx fun co =>
        { co with outs := co.outs.filter fun o => o.kind ≠ .xatom u.1 }) h1 := by
  simp only [Hw.ackTake, f]

/-! ## Messages (R214, R215, R456 to R458) -/

/-- A message from inside the group arrives at the FIFO of a core that can be reached. -/
theorem Hw.msgTake_inside {k : Packet} {t : Hw} {l : Nat} (c : t.pg.coreAt k.ctx (k.addr % 128) = some l) (r : t.reach l = true)
    (i : t.pg.inInstance (((t.ctx k.ctx).launch.map (·.group)).getD 0xFF) k.src = true) :
    t.msgTake k =
      let ci := t.ciOf l k.ctx
      let r := CV.fifoArrive ci k.resvKey (t.coreCtx l = some k.ctx) (k.tag % 65536) k.score k.src k.payload { pg := t.pg, core := t.core ci.n }
      let h2 := { t with dev := { t.dev with pg := r.2.pg } }.setCore ci.n r.2.core
      if r.1 && (k.addr / 256 % 2 = 1) then h2.countDecl k else h2 := by
  simp only [Hw.msgTake, c, r, i, Bool.not_true, Bool.false_and, Bool.false_eq_true, if_false, if_true]

/-- A message for the host, with none staged before it and its slots free, is written, whole or with its last slot still to come. -/
theorem Hw.hostTake_ready {k : Packet} {t : Hw} {q : Nat} (e : q = k.addr / 1024 % 16384) (w : t.pg.qIs q 2 = true)
    (o : t.pg.qOwner q = some k.ctx) (b : t.pg.ctxSt k.ctx = 1)
    (i : t.pg.inInstance (((t.ctx k.ctx).launch.map (·.group)).getD 0xFF) k.src = true) (g : (t.queue q).staged = [])
    (r : t.mrqReady q ⟨k.src, k.score, k.tag % 65536, t.pg.beatNum.toNat, k.payload, t.pg.fbc.toNat⟩ = true) (whole : Bool) :
    t.hostTake whole k =
      let m : Staged := ⟨k.src, k.score, k.tag % 65536, t.pg.beatNum.toNat, k.payload, t.pg.fbc.toNat⟩
      if whole then t.mrqWrite q m else t.modQueue q fun x => { x with writing := some m } := by
  subst e
  simp [Hw.hostTake, w, o, b, i, g, r]

/-! ## Collectives (R408, R417) -/

/-- A data packet meets the collective that it belongs to. -/
theorem Hw.dataTake_found {k : Packet} {t : Hw} {i : Nat} {co : Coll} (f : t.findColl k = some (i, co)) :
    t.dataTake k = (co.take k t).2.putColl i (co.take k t).1 := by
  simp only [Hw.dataTake, f]

/-- The first count of a peer, in range, is stored and bounds what the peer sends. -/
theorem Hw.cntTake_first {k : Packet} {t : Hw} {i m l : Nat} {co : Coll} {cs : List Nat} (f : t.findColl k = some (i, co))
    (x : co.nodes.findIdx? (· = k.src) = some m) (v : co.kind = .ca2av) (n : (co.counts.all fun x => x.1 ≠ m) = true)
    (g : k.tag % 65536 = co.ctag) (b : ofBytesLE k.payload ≤ co.count) (c : co.cores = l :: cs) :
    t.cntTake k =
      let n := ofBytesLE k.payload
      let h1 := t.scrInbound l (co.extra + 4 * (co.nodes.length + m)) (bytesLE 4 n)
      let c1 : Coll := { co with
        counts := co.counts ++ [(m, n)]
        ins := co.ins.map fun x =>
          if x.node = k.src then { x with want := some (n * co.esz), done := (x.done || n = 0) && decide (x.got = n * co.esz) } else x }
      let r := if co.ins.any fun x => x.node = k.src && decide (n * co.esz < x.got) then c1.fail 0 h1 else (c1, h1)
      r.2.putColl i r.1 := by
  simp only [Hw.cntTake, f, x, v, n, g, b, c, and_self, if_true]
  rfl

/-- Settles O33: what each kind of packet does once it is taken, under the clause's conditions. -/
theorem arrivingPackets : Obligations.ArrivingPackets := by
  unfold Obligations.ArrivingPackets
  intro s src k t up
  -- An accepted packet is taken as its kind is; where it may let cores go on, they do.
  have take {test : Packet → Bool} {f : Packet → Hw → Hw} {g : Hw} (a : s.hw.accepts test src k t) (e : f k t = g) :
      s.hw.onPacket test src f = g := (Hw.onPacket_accepts a f).trans e
  refine ⟨fun a => ?put, fun a => ?putScr, fun a => ?getRsp, fun a => ?getRspScr, fun a m segs d d2 bs x r => ?getReq, fun a m l x => ?getScr,
    fun a o => ⟨fun m ap => ?fast, fun m room segs d x => ?held⟩, fun a u f => ?ack, fun a l c r j i => ?msg,
    fun a => ?host, fun a i co f => ?data, fun a i co m l cs f x v n g b c => ?count⟩
  case put => exact State.onHw_next up (congrArg Hw.pumpAll (take a (Hw.landTake_put k t)))
  case putScr => exact State.onHw_next up (congrArg Hw.pumpAll (take a (Hw.landTake_putScr k t)))
  case getRsp => exact State.onHw_next up (congrArg Hw.pumpAll (take a (Hw.landTake_getRsp k t)))
  case getRspScr => exact State.onHw_next up (congrArg Hw.pumpAll (take a (Hw.landTake_getRspScr k t)))
  case getReq => exact State.onHw_next up (take a (Hw.getServe_memory m x r))
  case getScr => exact State.onHw_next up (take a (Hw.getServe_scratch m x))
  case fast => exact State.onHw_next up (take a (Hw.atomTake_fast o m ap))
  case held => exact State.onHw_next up (take a (Hw.atomTake_held o m room x))
  case ack => exact State.onHw_next up (congrArg Hw.pumpAll (take a (Hw.ackTake_oldest f)))
  case msg => exact State.onHw_next up (take a (Hw.msgTake_inside c r i))
  case host =>
    intro q m w o b j i g r
    exact ⟨State.onHw_next up (take a (Hw.hostTake_ready rfl w o b i g r true)),
      State.onHw_next up (take a (Hw.hostTake_ready rfl w o b i g r false))⟩
  case data => exact State.onHw_next up (congrArg Hw.pumpAll (take a (Hw.dataTake_found f)))
  case count => exact State.onHw_next up (congrArg Hw.pumpAll (take a (Hw.cntTake_first f x v n g b c)))

end Sys2Proof.Machine

/-! # Proofs: where an access leads, and writes of one register (R72 to R90) -/

namespace Sys2Proof.Machine

/-! ## The space of a virtual function (R75 to R77) -/

/-- A VF without a context sees nothing. -/
theorem Pages.targetVf_unbound {g : Pages} {f : Nat} (c : g.funcCtx f = 0xFF) (a : Nat) : g.targetVf f a = .gap none := by
  simp only [Pages.targetVf, c, if_true]

/-- The only page in a VF's space is the CTX page of its context. -/
theorem Pages.targetVf_page {g : Pages} {f a pg off : Nat} (e : g.targetVf f a = .page pg off) :
    g.funcCtx f ≠ 0xFF ∧ pg = Pg.ctx (g.funcCtx f) ∧ off < 4096 := by
  simp only [Pages.targetVf] at e
  split at e
  · cases e
  · rename_i bound
    split at e
    · rename_i low
      cases e
      exact ⟨bound, rfl, low⟩
    · split at e
      · split at e <;> cases e
      · cases e

/-- The doorbells in a VF's space are those of its context's queue range. -/
theorem Pages.targetVf_bell {g : Pages} {f a q sub : Nat} (e : g.targetVf f a = .bell q sub) :
    g.funcCtx f ≠ 0xFF ∧ g.get (Reg.CTX_QRANGE (g.funcCtx f)) 29 16 ≤ q ∧
      q < g.get (Reg.CTX_QRANGE (g.funcCtx f)) 29 16 + g.get (Reg.CTX_QRANGE (g.funcCtx f)) 9 0 := by
  simp only [Pages.targetVf] at e
  split at e
  · cases e
  · rename_i bound
    split at e
    · cases e
    · split at e
      · split at e
        · rename_i inside
          cases e
          exact ⟨bound, Nat.le_add_right _ _, Nat.add_lt_add_left inside _⟩
        · cases e
      · cases e

/-! ## A write of one aligned word (R87) -/

/-- At a register the word is that register's write. -/
theorem Hw.write32_page {h : Hw} {path : Path} {a pg off : Nat} (t : h.pg.target path a = .page pg off) (wi : WarmIn) (w : W32) :
    h.write32 wi path a w = h.writeCmd wi path pg off w := by
  simp only [Hw.write32, t, Hw.writeCmd]

/-- At a hole it is an access to the hole (R74). -/
theorem Hw.write32_hole {h : Hw} {path : Path} {a : Nat} (t : h.pg.target path a = .hole) (wi : WarmIn) (w : W32) :
    h.write32 wi path a w = h.onPg (Pages.holeAt path a) := by
  simp only [Hw.write32, Hw.flagAt, t]

/-- In the space of a VF without a context it is nothing. -/
theorem Hw.write32_unbound {h : Hw} {f : Nat} (c : h.pg.funcCtx (f + 1) = 0xFF) (wi : WarmIn) (a : Nat) (w : W32) :
    h.write32 wi (.host (f + 1)) a w = h := by
  have t : h.pg.target (.host (f + 1)) a = .gap none := Pages.targetVf_unbound c a
  simp only [Hw.write32, Hw.flagAt, t]

/-- REGISTER_WRITE of one aligned word. -/
theorem exec_registerWrite_word {s : State} {p : Path} {a : BitVec 26} {w : W32} {g : Hw → Hw} (up : s.hw.up = true) (al : a.toNat % 4 = 0)
    (e : s.hw.write32 WarmIn.good p a.toNat w = g s.hw) : exec (.registerWrite p a true (bytesLE 4 w.toNat)) s = .next (s.done g) :=
  State.onHw_next up ((Hw.writeBytes_word s.hw WarmIn.good p w al).trans e)

/-- The same at an address that leads to a register. -/
theorem exec_registerWrite_page {s : State} {p : Path} {a : BitVec 26} {w : W32} {pg off : Nat} {g : Hw → Hw} (up : s.hw.up = true)
    (al : a.toNat % 4 = 0) (t : s.hw.pg.target p a.toNat = .page pg off) (e : s.hw.writeCmd WarmIn.good p pg off w = g s.hw) :
    exec (.registerWrite p a true (bytesLE 4 w.toNat)) s = .next (s.done g) :=
  exec_registerWrite_word up al ((Hw.write32_page t WarmIn.good w).trans e)

/-- A write that is no run of whole words with every byte enabled is flagged NARROW at its register. -/
theorem Hw.writeBytes_narrow {h : Hw} {path : Path} {a pg off : Nat} {full : Bool} {bs : List Byte} (t : h.pg.target path a = .page pg off)
    (n : (full && decide (a % 4 = 0) && decide (bs.length % 4 = 0)) = false) (wi : WarmIn) :
    h.writeBytes wi path a full bs = h.flag pg off path .narrow := by
  simp only [Hw.writeBytes, n, Bool.false_and, Bool.false_eq_true, if_false, Hw.flagAt, t]

/-- Settles O57: the first two parts by what a VF's address leads to, the third by the gap that it then always is. -/
theorem vfSeesOwnContext : Obligations.VfSeesOwnContext := by
  unfold Obligations.VfSeesOwnContext
  refine ⟨fun g f a pg off e => Pages.targetVf_page e, fun g f a q sub e => Pages.targetVf_bell e, fun s f a w up quiet c al => ?write⟩
  case write =>
    rw [exec_registerWrite_word (g := id) up al (Hw.write32_unbound c WarmIn.good a.toNat w), State.done, id, Hw.sendOut_quiet quiet]

/-! ## What the access rules make of a write (R76 to R82, R89, R92) -/

/-- A write that the access rules let through without an error. -/
theorem Hw.writeCmd_done {h t : Hw} {wi : WarmIn} {path : Path} {pg off : Nat} {w : W32} (e : h.writeReg wi path pg off w = (none, t)) :
    h.writeCmd wi path pg off w = t := by
  simp only [Hw.writeCmd, e, Hw.flagOpt]

/-- A write that they turn away is flagged, and that is all. -/
theorem Hw.writeCmd_turnedAway {h : Hw} {wi : WarmIn} {path : Path} {pg off : Nat} {w : W32} {e : AccErr}
    (x : h.writeReg wi path pg off w = (some e, h)) : h.writeCmd wi path pg off w = h.flag pg off path e := by
  simp only [Hw.writeCmd, x, Hw.flagOpt]

/-- A register that the management VC alone may write is denied to every other path (R78). -/
theorem RegWho.dareder_denies {path : Path} (n : path ≠ .mgmt) : RegWho.dareder.denies path = some .hostDenied := by
  cases path with
  | host f => rfl
  | chaise => rfl
  | mgmt => exact absurd rfl n

/-- An offset of the page's block lies behind the header, if the page has one. -/
theorem not_header_of_block {pg off : Nat} (block : hasHeader pg = true → 0x40 ≤ off) : (hasHeader pg && decide (off < 0x40)) = false := by
  cases e : hasHeader pg with
  | false => rfl
  | true => simpa using block e

section Row
variable {h : Hw} {path : Path} {pg off : Nat} {r : RegRow} (quiet : h.pg.inReset pg = false) (block : hasHeader pg = true → 0x40 ≤ off)
  (hr : regRow pg off = some r) (home : homePage pg off = pg)
include quiet block hr home

/-- A path that may not write a register. -/
theorem Hw.writeReg_denied {e : AccErr} (d : r.who.denies path = some e) (wi : WarmIn) (w : W32) :
    h.writeReg wi path pg off w = (some e, h) := by
  simp [Hw.writeReg, quiet, not_header_of_block block, hr, home, d]

variable (d : r.who.denies path = none)
include d

/-- A register without written fields. -/
theorem Hw.writeReg_readOnly (k : r.kind = .plain) (wr : r.wr = 0) (c1 : r.c1 = 0) (wo : r.wo = 0) (wi : WarmIn) (w : W32) :
    h.writeReg wi path pg off w = (some .ro, h) := by
  simp [Hw.writeReg, quiet, not_header_of_block block, hr, home, d, k, wr, c1, wo]

/-- A register whose page is locked. -/
theorem Hw.writeReg_locked (k : r.kind = .locked) (wr : r.wr ≠ 0) (l : h.pg.bit (Reg.PG_CTRL pg) 2 = true) (wi : WarmIn) (w : W32) :
    h.writeReg wi path pg off w = (some .locked, h) := by
  simp [Hw.writeReg, quiet, not_header_of_block block, hr, home, d, k, wr, l]

/-- The low word of an event-counter pair clears the pair. -/
theorem Hw.writeReg_eventLo (k : r.kind = .eventLo) (wi : WarmIn) (w : W32) :
    h.writeReg wi path pg off w = (none, h.onPg (Pages.wr64 (regKey pg off) 0)) := by
  simp [Hw.writeReg, quiet, not_header_of_block block, hr, home, d, k]

/-- The high word clears it too. -/
theorem Hw.writeReg_eventHi (k : r.kind = .eventHi) (wi : WarmIn) (w : W32) :
    h.writeReg wi path pg off w = (none, h.onPg (Pages.wr64 (regKey pg (off - 4)) 0)) := by
  simp [Hw.writeReg, quiet, not_header_of_block block, hr, home, d, k]

end Row

/-- Settles O11: each clause by the rule that turns its write away. -/
theorem turnedAwayWrites : Obligations.TurnedAwayWrites := by
  unfold Obligations.TurnedAwayWrites
  intro s p a pg off w up t
  refine ⟨fun r al quiet block hr home => ⟨fun who path => ?denied, fun d k wr c1 wo => ?readOnly, fun d k wr l => ?locked⟩,
    fun full bs n => State.onHw_next up (Hw.writeBytes_narrow t n WarmIn.good)⟩ <;>
    refine exec_registerWrite_page up al t (Hw.writeCmd_turnedAway ?_)
  case denied => exact Hw.writeReg_denied quiet block hr home (who ▸ RegWho.dareder_denies path) _ w
  case readOnly => exact Hw.writeReg_readOnly quiet block hr home d k wr c1 wo _ w
  case locked => exact Hw.writeReg_locked quiet block hr home d k wr l _ w

/-! ## Admitted writes (R79, R89) -/

/-- The kinds of page whose registers have no rule of their own. -/
def plainKinds : List PageKind := [.dev, .scr, .ntc, .ftc, .bcu, .clk, .therm, .ras, .tele]

/-- There a write stores its fields. -/
theorem Hw.blockWrite_plain {pg : Nat} (k : pageKind pg ∈ plainKinds) (wi : WarmIn) (off : Nat) (r : RegRow) (w : W32) (h : Hw) :
    h.blockWrite wi pg off r w = (true, h.store pg off r w) := by
  simp only [plainKinds, List.mem_cons, List.not_mem_nil, or_false] at k
  rcases k with k | k | k | k | k | k | k | k | k <;> simp only [Hw.blockWrite, k]

section Admitted
variable {s : State} {p : Path} {a : BitVec 26} {pg off : Nat} {r : RegRow} (up : s.hw.up = true) (al : a.toNat % 4 = 0)
  (t : s.hw.pg.target p a.toNat = .page pg off) (ad : s.hw.admits p pg off = true) (hr : regRow pg off = some r)
include up al t ad hr

/-- An admitted write that its page takes. -/
theorem exec_registerWrite_taken {w : W32} {g : Hw → Hw} (e : s.hw.blockWrite WarmIn.good pg off r w = (true, g s.hw)) :
    exec (.registerWrite p a true (bytesLE 4 w.toNat)) s = .next (s.done g) :=
  exec_registerWrite_page up al t ((Hw.writeCmd_admits ad hr _ w).trans (by simp only [e, if_true]))

/-- An admitted write that its page refuses. -/
theorem exec_registerWrite_refused {w : W32} {g : Hw → Hw} (e : s.hw.blockWrite WarmIn.good pg off r w = (false, g s.hw)) :
    exec (.registerWrite p a true (bytesLE 4 w.toNat)) s = .next (s.done fun h => (g h).flag pg off p .state) :=
  exec_registerWrite_page up al t ((Hw.writeCmd_admits ad hr _ w).trans (by simp only [e, Bool.false_eq_true, if_false]))

/-- An admitted write of a register without a rule of its own. -/
theorem exec_registerWrite_plain (k : pageKind pg ∈ plainKinds) (w : W32) :
    exec (.registerWrite p a true (bytesLE 4 w.toNat)) s = .next (s.done (Hw.onPg (Pages.upd (regKey pg off) fun old => r.mix old w))) :=
  exec_registerWrite_taken up al t ad hr (Hw.blockWrite_plain k WarmIn.good off r w s.hw)

end Admitted

/-- Settles O10: an admitted write is judged by its page alone. -/
theorem admittedRegisterWrite : Obligations.AdmittedRegisterWrite := by
  unfold Obligations.AdmittedRegisterWrite
  intro s p a pg off r w up al t ad hr
  exact ⟨fun k => exec_registerWrite_plain up al t ad hr k w, fun taken => exec_registerWrite_taken up al t ad hr (Prod.ext taken rfl),
    fun refused => exec_registerWrite_refused up al t ad hr (Prod.ext refused rfl)⟩

/-- An updated register reads what the update makes of it, and every other as before. -/
theorem Pages.rd_upd (p : Pages) (k j : Nat) (f : W32 → W32) : (p.upd k f).rd j = if j = k then f (p.rd k) else p.rd j :=
  Pages.rd_wr p k j _

/-- Settles O60: the write is one update of one register, and no message waits to be sent out behind it. -/
theorem plainWriteFrame : Obligations.PlainWriteFrame := by
  unfold Obligations.PlainWriteFrame
  intro s p a pg off r w up quiet al t ad hr k
  refine ⟨_, exec_registerWrite_plain up al t ad hr k w, ?_⟩
  have sent : (s.hw.onPg (Pages.upd (regKey pg off) fun old => r.mix old w)).sendOut = s.hw.onPg (Pages.upd (regKey pg off) fun old => r.mix old w) :=
    Hw.sendOut_quiet quiet
  rw [State.done_hw, sent]
  refine ⟨?register, fun j other => ?others, rfl, rfl, rfl⟩
  case register => exact (Pages.rd_upd s.hw.pg _ _ _).trans (if_pos rfl)
  case others => exact (Pages.rd_upd s.hw.pg _ j _).trans (if_neg other)

end Sys2Proof.Machine

/-! # Proofs: reads of register space, and accesses with an effect of their own (R74, R83, R87, R88, R91, R92) -/

namespace Sys2Proof.Machine

/-! ## What a read of one register gives (R82, R83, R88) -/

/-- A FUSE word reads as it stands while no injection is armed. -/
theorem Hw.fuseWord_unarmed {h : Hw} (u : h.pg.unarmed Pg.fuse = true) (off : Nat) : (h.fuseWord off).2.2 = h := by
  simp only [Hw.fuseWord, Pages.detect_unarmed u]
  rfl

/-- Settles O56: of the branches of a read only the RSN low word's and a FUSE word's touch the device. -/
theorem readsWithoutEffect : Obligations.ReadsWithoutEffect := by
  unfold Obligations.ReadsWithoutEffect
  intro h p pg off plain fuse
  unfold Hw.readReg
  split
  case isTrue => rfl
  case isFalse =>
    split
    case isTrue => rfl
    case isFalse =>
      dsimp only
      split
      case h_1 => rfl
      case h_2 r hr =>
        obtain ⟨noEvent, noTime⟩ := plain r hr
        split
        case h_1 k => exact absurd k noEvent
        case h_2 k => exact absurd k noTime
        case h_3 => rfl
        case h_4 => rfl
        all_goals
          split
          case isTrue f => exact Hw.fuseWord_unarmed (fuse f) off
          case isFalse => rfl

/-- PG_STAT reads in a block reset as at any other time (R82). -/
theorem Hw.readReg_pgStat {pg : Nat} (hd : hasHeader pg = true) (path : Path) (h : Hw) : h.readReg path pg 0x00C = (h.pg.pgStat pg, h) := by
  simp [Hw.readReg, hd, Pages.hdrWord]

/-- The bits of PG_STAT: three are formed as they are read, the others stand in the register. -/
theorem Pages.wbit_pgStat (p : Pages) (pg i : Nat) :
    wbit (p.pgStat pg) i =
      if i = 28 then p.enabled pg else if i = 29 then p.bit (Reg.PG_CTRL pg) 2 else if i = 30 then p.fenced pg else p.bit (Reg.PG_STAT pg) i := by
  simp only [Pages.pgStat, wbit_setBit _ (show 28 < 32 by decide), wbit_setBit _ (show 29 < 32 by decide),
    wbit_setBit _ (show 30 < 32 by decide), Pages.bit_eq]

/-- Settles O14: PG_STAT bit by bit. -/
theorem pageStatusReads : Obligations.PageStatusReads := by
  unfold Obligations.PageStatusReads
  intro h p pg hd
  rw [Hw.readReg_pgStat hd]
  have bit := h.pg.wbit_pgStat pg
  refine ⟨rfl, bit 31, bit 30, bit 29, bit 28, fun i low => ?_⟩
  rw [bit i, if_neg (by omega), if_neg (by omega), if_neg (by omega)]

/-! ## RSN pairs (R91) -/

section Rsn
variable {h : Hw} {pg off : Nat} {r : RegRow} (quiet : h.pg.inReset pg = false) (block : hasHeader pg = true → 0x40 ≤ off)
  (hr : regRow pg off = some r) (home : homePage pg off = pg)
include quiet block hr home

/-- The low word of a time-counter pair takes the pair's snapshot. -/
theorem Hw.readReg_timeLo (k : r.kind = .timeLo) (path : Path) :
    h.readReg path pg off = (lo32 (h.pg.pairOf pg off), h.onPg fun g => (g.readLo path pg off).2) := by
  simp [Hw.readReg, quiet, not_header_of_block block, home, hr, k, Pages.readLo, Hw.onPg, Dev.onPg]

/-- The high word reads the snapshot. -/
theorem Hw.readReg_timeHi (k : r.kind = .timeHi) (path : Path) : h.readReg path pg off = (h.pg.readHi path pg off, h) := by
  simp [Hw.readReg, quiet, not_header_of_block block, home, hr, k]

end Rsn

/-! ## Reads of words (R87) -/

theorem Hw.readWord_page {h : Hw} {path : Path} {a pg off : Nat} (t : h.pg.target path a = .page pg off) :
    h.readWord path a = h.readReg path pg off := by
  simp only [Hw.readWord, t]

theorem Hw.readWord_hole {h : Hw} {path : Path} {a : Nat} (t : h.pg.target path a = .hole) :
    h.readWord path a = (0, h.onPg (Pages.holeAt path a)) := by
  simp only [Hw.readWord, t]

/-- A read of one aligned word. -/
theorem Hw.readBytes_word {h h1 : Hw} {path : Path} {a : Nat} {x : W32} (al : a % 4 = 0) (e : h.readWord path a = (x, h1)) :
    h.readBytes path a 4 = (bytesLE 4 x.toNat, h1) := by
  have base : a / 4 * 4 = a := by omega
  simp only [Hw.readBytes, al, base, show ceilDiv (0 + 4) 4 = 1 from rfl, Hw.readWords, e]
  rfl

/-- A read of two: the second meets the device that the first leaves. -/
theorem Hw.readBytes_twoWords {h h1 h2 : Hw} {path : Path} {a : Nat} {x y : W32} (al : a % 4 = 0) (e : h.readWord path a = (x, h1))
    (e2 : h1.readWord path (a + 4) = (y, h2)) : h.readBytes path a 8 = (bytesLE 4 x.toNat ++ bytesLE 4 y.toNat, h2) := by
  have base : a / 4 * 4 = a := by omega
  simp only [Hw.readBytes, al, base, show ceilDiv (0 + 8) 4 = 2 from rfl, Hw.readWords, e, e2]
  rfl

/-- The bytes of a number, split. -/
theorem bytesLE_add (m n v : Nat) : bytesLE (m + n) v = bytesLE m v ++ bytesLE n (v / 256 ^ m) := by
  induction m generalizing v with
  | zero => simp [bytesLE]
  | succ m ih =>
    rw [Nat.succ_add, bytesLE, ih, bytesLE, List.cons_append, Nat.div_div_eq_div_mul, pow_succ']

/-- Bytes beyond those listed do not matter. -/
theorem bytesLE_mod (n v : Nat) : bytesLE n (v % 256 ^ n) = bytesLE n v := by
  induction n generalizing v with
  | zero => rfl
  | succ n ih =>
    have low : BitVec.ofNat 8 (v % 256 ^ (n + 1)) = BitVec.ofNat 8 v := by
      apply BitVec.eq_of_toNat_eq
      simp [pow_succ', Nat.mod_mul]
    rw [bytesLE, bytesLE, low, pow_succ', Nat.mod_mul_right_div_self, ih]

/-- The bytes of the two words of a pair are the pair's. -/
theorem bytesLE_lo_hi (v : W64) : bytesLE 4 (lo32 v).toNat ++ bytesLE 4 (hi32 v).toNat = bytesLE 8 v.toNat := by
  have word (x : Nat) : bytesLE 4 (BitVec.ofNat 32 x).toNat = bytesLE 4 x := bytesLE_mod 4 x
  rw [lo32, hi32, word, word]
  exact (bytesLE_add 4 4 v.toNat).symm

/-! ## BEAT_FBC (R26, R91) -/

/-- The PF, the Chaise and the management VC see BEAT_FBC at the same two addresses. -/
theorem Pages.target_fbc {path : Path} (m : path ∈ [Path.host 0, .chaise, .mgmt]) (g : Pages) :
    g.target path 0x1040 = .page Pg.beat 0x040 ∧ g.target path 0x1044 = .page Pg.beat 0x044 := by
  simp only [List.mem_cons, List.not_mem_nil, or_false] at m
  rcases m with rfl | rfl | rfl <;> exact ⟨rfl, rfl⟩

/-- The snapshot that a read of BEAT_FBC's low word takes. -/
def Pages.snapFbc (path : Path) (g : Pages) : Pages :=
  { g with snap := tset (fun _ => 0) g.snap (snapKey Pg.beat 0x040 path) (hi32 g.fbc) }

/-- A read of both words of BEAT_FBC gives the count as it stood when the low word was read. -/
theorem Hw.readBytes_fbc {h : Hw} {path : Path} (m : path ∈ [Path.host 0, .chaise, .mgmt]) (quiet : h.pg.inReset Pg.beat = false) :
    h.readBytes path 0x1040 8 = (bytesLE 8 h.pg.fbc.toNat, h.onPg (Pages.snapFbc path)) := by
  have low : h.readWord path 0x1040 = (lo32 h.pg.fbc, h.onPg (Pages.snapFbc path)) :=
    (Hw.readWord_page (Pages.target_fbc m _).1).trans (Hw.readReg_timeLo quiet (fun _ => by decide) rfl rfl rfl path)
  have high : (h.onPg (Pages.snapFbc path)).readWord path 0x1044 = (hi32 h.pg.fbc, h.onPg (Pages.snapFbc path)) := by
    have still : (h.onPg (Pages.snapFbc path)).pg.inReset Pg.beat = false := quiet
    refine (Hw.readWord_page (Pages.target_fbc m _).2).trans ((Hw.readReg_timeHi (off := 0x044) still (fun _ => by decide) rfl rfl rfl path).trans ?_)
    exact congrArg (·, _) (tget_tset_self _ _ _ _)
  rw [Hw.readBytes_twoWords rfl low high, bytesLE_lo_hi]

/-- Settles O12: each access by where its address leads. -/
theorem specialAccesses : Obligations.SpecialAccesses := by
  unfold Obligations.SpecialAccesses
  intro s p up
  refine ⟨fun a t => ⟨State.onHw_next up ?holeWrite, State.onHw_next up ?holeRead⟩, fun m quiet => State.onHw_next up ?snapshot,
    fun a w pg off r t hr quiet block home d => ⟨fun k => State.onHw_next up ?low, fun k => State.onHw_next up ?high⟩⟩
  case holeWrite => simp only [t, ne_eq, not_true_eq_false, if_false, if_true, Hw.write32_hole t]
  case holeRead =>
    have e := Hw.readBytes_word (Nat.mul_mod_left _ 4) (Hw.readWord_hole t)
    simp only [t, ne_eq, not_true_eq_false, if_false, Bool.false_eq_true, Hw.readCmd, e]
    rfl
  case snapshot =>
    have e : s.hw.readBytes p (0x1040#26).toNat (8 : Fin 65).val = _ := Hw.readBytes_fbc m quiet
    simp only [Hw.readCmd, e]
    rfl
  case low =>
    simp only [t, hr, k, Option.any_some, decide_true, Bool.true_or, if_true, Hw.write32_page t]
    exact Hw.writeCmd_done (Hw.writeReg_eventLo quiet block hr home d k WarmIn.good w)
  case high =>
    simp only [t, hr, k, Option.any_some, decide_true, Bool.or_true, if_true, Hw.write32_page t]
    exact Hw.writeCmd_done (Hw.writeReg_eventHi quiet block hr home d k WarmIn.good w)

end Sys2Proof.Machine

/-! # Proofs: the page header and its counters (R79 to R93) -/

namespace Sys2Proof.Machine

/-! ## PG_CTRL (R81, R82) -/

/-- What a command bit of PG_CTRL is written with: the bit, and ENABLE. -/
def ctrlWord (bit : Nat) (en : Bool) : W32 := BitVec.ofNat 32 (2 ^ bit + en.toNat)

theorem wbit_ctrlWord {b i : Nat} (hb : 0 < b) (hb' : b < 32) (hi : i < 32) (en : Bool) :
    wbit (ctrlWord b en) i = (decide (i = b) || (decide (i = 0) && en)) := by
  have all : ∀ (en : Bool) (b i : Fin 32), 0 < b.val → wbit (ctrlWord b en) i = (decide (i.val = b.val) || (decide (i.val = 0) && en)) := by
    decide +kernel
  exact all en ⟨b, hb'⟩ ⟨i, hi⟩ hb

/-- A word that holds ENABLE alone. -/
theorem wbit_enableWord {i : Nat} (hi : i < 32) (on : Bool) : wbit (BitVec.ofNat 32 on.toNat) i = (decide (i = 0) && on) := by
  have all : ∀ (on : Bool) (i : Fin 32), wbit (BitVec.ofNat 32 on.toNat) i = (decide (i.val = 0) && on) := by decide +kernel
  exact all on ⟨i, hi⟩

/-- The header of a page that is not in reset is written through the header's rules. -/
theorem Hw.writeReg_header {h : Hw} {pg off : Nat} (hd : hasHeader pg = true) (quiet : h.pg.inReset pg = false) (low : off < 0x40) (wi : WarmIn)
    (path : Path) (w : W32) : h.writeReg wi path pg off w = h.hdrWrite pg off w := by
  simp [Hw.writeReg, hd, quiet, low]

/-- PG_CTRL answers STATE where its write is refused. -/
theorem Hw.hdrWrite_ctrl (h : Hw) (pg : Nat) (w : W32) :
    h.hdrWrite pg 8 w = (if (h.pgCtrl pg w).1 then none else some .state, (h.pgCtrl pg w).2) := rfl

section Ctrl
variable {h t : Hw} {path : Path} {pg : Nat} (hd : hasHeader pg = true) (quiet : h.pg.inReset pg = false)
include hd quiet

/-- A write of PG_CTRL that is not refused. -/
theorem Hw.writeCmd_pgCtrl {w : W32} (e : h.pgCtrl pg w = (true, t)) (wi : WarmIn) : h.writeCmd wi path pg 8 w = t := by
  refine Hw.writeCmd_done ((Hw.writeReg_header hd quiet (by decide) wi path w).trans ?_)
  simp only [Hw.hdrWrite_ctrl, e, if_true]

/-- A command bit of PG_CTRL is written with ENABLE as it stands. -/
theorem Hw.ctrlBit_page {page bit o : Nat} (t0 : h.pg.target path (4096 * page) = .page pg o) (t8 : h.pg.target path (4096 * page + 8) = .page pg 8)
    (e : h.pgCtrl pg (ctrlWord bit (h.pg.enabled pg)) = (true, t)) : h.ctrlBit path page bit = t := by
  simp only [Hw.ctrlBit, t0, Hw.write32_page t8]
  exact Hw.writeCmd_pgCtrl hd quiet e WarmIn.good

end Ctrl

section Commands
variable (h : Hw) (pg : Nat) (en : Bool)

/-- BLOCK_RESET where the page takes it. -/
theorem Hw.pgCtrl_blockReset (ok : h.pg.blockResetBad pg = false) :
    h.pgCtrl pg (ctrlWord 31 en) = (true, ((h.enablePage pg en).blockReset pg).2) := by
  simp [Hw.pgCtrl, wbit_ctrlWord, ok]

theorem Hw.pgCtrl_clrCnt : h.pgCtrl pg (ctrlWord 30 en) = (true, (h.clrCnt pg).enablePage pg en) := by
  simp [Hw.pgCtrl, wbit_ctrlWord]

theorem Hw.pgCtrl_lock : h.pgCtrl pg (ctrlWord 2 en) = (true, (h.onPg (Pages.setb (Reg.PG_CTRL pg) 2 true)).enablePage pg en) := by
  simp [Hw.pgCtrl, wbit_ctrlWord]

theorem Hw.pgCtrl_fence : h.pgCtrl pg (ctrlWord 1 en) = (true, (h.fencePage pg).enablePage pg en) := by
  simp [Hw.pgCtrl, wbit_ctrlWord]

theorem Hw.pgCtrl_enable : h.pgCtrl pg (BitVec.ofNat 32 en.toNat) = (true, h.enablePage pg en) := by
  simp only [Hw.pgCtrl, wbit_enableWord (show 31 < 32 by decide), wbit_enableWord (show 30 < 32 by decide), wbit_enableWord (show 2 < 32 by decide),
    wbit_enableWord (show 1 < 32 by decide), wbit_enableWord (show 0 < 32 by decide)]
  rfl

end Commands

/-- PG_INT_FORCE sets the block's bits of PG_INT_STAT that it names (R79). -/
theorem Hw.writeCmd_intForce {h : Hw} {pg : Nat} (hd : hasHeader pg = true) (quiet : h.pg.inReset pg = false) (wi : WarmIn) (path : Path) (w : W32) :
    h.writeCmd wi path pg 0x18 w = h.onPg (Pages.upd (Reg.PG_INT_STAT pg) fun o => o ||| (w &&& 0x7FFFFFFF#32)) :=
  Hw.writeCmd_done (Hw.writeReg_header hd quiet (by decide) wi path w)

/-- Settles O13: each command by the field of PG_CTRL that it sets, PG_INT_FORCE by its own write, the end of a reset by IN_RESET. -/
theorem pageHeaderCommands : Obligations.PageHeaderCommands := by
  unfold Obligations.PageHeaderCommands
  intro s p n pg up hd
  refine ⟨fun quiet t0 t8 => ?ctrl, fun quiet t w => ?force, fun inReset t => ?done⟩
  case ctrl =>
    -- Each command bit is one write of PG_CTRL.
    have cmd {bit : Nat} {f : Hw → Hw} (e : s.hw.pgCtrl pg (ctrlWord bit (s.hw.pg.enabled pg)) = (true, f s.hw)) :
        s.onHw (Hw.ctrlBit p n.toNat bit) = .next (s.done f) := State.onHw_next up (Hw.ctrlBit_page hd quiet t0 t8 e)
    refine ⟨fun ok => ?reset, ?clear, ?lock, ?fence, fun on => ?enable⟩
    case reset => exact cmd (Hw.pgCtrl_blockReset s.hw pg _ ok)
    case clear => exact cmd (Hw.pgCtrl_clrCnt s.hw pg _)
    case lock => exact cmd (Hw.pgCtrl_lock s.hw pg _)
    case fence => exact cmd (Hw.pgCtrl_fence s.hw pg _)
    case enable => exact State.onHw_next up ((Hw.write32_page t8 _ _).trans (Hw.writeCmd_pgCtrl hd quiet (Hw.pgCtrl_enable s.hw pg on) _))
  case force => exact State.onHw_next up ((Hw.write32_page t _ _).trans (Hw.writeCmd_intForce hd quiet _ p w))
  case done =>
    refine State.onHw_next up ?_
    simp only [t, Hw.blockResetDone, inReset, if_true]

/-! ## Event counters (R91) -/

/-- OVF of a pair as a number. -/
theorem wbit_ovf (v : W64) : wbit v 63 = decide (2 ^ 63 ≤ v.toNat) := (BitVec.msb_eq_getLsbD_last v).symm.trans (BitVec.msb_eq_decide v)

/-- What a pair that holds v holds after n more. -/
theorem Pages.rd64_count (p : Pages) (k n : Nat) :
    (p.count k n).rd64 k = BitVec.ofNat 64 (((p.rd64 k).toNat % 2 ^ 63 + n) % 2 ^ 63 +
      if decide (2 ^ 63 ≤ (p.rd64 k).toNat % 2 ^ 63 + n) || decide (2 ^ 63 ≤ (p.rd64 k).toNat) then 2 ^ 63 else 0) :=
  Pages.rd64_wr64 p k _

/-- A word of 63 bits and a bit above them. -/
theorem toNat_ovfWord (c : Nat) (b : Bool) : (BitVec.ofNat 64 (c % 2 ^ 63 + if b then 2 ^ 63 else 0)).toNat = c % 2 ^ 63 + if b then 2 ^ 63 else 0 := by
  rw [BitVec.toNat_ofNat, Nat.mod_eq_of_lt]
  split <;> omega

/-- Bit 63 of such a word is the bit above. -/
theorem ovfWord_overflow (c : Nat) (b : Bool) : decide (2 ^ 63 ≤ c % 2 ^ 63 + if b then 2 ^ 63 else 0) = b := by
  cases b with
  | false => simp; omega
  | true => simp

/-- Settles O15: bits [62:0] and bit 63 of the word that a count leaves. -/
theorem eventCountersWrap : Obligations.EventCountersWrap := by
  unfold Obligations.EventCountersWrap
  intro p k n _
  refine ⟨?value, ?overflow, fun j low high => Pages.rd_wr64_ne p k j _ low high⟩
  case value =>
    rw [Pages.rd64_count, toNat_ovfWord]
    split <;> omega
  case overflow =>
    rw [wbit_ovf, wbit_ovf, Pages.rd64_count, toNat_ovfWord, ovfWord_overflow, Bool.or_comm]

end Sys2Proof.Machine

/-! # Proofs: memory as bytes (R94, R97, R104) -/

namespace Sys2Proof.Machine

/-! ## Consecutive keys of a table -/

section
variable {α : Type}

theorem length_tgetList (d : Nat → α) (t : Tbl α) (k n : Nat) : (tgetList d t k n).length = n := by
  induction n generalizing k with
  | zero => rfl
  | succ n ih => simp [tgetList, ih]

/-- Element i of a read of consecutive keys. -/
theorem getElem_tgetList (d : Nat → α) (t : Tbl α) (k n i : Nat) (hi : i < (tgetList d t k n).length) : (tgetList d t k n)[i] = tget d t (k + i) := by
  induction n generalizing k i with
  | zero => simp [tgetList] at hi
  | succ n ih =>
    cases i with
    | zero => rfl
    | succ i =>
      simp only [tgetList, List.getElem_cons_succ]
      rw [ih, show k + 1 + i = k + (i + 1) by omega]

variable [DecidableEq α]

/-- A read of consecutive keys gives what was written to them. -/
theorem tgetList_tsetList_self (d : Nat → α) (t : Tbl α) (k : Nat) (vs : List α) : tgetList d (tsetList d t k vs) k vs.length = vs := by
  refine List.ext_getElem (length_tgetList ..) fun i _ hi => ?_
  rw [getElem_tgetList, tget_tsetList, if_pos (by omega), Nat.add_sub_cancel_left, List.getD_eq_getElem _ _ hi]

/-- A write of other keys does not show in a read. -/
theorem tgetList_tsetList_apart (d : Nat → α) (t : Tbl α) {k j n : Nat} {vs : List α} (a : j + n ≤ k ∨ k + vs.length ≤ j) :
    tgetList d (tsetList d t k vs) j n = tgetList d t j n := by
  refine List.ext_getElem (by simp only [length_tgetList]) fun i hi _ => ?_
  rw [length_tgetList] at hi
  rw [getElem_tgetList, getElem_tgetList, tget_tsetList, if_neg (by omega)]

end

/-! ## Host memory -/

/-- The addresses of different functions are apart in host memory (R97). -/
theorem busKey_apart {f g : Nat} (ne : g ≠ f) {a b m n : Nat} (ha : a + m ≤ 2 ^ 64) (hb : b + n ≤ 2 ^ 64) :
    busKey g b + n ≤ busKey f a ∨ busKey f a + m ≤ busKey g b := by
  simp only [busKey]
  omega

/-- Settles O55: device memory and host memory are tables of bytes, written and read by consecutive keys. -/
theorem memoryBytes : Obligations.MemoryBytes := by
  unfold Obligations.MemoryBytes
  intro m fn a bs
  refine ⟨fun x => tget_tsetList memDefault m.bytes a bs x, tgetList_tsetList_self memDefault m.host (busKey fn a) bs, fun b n apart => ?sameFunction,
    fun g b n ne ha hb => ?otherFunction, rfl, rfl, fun wf => ⟨Mem.setBytes_wf a bs wf, Mem.hostWrite_wf fn a bs wf⟩⟩
  case sameFunction =>
    refine tgetList_tsetList_apart memDefault m.host ?_
    simp only [busKey]
    omega
  case otherFunction => exact tgetList_tsetList_apart memDefault m.host (busKey_apart ne ha hb)

end Sys2Proof.Machine

/-! # Proofs: management packets (R78, R87, R375, R378) -/

namespace Sys2Proof.Machine

/-- Settles O34: each packet, once accepted, by what its command does with it. -/
theorem managementPackets : Obligations.ManagementPackets := by
  unfold Obligations.ManagementPackets
  intro s src k t up
  refine ⟨fun ⟨_, a⟩ => State.onHw_next up ?write, fun ⟨_, a⟩ => State.onHw_next up ?read, fun ⟨_, a⟩ => State.onHw_next up ?answer⟩
  case write => simp only [Hw.mgWr, a]
  case read => simp only [Hw.mgRd, a]
  case answer => simp only [Hw.mgRsp, a]

end Sys2Proof.Machine

/-! # Proofs: conversions into E8S, and into and out of M1 (R109, R114 to R123) -/

namespace Sys2Proof.Machine

/-! ## E8S (R109, R123) -/

/-- A magnitude between 2^j and 2^(j+1) units of 2^e has the logarithm j + e. -/
theorem Dy.log2_of_binade {m j : Nat} (low : 2 ^ j ≤ m) (high : m < 2 ^ (j + 1)) (neg : Bool) (e : Int) (sticky : Bool) :
    (Dy.mk neg m e sticky).log2 = j + e := by
  have nonzero : m ≠ 0 := ((Nat.two_pow_pos j).trans_le low).ne'
  rw [Dy.log2, (Nat.log2_eq_iff nonzero).2 ⟨low, high⟩]

/-- The clamp of the two ends of E8S, and its flag. -/
theorem toE8s_of_ne_zero {x : Dy} (nonzero : x.isZero = false) :
    toE8s (.num x) = if x.log2 + 127 < 0 then (0, flScaleClamp) else if 255 < x.log2 + 127 then (255, flScaleClamp) else ((x.log2 + 127).toNat, 0) := by
  simp only [toE8s, nonzero, Bool.false_eq_true, if_false, flIf, Bool.or_eq_true, decide_eq_true_eq]
  by_cases below : x.log2 + 127 < 0
  · rw [if_pos (.inl below), if_pos below, Prod.mk.injEq]
    exact ⟨by omega, rfl⟩
  by_cases above : 255 < x.log2 + 127
  · rw [if_pos (.inr above), if_neg below, if_pos above, Prod.mk.injEq]
    exact ⟨by omega, rfl⟩
  · rw [if_neg (by omega), if_neg below, if_neg above, Prod.mk.injEq]
    exact ⟨by omega, rfl⟩

/-- Settles O53: the logarithm of a source is that of its binade, and E8S clamps it. -/
theorem conversionToE8s : Obligations.ConversionToE8s := by
  unfold Obligations.ConversionToE8s
  intro rc draw
  refine ⟨fun neg m j e low high => ?finite, fun neg e => rfl, rfl, fun s below => ?code⟩
  case finite =>
    have nonzero : (Dy.mk neg m e false).isZero = false := by
      simpa [Dy.isZero] using ((Nat.two_pow_pos j).trans_le low).ne'
    rw [← Dy.log2_of_binade low high neg e false]
    exact toE8s_of_ne_zero nonzero
  case code => rw [Fmt.decode, Nat.mod_eq_of_lt below, Dy.pow2]

/-! ## Values that a format holds exactly are not rounded (R115 to R121) -/

/-- No mode and no draw moves a value that has nothing below the unit it is rounded to. -/
theorem Dy.roundAt_exact {x : Dy} {q : Int} {n : Nat} (exact : x.quantum q = (n, 0, false)) (mode : RMode) (draw : Nat) : x.roundAt q mode draw = n := by
  cases mode with
  | rne => simp [Dy.roundAt, exact]
  | rtz => simp [Dy.roundAt, exact]
  | sr =>
    simp only [Dy.roundAt, exact]
    omega

@[simp] theorem Dy.intAt_ofInt (i : Int) : (Dy.ofInt i).intAt 0 = i := by
  simp only [Dy.intAt, Dy.mantAt, Dy.ofInt, decide_eq_true_eq, sub_zero, Int.toNat_zero, pow_zero, mul_one]
  split <;> omega

@[simp] theorem Dy.lt_ofInt (i j : Int) : (Dy.ofInt i).lt (.ofInt j) = decide (i < j) := by
  show decide ((Dy.ofInt i).intAt 0 < (Dy.ofInt j).intAt 0) = _
  rw [Dy.intAt_ofInt, Dy.intAt_ofInt]

theorem Dy.quantum_ofInt (i : Int) : (Dy.ofInt i).quantum 0 = (i.natAbs, 0, false) := by
  have units : (Dy.ofInt i).mantAt (0 - 14) = i.natAbs * 2 ^ 14 := rfl
  have fine : (0 - 14 : Int) ≤ (Dy.ofInt i).e := Int.neg_ofNat_le_ofNat 14 0
  rw [Dy.quantum, if_pos fine, units, Nat.mul_div_cancel _ (by decide), Nat.mul_mod_left]
  rfl

/-- An integer within an integer format's range is converted exactly (R113, R121). -/
theorem roundInt_ofInt {lo hi i : Int} (low : lo ≤ i) (high : i ≤ hi) (mode : RMode) (draw : Nat) : roundInt lo hi mode draw (.ofInt i) = (i, 0) := by
  have whole : (Dy.ofInt i).sticky = false := rfl
  have sign : (Dy.ofInt i).neg = decide (i < 0) := rfl
  have size : (if i < 0 then -(i.natAbs : Int) else i.natAbs) = i := by split <;> omega
  simp [roundInt, whole, sign, Dy.roundAt_exact (Dy.quantum_ofInt i), not_lt.2 low, not_lt.2 high, size, -Nat.cast_natAbs]

/-- A normal number that a float format holds exactly: RC and the draw do not matter. -/
theorem roundFloat_exact {E F n : Nat} {x : Dy} (exact : x.quantum (max x.log2 (1 - (2 ^ (E - 1) - 1)) - F) = (n, 0, false)) (normal : 2 ^ F ≤ n)
    (rc : Rc) (draw : Nat) : roundFloat E F rc draw x = roundFloat E F .default 0 x := by
  simp only [roundFloat, Dy.roundAt_exact exact, not_lt.2 normal, if_false]

/-! ## Zero and one in each format (R114) -/

/-- A format is E8S, M1, a float format or an integer format, whose range holds 0 and 1 (R102, R113). -/
theorem Fmt.kinds (t : Fmt) : t = .e8s ∨ t = .m1 ∨ (∃ E F, t.ef = some (E, F)) ∨
    t.ef = none ∧ ∃ lo hi, t.intRange = some (lo, hi) ∧ lo ≤ 0 ∧ 1 ≤ hi := by
  cases t <;> simp [Fmt.ef, Fmt.intRange]

theorem Fmt.encode_float {t : Fmt} {E F : Nat} (f : t.ef = some (E, F)) (rc : Rc) (draw : Nat) (x : Dy) :
    t.encode rc draw (.num x) = roundFloat E F rc draw x := by
  cases t <;> cases f <;> rfl

theorem Fmt.encode_int {t : Fmt} {lo hi i : Int} (r : t.intRange = some (lo, hi)) (low : lo ≤ i) (high : i ≤ hi) (rc : Rc) (draw : Nat) :
    t.encode rc draw (.num (.ofInt i)) = (ofSigned t.width i, 0) := by
  have exact := roundInt_ofInt low high rc.mode draw
  cases t <;> cases r <;> simp only [Fmt.encode, Fmt.ef, Fmt.intRange, exact]

/-- Zero is code 0 in each format; E8S, which has no zero, gives code 0 too (R123). -/
theorem Fmt.encode_zero (t : Fmt) (rc : Rc) (draw : Nat) : t.encode rc draw (.num .zero) = (0, 0) := by
  obtain rfl | rfl | ⟨E, F, f⟩ | ⟨-, lo, hi, r, low, high⟩ := t.kinds
  · rfl
  · rfl
  · exact (Fmt.encode_float f rc draw _).trans rfl
  · refine (Fmt.encode_int (i := 0) r low (by omega) rc draw).trans ?_
    simp [ofSigned]

/-- Each float format has one as a normal number, so it is not rounded. -/
theorem Fmt.encode_one_rc (t : Fmt) (rc : Rc) (draw : Nat) : t.encode rc draw (.num (.ofInt 1)) = t.encode .default 0 (.num (.ofInt 1)) := by
  obtain rfl | rfl | ⟨E, F, f⟩ | ⟨-, lo, hi, r, low, high⟩ := t.kinds
  · rfl
  · rfl
  · have exact : (Dy.ofInt 1).quantum (max (Dy.ofInt 1).log2 (1 - (2 ^ (E - 1) - 1)) - F) = (2 ^ F, 0, false) := by
      cases t <;> cases f <;> decide
    rw [Fmt.encode_float f, Fmt.encode_float f, roundFloat_exact exact le_rfl]
  · rw [Fmt.encode_int r (by omega) high, Fmt.encode_int r (by omega) high]

/-- The code of one in each format (R102, R106, R109, R113; 0x7F is E8S's 1.0). -/
def Fmt.codeOfOne : Fmt → Nat
  | .f32w => 0x3F800000
  | .f16w => 0x3C00
  | .f16x => 0x3F80
  | .f8a => 0x38
  | .f8b => 0x3C
  | .f6a => 0x0C
  | .f4a => 0x2
  | .e8s => 0x7F
  | .i32 | .i16 | .i8 | .u8 | .i4 | .u32 | .m1 => 1

theorem Fmt.encode_one (t : Fmt) (rc : Rc) (draw : Nat) : t.encode rc draw (.num (.ofInt 1)) = (t.codeOfOne, 0) := by
  rw [t.encode_one_rc]
  cases t <;> decide +kernel

theorem Fmt.decode_one (t : Fmt) : ∃ x : Dy, t.decode t.codeOfOne = .num x ∧ x.eq (Dy.ofInt 1) = true := by
  cases t <;> exact ⟨_, rfl, by decide +kernel⟩

/-- Settles O54: M1 by the two cases of a source, the other formats by their codes of zero and one. -/
theorem conversionsOfM1 : Obligations.ConversionsOfM1 := by
  unfold Obligations.ConversionsOfM1
  refine ⟨fun rc draw v => ?into, rfl, rfl, rfl, fun t rc draw => ⟨t.encode_zero rc draw, ?one⟩⟩
  case into => cases v <;> rfl
  case one =>
    obtain ⟨x, value, eq⟩ := t.decode_one
    exact ⟨t.codeOfOne, x, t.encode_one rc draw, value, eq⟩

end Sys2Proof.Machine

/-! # Proofs: the heads of a core's queues (R156, R260, R265, R267) -/

namespace Sys2Proof.Machine

/-! ## Updates of a core that agree where it stands -/

theorem CV.onCore_congr {v : CV} {f g : Core → Core} (e : f v.core = g v.core) : v.onCore f = v.onCore g := by
  simp only [CV.onCore, e]

theorem Hw.modCore_congr {h : Hw} {n : Nat} {f g : Core → Core} (e : f (h.core n) = g (h.core n)) : h.modCore n f = h.modCore n g := by
  simp only [Hw.modCore, e]

/-! ## Heads that start -/

section Array
variable {ci : CInfo} {idx : Nat} {i : CoreInsn} {rest : List (Nat × CoreInsn)} {v w : CV}

/-- A head of the array's queue that runs leaves the queue, and the dispatch order with it, unless it has stopped the array. -/
theorem mxaPump_ran (go : (v.core.failed || v.core.mStop || v.core.mWait || v.mxaHalted ci || !v.core.mayStart 0) = false)
    (q : v.core.mxq = (idx, i) :: rest) (free : mxaHeld ci i v = false) (r : mxaStart ci idx i v = .ran w) (n : Nat) :
    mxaPump ci (n + 1) v = mxaPump ci n (w.onCore fun c => if c.mStop then c else { c with mxq := rest, ord := eraseKind 0 c.ord }) := by
  simp only [mxaPump, go, q, free, r, Bool.false_eq_true, if_false]

/-- The same of the vector unit's. -/
theorem tvuPump_ran (go : (v.core.failed || v.core.tStop || v.core.tWait || v.pg.bit (Reg.TVU_DBG_CTRL ci.n) 30 || !v.core.mayStart 1) = false)
    (q : v.core.tvq = (idx, i) :: rest) (r : tvuStart ci idx i v = .ran w) (n : Nat) :
    tvuPump ci (n + 1) v = tvuPump ci n (w.onCore fun c => if c.tStop then c else { c with tvq := rest, ord := eraseKind 1 c.ord }) := by
  simp only [tvuPump, go, q, r, Bool.false_eq_true, if_false]

end Array

/-- A head of the XFER queue that issues stands as outstanding if its kind does, with the pages of own scratch that it has still to write. -/
theorem Hw.xpump_issues {ci : CInfo} {idx : Nat} {i : CoreInsn} {rest : List (Nat × CoreInsn)} {h g : Hw} {out : Option OutKind}
    (go : ((h.core ci.n).failed || (h.core ci.n).xStop || (h.core ci.n).exc || (h.core ci.n).spec.isSome) = false)
    (q : (h.core ci.n).held = (idx, i) :: rest) (first : (h.core ci.n).mayStart 2 = true) (whole : h.dmaPar ci i = (false, h))
    (r : h.xgo ci idx i = .ok out g) (n : Nat) :
    h.xpump ci (n + 1) = Hw.xpump ci n (g.modCore ci.n fun c => ({ c with
      held := rest, outs := c.outs ++ (out.map fun k => ⟨k, i.cg, idx, h.landPages ci i⟩).toList } : Core).started 2) := by
  simp only [Hw.xpump, go, q, first, whole, r, Bool.not_true, Bool.false_eq_true, if_false]
  cases out <;> rfl

/-- Settles O17: each queue by what its pump does with a head that nothing holds. -/
theorem queueHeadsRun : Obligations.QueueHeadsRun := by
  unfold Obligations.QueueHeadsRun
  refine ⟨fun ci n idx i rest v w failed stopped waits frozen first q free r goesOn => ?array,
    fun ci n idx i rest v w failed stopped waits frozen first q r goesOn => ?vector,
    fun ci n idx i rest h g out failed stopped exc committed first q _ whole r => ?xfer⟩
  case array =>
    rw [mxaPump_ran (by simp only [failed, stopped, waits, frozen, first]; rfl) q free r, CV.onCore_congr]
    simp only [goesOn, Bool.false_eq_true, if_false]
  case vector =>
    rw [tvuPump_ran (by simp only [failed, stopped, waits, frozen, first]; rfl) q r, CV.onCore_congr]
    simp only [goesOn, Bool.false_eq_true, if_false]
  case xfer =>
    rw [Hw.xpump_issues (by simp only [failed, stopped, exc, committed]; rfl) q first whole r]
    cases out <;> rfl

end Sys2Proof.Machine

/-! # Proofs: what ends or stops the work of units and engines (R143, R163, R279, R330 to R339, R424) -/

namespace Sys2Proof.Machine

/-! ## The debug registers (R163) -/

/-- DBG_CTRL at the write of its unit's page. -/
theorem Hw.blockWrite_dbgCtrl {u n : Nat} (hu : u < 3) (hn : n < 108) (h : Hw) (wi : WarmIn) (r : RegRow) (w : W32) :
    h.blockWrite wi (unitPage u n) 0x080 r w = h.dbgCtrlWrite u n w := by
  have core (k : Nat) (hk : k < 3) : (0x100 + k + 4 * n - 0x100) / 4 = n := by omega
  obtain rfl | rfl | rfl : u = 0 ∨ u = 1 ∨ u = 2 := by omega
  · simp only [unitPage, if_true, Hw.blockWrite, pageKind_mxa hn, Hw.unitWrite]
    exact congrArg (h.dbgCtrlWrite 0 · w) (core 0 (by decide))
  · simp only [unitPage, one_ne_zero, if_false, if_true, Hw.blockWrite, pageKind_tvu hn, Hw.unitWrite]
    exact congrArg (h.dbgCtrlWrite 1 · w) (core 1 (by decide))
  · simp only [unitPage, OfNat.ofNat_ne_zero, OfNat.ofNat_ne_one, if_false, if_true, Hw.blockWrite, pageKind_gig hn, Hw.unitWrite]
    exact congrArg (h.dbgCtrlWrite 2 · w) (core 2 (by decide))

/-- The bits of DBG_CTRL, beside HALT_REQ, that a unit keeps as they are written: the TVU's word select (R204). -/
def dbgSelect (u : Nat) : W32 := if u = 1 then 0x3E000000#32 else 0

theorem wbit_dbgSelect_low (u : Nat) {i : Nat} (hi : i < 2) : wbit (dbgSelect u) i = false := by
  have low : ∀ i : Fin 2, wbit (0x3E000000#32) i = false := by decide
  unfold dbgSelect
  split
  · exact low ⟨i, hi⟩
  · exact BitVec.getLsbD_zero

/-- A command of the debug registers keeps the word select. -/
theorem Hw.dbgWord_eq (u n bits : Nat) (h : Hw) : h.dbgWord u n bits = (h.pg.rd (dbgCtrlReg u n) &&& dbgSelect u) ||| BitVec.ofNat 32 bits := by
  unfold Hw.dbgWord dbgSelect
  split <;> simp

theorem Hw.wbit_dbgWord_low (u n bits : Nat) (h : Hw) {i : Nat} (hi : i < 2) : wbit (h.dbgWord u n bits) i = wbit (BitVec.ofNat 32 bits) i := by
  rw [Hw.dbgWord_eq, wbit_or, wbit_and, wbit_dbgSelect_low u hi, Bool.and_false, Bool.false_or]

/-- DBG_CTRL keeps HALT_REQ and the word select. -/
theorem dbgKeep_eq (u : Nat) : (if u = 1 then 0x3E000001#32 else 0x00000001#32) = dbgSelect u ||| 1#32 := by
  unfold dbgSelect
  split <;> rfl

/-- The word select is apart from HALT_REQ and RESUME. -/
theorem dbgSelect_and {b : W32} (low : b = 1#32 ∨ b = 2#32) (u : Nat) : dbgSelect u &&& b = 0 := by
  unfold dbgSelect
  rcases low with rfl | rfl <;> split <;> rfl

theorem wbit_not {n : Nat} (w : BitVec n) {i : Nat} (hi : i < n) : wbit (~~~w) i = !wbit w i := by
  simp [wbit, hi]

/-- Of a word that holds a field k as it stands and b beside it, a register that keeps the fields k and m takes m alone. -/
theorem keep_beside {n : Nat} {k m b : BitVec n} (hm : k &&& m = 0) (hb : k &&& b = 0) (old : BitVec n) :
    (old &&& ~~~(k ||| m)) ||| ((old &&& k ||| b) &&& (k ||| m)) = (old &&& ~~~m) ||| (b &&& m) := by
  refine word_ext fun i hi => ?_
  have apart {x : BitVec n} (e : k &&& x = 0) : (wbit k i && wbit x i) = false := by rw [← wbit_and, e]; exact BitVec.getLsbD_zero
  simp only [wbit_or, wbit_and, wbit_not _ hi]
  exact (by decide : ∀ o k m b : Bool, (k && m) = false → (k && b) = false →
    ((o && !(k || m)) || ((o && k || b) && (k || m))) = ((o && !m) || (b && m))) _ _ _ _ (apart hm) (apart hb)

section Debug
variable {h : Hw} (a : h.pg.dbgAvail = true) (u n : Nat)
include a

/-- A command of the debug registers while the lock is open: DBG_CTRL takes HALT_REQ alone; RESUME releases, and HALT_REQ freezes. -/
theorem Hw.dbgCtrlWrite_dbgWord {bits : Nat} (word : BitVec.ofNat 32 bits = 1#32 ∨ BitVec.ofNat 32 bits = 2#32) :
    h.dbgCtrlWrite u n (h.dbgWord u n bits) =
      let h1 := h.onPg (Pages.upd (dbgCtrlReg u n) fun old => (old &&& ~~~1#32) ||| (BitVec.ofNat 32 bits &&& 1#32))
      let h2 := if wbit (BitVec.ofNat 32 bits) 1 then h1.dbgRelease u n else h1
      (true, if wbit (BitVec.ofNat 32 bits) 0 then h2.dbgFreeze u n else h2) := by
  have stored : h.onPg (Pages.upd (dbgCtrlReg u n) fun old =>
      (old &&& ~~~(dbgSelect u ||| 1#32)) ||| (h.dbgWord u n bits &&& (dbgSelect u ||| 1#32))) =
      h.onPg (Pages.upd (dbgCtrlReg u n) fun old => (old &&& ~~~1#32) ||| (BitVec.ofNat 32 bits &&& 1#32)) := by
    simp only [Hw.onPg, Dev.onPg, Pages.upd, Hw.dbgWord_eq]
    rw [← keep_beside (dbgSelect_and (.inl rfl) u) (dbgSelect_and word u)]
  simp only [Hw.dbgCtrlWrite, a, dbgKeep_eq, stored, Hw.wbit_dbgWord_low u n bits h (show 0 < 2 by decide),
    Hw.wbit_dbgWord_low u n bits h (show 1 < 2 by decide), Bool.not_true, Bool.false_eq_true, if_false]

/-- HALT_REQ set freezes the unit. -/
theorem Hw.dbgCtrlWrite_halt :
    h.dbgCtrlWrite u n (h.dbgWord u n 1) = (true, (h.onPg (Pages.upd (dbgCtrlReg u n) fun old => old ||| 1#32)).dbgFreeze u n) := by
  have set (old : W32) : (old &&& ~~~1#32) ||| (1#32 &&& 1#32) = old ||| 1#32 := by
    refine word_ext fun i hi => ?_
    rw [BitVec.and_self, wbit_or, wbit_and, wbit_not _ hi, Bool.or_and_distrib_right, Bool.not_or_self, Bool.and_true, wbit_or]
  have resume : wbit 1#32 1 = false := by decide
  have halt : wbit 1#32 0 = true := by decide
  simp only [Hw.dbgCtrlWrite_dbgWord a u n (.inl rfl), set, resume, halt, Bool.false_eq_true, if_false, if_true]

/-- RESUME set, and HALT_REQ clear, releases it. -/
theorem Hw.dbgCtrlWrite_resume :
    h.dbgCtrlWrite u n (h.dbgWord u n 2) = (true, (h.onPg (Pages.upd (dbgCtrlReg u n) fun old => old &&& ~~~1#32)).dbgRelease u n) := by
  have clear (old : W32) : (old &&& ~~~1#32) ||| (2#32 &&& 1#32) = old &&& ~~~1#32 := BitVec.or_zero
  have resume : wbit 2#32 1 = true := by decide
  have halt : wbit 2#32 0 = false := by decide
  simp only [Hw.dbgCtrlWrite_dbgWord a u n (.inr rfl), clear, resume, halt, Bool.false_eq_true, if_false, if_true]

end Debug

/-! ## Loads, collectives and updates (R143, R330 to R337, R424) -/

/-- The end of a tile's load on a core that a context holds. -/
theorem Hw.mloadDone_held {h : Hw} {n l cx : Nat} {t : Tile} (lg : h.pg.logOf n = some l) (c : h.coreCtx l = some cx) (o : (h.core n).owner = some cx)
    (ld : (h.core n).loading = some t) :
    h.mloadDone n = (h.modCore n fun c => { c with loading := none, back := some t }).pumpPhys n := by
  have done : h.modCore n Core.loadDone = h.modCore n fun c => { c with loading := none, back := some t } :=
    Hw.modCore_congr (by simp only [Core.loadDone, ld])
  simp only [Hw.mloadDone, lg, c, o, if_true, done]

theorem Dev.detect_unarmed {d : Dev} {pg : Nat} (u : d.pg.unarmed pg = true) (det addr : Nat) (cx : CtxId) : d.detect pg det addr cx false = (false, d) := by
  simp only [Dev.detect, Pages.detect_unarmed u]
  rfl

/-- A fold whose every step leaves its start is the start. -/
theorem foldl_fixed_of_mem {α β : Type} {f : α → β → α} {a : α} {l : List β} (e : ∀ b ∈ l, f a b = a) : l.foldl f a = a :=
  List.foldlRecOn (motive := fun x => x = a) l f rfl fun x same b m => by rw [same, e b m]

/-- A collective whose conditions hold, with no parity fault armed at the stages that it went through. -/
theorem Hw.collComplete_ends {h : Hw} {i : Nat} {c : Coll} (e : h.colls[i]? = some c) (ends : (c.finished || c.bad) = true)
    (u : ∀ r ∈ c.axes, h.pg.unarmed (Pg.stg r.ax) = true) :
    h.collComplete i =
      let h1 := c.judge true (c.writeTaps (c.writeOut h))
      let h2 := h1.onDev (Dev.wcbFlushAll fun e => c.ctx ∈ e.ctxs)
      (c.cores.foldl (fun h l => h.modOwned (h.pg.physOf l) c.ctx fun co =>
        { co with outs := co.outs.filter fun o => !(o.kind = .coll && o.index = c.index) }) h2).dropColl i := by
  simp only [Hw.collComplete, e, ends]
  rw [foldl_fixed_of_mem fun r m => by
    have quiet : h.dev.pg.unarmed (Pg.stg r.ax) = true := u r m
    simp only [Dev.detect_unarmed quiet]
    rfl]
  rfl

/-- A unit works through the groups of its next request, whose slot holds a recipe, with no check failing. -/
theorem Hw.suuStart_whole {h : Hw} {u : Nat} {r : UReq} {x : Recipe}
    (f : (h.suu.queued u).find? (fun r => !((h.ctx r.ctx).launch.any fun l => l.exc)) = some r)
    (s : tget (fun _ => none) h.suu.slots (u * 8 + r.slot) = some x)
    (whole : (Hw.suuGroups u x r (r.groups h.pg (h.suu.mine u r)) h).1 = []) :
    h.suuStart u =
      let y := (Hw.suuGroups u x r (r.groups h.pg (h.suu.mine u r)) h).2
      y.2.onSuu fun t => { t with reqs := t.reqs.map fun z => if z.id = r.id then z.worked h.pg (h.suu.mine u r) [] y.1 else z } := by
  simp only [Hw.suuStart, f, s, whole, List.isEmpty_nil, if_true]

/-- The first request that every unit has finished, with no poison met. -/
theorem Hw.suuComplete_clean {h : Hw} {r : UReq} (f : h.suu.reqs.find? (fun r => r.left.isEmpty) = some r) (p : r.poisoned = false) :
    h.suuComplete = (h.onSuu fun s => { s with reqs := s.reqs.filter fun x => x.id ≠ r.id }).modOwned (h.pg.physOf r.core) r.ctx fun c =>
      { c with outs := c.outs.filter fun o => !(o.kind = .uapply && o.index = r.index) } := by
  simp only [Hw.suuComplete, f, p, Bool.false_eq_true, if_false]

/-- SUU_SLOT_PART at its page's write, while no launch stands in the way. -/
theorem Hw.blockWrite_slotPart {h : Hw} {st : Nat} (hs : st < 8) {w : W32}
    (free : (((List.range 8).filter fun n => fld w (4 * n + 3) (4 * n) ≠ h.pg.slotPart n).any fun n =>
      h.partLaunch (h.pg.slotPart n) || h.partLaunch (fld w (4 * n + 3) (4 * n))) = false) (wi : WarmIn) (r : RegRow) :
    h.blockWrite wi (Pg.suu st) 0x048 r w =
      (true, (h.onPg fun g => (List.range 8).foldl (fun g k => g.wr (Reg.SUU_SLOT_PART k) w) g).suuClear fun n _ =>
        n ∈ (List.range 8).filter fun n => fld w (4 * n + 3) (4 * n) ≠ h.pg.slotPart n) := by
  simp only [Hw.blockWrite, pageKind_suu hs, Hw.slotPartWrite, free]
  rfl

/-- Settles O28: each event by the function that does it, each register write by what its page does with it. -/
theorem unitEvents : Obligations.UnitEvents := by
  unfold Obligations.UnitEvents
  intro s up
  refine ⟨fun n l cx t lg c o ld => ?load, fun p n u a lock => ?debug, fun l i cx c => ?moved, fun i c e ends u => ?collective,
    fun u r x w f sl whole => ?request, fun r f p => ?applied, fun p st w a free => ?slots⟩
  case load => exact State.onHw_next up (Hw.mloadDone_held lg c o ld)
  case debug =>
    obtain ⟨r, hr⟩ := Hw.admits_row a
    have act (w : W32) := Hw.blockWrite_dbgCtrl u.isLt n.isLt s.hw WarmIn.good r w
    exact ⟨State.onHw_next up (Hw.regCmd_taken a hr ((act _).trans (Hw.dbgCtrlWrite_halt lock u.val n.val))),
      State.onHw_next up (Hw.regCmd_taken a hr ((act _).trans (Hw.dbgCtrlWrite_resume lock u.val n.val)))⟩
  case moved => exact State.onHw_next up (by simp only [Hw.dmaDone, c])
  case collective => exact State.onHw_next up (congrArg Hw.pumpAll (Hw.collComplete_ends e ends u))
  case request =>
    refine State.onHw_next up ?_
    simp only [w, if_true]
    exact congrArg Hw.pumpAll (Hw.suuStart_whole f sl whole)
  case applied => exact State.onHw_next up (congrArg Hw.pumpAll (Hw.suuComplete_clean f p))
  case slots =>
    obtain ⟨r, hr⟩ := Hw.admits_row a
    exact State.onHw_next up (Hw.regCmd_taken a hr (Hw.blockWrite_slotPart st.isLt free _ _))

end Sys2Proof.Machine

/-! # Proofs: the control instructions of a core that may hold dispatch (R209, R276 to R279) -/

namespace Sys2Proof.Machine

/-! ## Control instructions that a core takes (R276 to R279) -/

section Control
variable {h : Hw} {l cx : Nat} {i : CoreInsn} (place : i.place = 4) (scalar : i.isScalar = false) (wide : i.isLocalFence = false)
include place scalar wide

/-- A control instruction that may hold dispatch acts at once in a block that is not speculative. -/
theorem Hw.taken_control (committed : (h.core (h.pg.physOf l)).spec = none) : h.taken l cx i = h.control (h.ciOf l cx) i := by
  have spec : (h.core (h.ciOf l cx).n).spec = none := committed
  simp only [Hw.taken, place, scalar, wide, spec, lt_irrefl, Option.isSome_none, Bool.false_eq_true, if_false]

/-- In a speculative block it waits for the commit (R277). -/
theorem Hw.taken_awaitsCommit (speculative : (h.core (h.pg.physOf l)).spec.isSome = true) :
    h.taken l cx i = h.modCore (h.pg.physOf l) fun c => { c with wait := some (.commit (h.nextIdx (h.pg.physOf l)) i) } := by
  have spec : (h.core (h.ciOf l cx).n).spec.isSome = true := speculative
  simp only [Hw.taken, place, scalar, wide, spec, lt_irrefl, Bool.false_eq_true, if_false, if_true]
  rfl

end Control

/-- A FENCE of scope LOCAL is complete when no matrix, vector or Gig work stands before it (R279). -/
theorem Core.fenceMet_local (c : Core) : c.fenceMet .local 0 = c.ord.all fun k => decide (k ≠ 0 ∧ k ≠ 1 ∧ k ≠ 5) := by
  simp [Core.fenceMet]

/-- Such a FENCE, speculative or not, enters the order of dispatch where it is not complete. -/
theorem Hw.taken_localFence (h : Hw) (l cx : Nat) (g : BitVec 8) :
    h.taken l cx (.fence .local g) = h.modCore (h.pg.physOf l) fun c =>
      { c.next with ord := if c.ord.all fun k => decide (k ≠ 0 ∧ k ≠ 1 ∧ k ≠ 5) then c.ord else c.ord ++ [4] } := by
  simp only [← Core.fenceMet_local]
  rfl

/-- Settles O19: what the core does with an instruction that it takes, by its class and by whether its block is speculative. -/
theorem controlThatHolds : Obligations.ControlThatHolds := by
  unfold Obligations.ControlThatHolds
  intro s l cx up n ci v
  -- A command that carries a well-formed instruction, where the core takes it.
  have take {c : Instr} {i : CoreInsn} {g : Hw → Hw} (carries : coreInsn? c = some (l, i)) (wf : i.wf = true) (t : s.hw.takes l.val cx i = true)
      (e : (s.hw.taken l.val cx i).pumpCore ci = g s.hw) : exec c s = .next (s.done g) :=
    (exec_insn carries s).trans (State.onInsn_takes up wf t e)
  refine ⟨fun committed => ?committed, fun g t => ?localFence, fun c i carries wf place scalar wide speculative t => ?speculative⟩
  case committed =>
    have act {c : Instr} {i : CoreInsn} {g : Hw → Hw} (carries : coreInsn? c = some (l, i)) (wf : i.wf = true) (t : s.hw.takes l.val cx i = true)
        (place : i.place = 4) (scalar : i.isScalar = false) (wide : i.isLocalFence = false) (e : (s.hw.control ci i).pumpCore ci = g s.hw) :
        exec c s = .next (s.done g) :=
      take carries wf t (by rw [Hw.taken_control place scalar wide committed]; exact e)
    refine ⟨fun tag t => ?waitarr, fun e x t wf => ?wait, fun sc g far t wf => ?fence, fun e x t wf => ?signal, fun e x t wf => ?signalHost,
      fun o t wf => ?gcall⟩
    case waitarr => exact act rfl rfl t rfl rfl rfl rfl
    case wait => exact act rfl wf t rfl rfl rfl rfl
    case fence =>
      have wide : (CoreInsn.fence sc g).isLocalFence = false := match sc, far with
        | .local, far => absurd rfl far
        | .dma, _ | .fabric, _ | .device, _ => rfl
      exact act rfl wf t rfl rfl wide rfl
    case signal => exact act rfl wf t rfl rfl rfl rfl
    case signalHost => exact act rfl wf t rfl rfl rfl rfl
    case gcall => exact act rfl wf t rfl rfl rfl rfl
  case localFence => exact take rfl rfl t (by rw [Hw.taken_localFence])
  case speculative => exact take carries wf t (by rw [Hw.taken_awaitsCommit place scalar wide speculative])

end Sys2Proof.Machine

/-! # Proofs: the Gig's instructions, its calls and its FIFO (R206 to R224, R281, R282) -/

namespace Sys2Proof.Machine

/-! ## A step of the Gig as a command (R209, R213) -/

/-- The Gig of core ci.n executes the next instruction of routine r: nothing waits, is stopped, frozen or armed. -/
structure CV.GigAt (ci : CInfo) (r : GRun) (v : CV) : Prop where
  runs : v.core.grun = some r
  awake : r.waiting = false
  within : r.pc < r.call.len
  alive : v.core.failed = false
  free : v.core.gStop = false
  thawed : v.pg.bit (Reg.GIG_DBG_CTRL ci.n) 30 = false
  enabled : v.pg.enabled (Pg.gig ci.n) = true
  quiet : v.pg.unarmed (Pg.gig ci.n) = true

/-- Then an instruction does what its own body says. -/
theorem CV.GigAt.go {ci : CInfo} {r : GRun} {v : CV} (live : v.GigAt ci r) (f : GRun → CV → CV) : gigGo ci f v = f r v :=
  gigGo_runs live.runs live.awake live.within live.alive live.free live.thawed live.enabled live.quiet f

/-- Core ci.n with register space, as a command of the device finds them. -/
def Hw.cvOf (ci : CInfo) (h : Hw) : CV := ⟨h.pg, h.core ci.n⟩

/-- The Gig that runs has a routine whose next instruction it executes. -/
theorem Hw.gigRuns_at {h : Hw} {l cx : Nat} (runs : h.gigRuns l cx = true) :
    h.runsOn l cx = true ∧ ∃ r, (h.cvOf (h.ciOf l cx)).GigAt (h.ciOf l cx) r := by
  simp only [Hw.gigRuns, Bool.and_eq_true, Bool.not_eq_true', Option.any_eq_true, decide_eq_true_eq] at runs
  obtain ⟨⟨⟨⟨⟨⟨on, r, hr, awake, within⟩, alive⟩, free⟩, thawed⟩, enabled⟩, quiet⟩ := runs
  exact ⟨on, r, hr, awake, within, alive, free, thawed, enabled, quiet⟩

section Command
variable {s : State} {l : Fin 96} {cx : Nat} (up : s.hw.up = true) {F : CInfo → CV → CV} {k : CV → CV}
include up

/-- A step of the Gig on a core that its context holds and runs on. -/
theorem State.onHw_gigDo (on : s.hw.runsOn l.val cx = true)
    (e : F (s.hw.ciOf l.val cx) (s.hw.cvOf (s.hw.ciOf l.val cx)) = k (s.hw.cvOf (s.hw.ciOf l.val cx))) :
    s.onHw (Hw.gigDo l.val F) = .next (s.done fun h => (h.onCv (s.hw.ciOf l.val cx) k).pumpCore (s.hw.ciOf l.val cx)) := by
  simp only [Hw.runsOn, Bool.and_eq_true, decide_eq_true_eq] at on
  obtain ⟨⟨⟨holds, reach⟩, owner⟩, goes⟩ := on
  have mine : (s.hw.core (s.hw.ciOf l.val cx).n).owner = some cx := owner
  refine State.onHw_next up ?_
  simp only [Hw.gigDo, holds, reach, mine, goes, decide_true, Bool.and_self, if_true, Hw.onCv_congr e]

/-- A scalar instruction of a Gig that runs. -/
theorem State.onHw_gigAt (runs : s.hw.gigRuns l.val cx = true)
    (e : ∀ r, (s.hw.cvOf (s.hw.ciOf l.val cx)).GigAt (s.hw.ciOf l.val cx) r →
      F (s.hw.ciOf l.val cx) (s.hw.cvOf (s.hw.ciOf l.val cx)) = k (s.hw.cvOf (s.hw.ciOf l.val cx))) :
    s.onHw (Hw.gigDo l.val F) = .next (s.done fun h => (h.onCv (s.hw.ciOf l.val cx) k).pumpCore (s.hw.ciOf l.val cx)) := by
  obtain ⟨on, r, live⟩ := Hw.gigRuns_at runs
  exact State.onHw_gigDo up on (e r live)

end Command

/-! ## Arithmetic (R206, R282) -/

section Arithmetic
variable {ci : CInfo} {r : GRun} {v : CV} (live : v.GigAt ci r) (rd ra : Fin 32) (b : GSrc)
include live

theorem gigAlu_at (op : GAlu) : gigAlu ci op rd ra b v = v.gigSet ci rd (op.eval (v.core.g ra) (b.val v.core)) := live.go _

theorem gigShift_at (op : GShift) : gigShift ci op rd ra b v = v.gigSet ci rd (op.eval (v.core.g ra) (b.val v.core)) := live.go _

theorem gigSlt_at (signed : Bool) : gigSlt ci signed rd ra b v =
    v.gigSet ci rd (if (if signed then (v.core.g ra).slt (b.val v.core) else (v.core.g ra).ult (b.val v.core)) then 1 else 0) := live.go _

theorem gigMul_at : gigMul ci rd ra b v = v.gigSet ci rd (v.core.g ra * b.val v.core) := live.go _

theorem gigLih_at (imm : W32) : gigLih ci rd imm v = v.gigSet ci rd (join32 (lo32 (v.core.g rd)) imm) := live.go _

theorem gigDiv_at (op : GDiv) : gigDiv ci op rd ra b v =
    if b.val v.core = 0 then v.gigExc ci 4 else v.gigSet ci rd (op.eval (v.core.g ra) (b.val v.core)) := live.go _

end Arithmetic

/-- Settles O20: each instruction sets RD to the value of its operation; only a division looks at its divisor first. -/
theorem gigArithmetic : Obligations.GigArithmetic := by
  unfold Obligations.GigArithmetic
  intro s l cx rd ra b up runs ci x y
  refine ⟨fun op => ?alu, fun op => ?shift, fun sg => ?compare, ?mul, fun op nonzero => ?divide, fun op zero => ?byZero, fun imm => ?lih⟩
  case alu => exact State.onHw_gigAt up runs fun _ live => (gigAlu_at live rd ra b op).trans (by cases op <;> rfl)
  case shift => exact State.onHw_gigAt up runs fun _ live => (gigShift_at live rd ra b op).trans (by cases op <;> rfl)
  case compare => exact State.onHw_gigAt up runs fun _ live => gigSlt_at live rd ra b sg
  case mul => exact State.onHw_gigAt up runs fun _ live => gigMul_at live rd ra b
  case divide => exact State.onHw_gigAt up runs fun _ live => (gigDiv_at live rd ra b op).trans (if_neg nonzero)
  case byZero => exact State.onHw_gigAt up runs fun _ live => (gigDiv_at live rd ra b op).trans (if_pos zero)
  case lih => exact State.onHw_gigAt up runs fun _ live => gigLih_at live rd imm

/-! ## Setting a register -/

/-- Setting a register changes the registers alone; G0 takes nothing (R206). -/
theorem Core.setG_eq (i : Nat) (w : W64) (c : Core) :
    c.setG i w = { c with greg := if i = 0 then c.greg else tset (fun _ => 0) c.greg i w } := by
  unfold Core.setG
  split <;> rfl

/-- A register that is set reads the value, G0 reads zero, and every other register reads as before (R206). -/
theorem Core.g_setG (i k : Nat) (w : W64) (c : Core) : (c.setG i w).g k = if k = i then (if i = 0 then 0 else w) else c.g k := by
  by_cases other : k = i
  · subst other
    by_cases zero : k = 0 <;> simp [Core.g, Core.setG, zero]
  · rw [if_neg other]
    by_cases zero : i = 0 <;> simp [Core.g, Core.setG, zero, other, tget_tset]

/-- The core of an instruction that sets RD: the register, and the position of the routine behind the instruction. -/
theorem CV.gigSet_core (ci : CInfo) (rd : Nat) (w : W64) (v : CV) :
    (v.gigSet ci rd w).core = { v.core.setG rd w with grun := v.core.grun.map fun r => { r with pc := r.pc + 1, held := false } } := by
  simp only [CV.gigSet, CV.gigNext, CV.onPg_core, CV.onCore_core, Core.setG_eq]

/-- Settles O21: the register is set, the routine goes on by one instruction, and one is counted. -/
theorem gigSetFrame : Obligations.GigSetFrame := by
  unfold Obligations.GigSetFrame
  intro ci rd w v
  have reads (k : Nat) : (v.gigSet ci rd w).core.g k = (v.core.setG rd w).g k := by rw [CV.gigSet_core]; rfl
  refine ⟨?set, fun k other => ?others, ?position, ?rest, ?counted⟩
  case set => rw [reads, Core.g_setG, if_pos rfl]
  case others => rw [reads, Core.g_setG, if_neg other]
  case position => rw [CV.gigSet_core]
  case rest => rw [CV.gigSet_core, Core.setG_eq]
  case counted => rfl

/-! ## Scratch that holds no fault (R50, R537) -/

/-- Lines without flips are read as they are. -/
theorem CV.scrCheck_clean {v : CV} (clean : v.core.scrFlips = []) (ci : CInfo) (o n : Nat) : v.scrCheck ci o n = v := by
  simp only [CV.scrCheck, clean, List.filter_nil, List.foldl_nil]

/-- A block that is not speculative reads the committed bytes, and the read leaves no trace. -/
theorem CV.scrRead_committed {v : CV} (clean : v.core.scrFlips = []) (committed : v.core.spec = none) (ci : CInfo) (o n : Nat) :
    v.scrRead ci o n = ((rangeFrom o n).map v.core.byteC, v) := by
  have untainted : (v.onCore fun c => { c with spec := c.spec.map fun s => { s with tainted := true } }) = v := by
    have spec : (v.core.spec.map fun s => ({ s with tainted := true } : Spec)) = v.core.spec := by rw [committed]; rfl
    simp only [CV.onCore, spec]
  have bytes : v.core.byte = v.core.byteC := funext fun o => by simp only [Core.byte, committed]
  simp only [CV.scrRead, CV.scrCheck_clean clean, untainted, ite_self, bytes]

/-! ## Loads, stores and branches (R206, R213, R224, R282) -/

section Memory
variable {ci : CInfo} {r : GRun} {v : CV} (live : v.GigAt ci r) {rd : Fin 32} {m : GMem}
include live

/-- An access of the local store in a block form is no valid instruction. -/
theorem gigLs_illegal (form : m.illegal rd false = true) (st : Bool) :
    (if st then gigStl ci rd m v else gigLdl ci rd m v) = v.gigExc ci 1 := by
  cases st <;> simp only [gigLdl, gigStl, live.go, form, Bool.false_eq_true, if_false, if_true]

/-- Nor is one of scratch that names registers beyond the last. -/
theorem gigScr_illegal (form : m.illegal rd true = true) (st : Bool) :
    (if st then gigSts ci rd m v else gigLds ci rd m v) = v.gigExc ci 1 := by
  cases st <;> simp only [gigLds, gigSts, live.go, form, Bool.false_eq_true, if_false, if_true]

section LocalStore
variable (form : m.illegal rd false = false)
include form

/-- An access that breaks a bound or its alignment moves nothing. -/
theorem gigLs_bad {e : Nat} (bad : m.bad v.core 0 65536 = some e) (st : Bool) :
    (if st then gigStl ci rd m v else gigLdl ci rd m v) = v.gigExc ci e := by
  cases st <;> simp only [gigLdl, gigStl, live.go, form, bad, Bool.false_eq_true, if_false, if_true]

variable (inside : m.bad v.core 0 65536 = none)
include inside

/-- A load, while no fault of the local store is armed (R224). -/
theorem gigLdl_at : gigLdl ci rd m v =
    v.gigSet ci rd (BitVec.ofNat 64 (ofBytesLE (tgetList (fun _ => 0) v.core.ls (m.addr v.core) m.size))) := by
  have whole : v.lsTouch ci (m.addr v.core) m.size = v := CV.parity_unarmed live.quiet 0 _ _ _
  simp only [gigLdl, live.go, form, inside, whole, live.alive, Bool.false_eq_true, if_false]

theorem gigStl_at : gigStl ci rd m v =
    (v.onCore fun k => { k with ls := tsetList (fun _ => 0) k.ls (m.addr k) (bytesLE m.size (k.g rd).toNat) }).gigNext ci (· + 1) := by
  simp only [gigStl, live.go, form, inside, Bool.false_eq_true, if_false]

end LocalStore

section Scratch
variable (form : m.illegal rd true = false)
include form

/-- An access that leaves the context's window or is misaligned moves nothing. -/
theorem gigScr_bad {e : Nat} (bad : m.bad v.core ci.winLo ci.winHi = some e) (st : Bool) :
    (if st then gigSts ci rd m v else gigLds ci rd m v) = v.gigExc ci e := by
  cases st <;> simp only [gigLds, gigSts, live.go, form, bad, Bool.false_eq_true, if_false, if_true]

variable (inside : m.bad v.core ci.winLo ci.winHi = none)
include inside

/-- An access waits for the matrix instructions that have still to write its pages (R156, R210). -/
theorem gigScr_held (held : v.gigHeld ci r m = true) (st : Bool) : (if st then gigSts ci rd m v else gigLds ci rd m v) = v.gigHold := by
  cases st <;> simp only [gigLds, gigSts, live.go, form, inside, held, Bool.false_eq_true, if_false, if_true]

variable (free : v.gigHeld ci r m = false)
include free

theorem gigSts_at : gigSts ci rd m v =
    (v.scrWriteI ci (m.addr v.core) (if m.blk then v.core.g8 rd else bytesLE m.size (v.core.g rd).toNat)).gigNext ci (· + 1) := by
  simp only [gigSts, live.go, form, inside, free, Bool.false_eq_true, if_false]

/-- A load of one register, of committed bytes without flips. -/
theorem gigLds_at (clean : v.core.scrFlips = []) (committed : v.core.spec = none) (single : m.blk = false) : gigLds ci rd m v =
    v.gigSet ci rd (BitVec.ofNat 64 (ofBytesLE ((rangeFrom (m.addr v.core) m.size).map v.core.byteC))) := by
  simp only [gigLds, live.go, form, inside, free, CV.scrRead_committed clean committed, live.alive, single, Bool.false_eq_true, if_false]

end Scratch

theorem gigLdp_at (p : BitVec 8) : gigLdp ci rd p v = v.gigSet ci rd (ci.p p.toNat) := live.go _

theorem gigLdcap_at (off : Nat) : gigLdcap ci rd off v = v.gigSet ci rd ((v.pg.ctxCap ci.ctx off).zeroExtend 64) := live.go _

theorem gigBr_at (op : GBr) (ra : Fin 32) (rb : Option (Fin 32)) (imm : W32) : gigBr ci op ra rb imm v =
    v.gigNext ci fun pc => if op.taken (v.core.g ra) ((rb.map fun b => v.core.g b).getD (imm.signExtend 64)) then ((pc : Int) + imm.toInt).toNat else pc + 1 :=
  (live.go _).trans (by cases rb <;> rfl)

end Memory

/-- Settles O22: each access by its checks in their order, then by what it moves; each branch by its comparison. -/
theorem gigMemoryAndBranches : Obligations.GigMemoryAndBranches := by
  unfold Obligations.GigMemoryAndBranches
  intro s l cx rd ra up runs ci c
  refine ⟨fun m form inside => ?localStore, fun m form inside free => ?scratch, fun st m r form inside g held => ?held, fun st m => ?illegal,
    fun st m e form bad => ?badLocal, fun st m e form bad => ?badScratch, fun p => ?parameter, fun off => ?capability, fun op rb imm => ?branch⟩
  case localStore =>
    exact ⟨State.onHw_gigAt up runs fun _ live => gigLdl_at live form inside, State.onHw_gigAt up runs fun _ live => gigStl_at live form inside⟩
  case scratch =>
    exact ⟨State.onHw_gigAt up runs fun _ live => gigSts_at live form inside (free _ live.runs),
      fun clean committed single => State.onHw_gigAt up runs fun _ live => gigLds_at live form inside (free _ live.runs) clean committed single⟩
  case held =>
    refine State.onHw_gigAt up runs fun _ live => gigScr_held live form inside ?_ st
    exact Option.some.inj (g.symm.trans live.runs) ▸ held
  case illegal =>
    exact ⟨fun form => State.onHw_gigAt up runs fun _ live => gigLs_illegal live form st,
      fun form => State.onHw_gigAt up runs fun _ live => gigScr_illegal live form st⟩
  case badLocal => exact State.onHw_gigAt up runs fun _ live => gigLs_bad live form bad st
  case badScratch => exact State.onHw_gigAt up runs fun _ live => gigScr_bad live form bad st
  case parameter => exact State.onHw_gigAt up runs fun _ live => gigLdp_at live p
  case capability => exact State.onHw_gigAt up runs fun _ live => gigLdcap_at live off.toNat
  case branch =>
    refine State.onHw_gigAt up runs fun _ live => (gigBr_at live op ra rb imm).trans ?_
    cases op <;> cases rb <;> rfl

/-! ## Calls, the FIFO and waits (R209, R213 to R223) -/

section Idle
variable {ci : CInfo} {v : CV} (alive : v.core.failed = false) (free : v.core.gStop = false) (thawed : v.pg.bit (Reg.GIG_DBG_CTRL ci.n) 30 = false)
include alive free thawed

/-- Past the routine's code there is no valid instruction. -/
theorem gigGo_pastEnd {r : GRun} (runs : v.core.grun = some r) (awake : r.waiting = false) (past : r.call.len ≤ r.pc)
    (enabled : v.pg.enabled (Pg.gig ci.n) = true) (quiet : v.pg.unarmed (Pg.gig ci.n) = true) (f : GRun → CV → CV) :
    gigGo ci f v = v.gigExc ci 1 := by
  simp only [gigGo, runs, alive, free, awake, thawed, Pages.detect_unarmed quiet, enabled, past, Bool.or_self, Bool.not_true, Bool.false_eq_true,
    if_false, if_true]

/-- The next queued call starts with its arguments in G1 on. -/
theorem gigDispatch_starts {g : GCallRec} {rest : List GCallRec} (idle : v.core.grun = none) (queued : v.core.gq = g :: rest)
    (enabled : v.pg.enabled (Pg.gig ci.n) = true) :
    gigDispatch ci v = v.onCore fun k =>
      { k with gq := rest, grun := some ⟨g, 0, false, false, false⟩,
               greg := g.args.zipIdx.foldl (fun t a => tset (fun _ => 0) t (a.2 + 1) a.1) [] } := by
  simp only [gigDispatch, queued, idle, alive, free, thawed, enabled, Bool.or_self, Bool.not_true, Bool.false_eq_true, if_false]

end Idle

/-- A wait for the FIFO ends when an item is visible or the level was crossed (R218). -/
theorem gigWake_resumes {ci : CInfo} {v : CV} {r : GRun} (alive : v.core.failed = false) (thawed : v.pg.bit (Reg.GIG_DBG_CTRL ci.n) 30 = false)
    (runs : v.core.grun = some r) (waits : r.waiting = true) (ready : v.core.fifo ≠ [] ∨ r.woken = true) :
    gigWake ci v = (v.onCore fun k => { k with grun := some { r with waiting := false, woken := false } }).gigNext ci (· + 1) := by
  have wakes : (!v.core.fifo.isEmpty || r.woken) = true := by simpa using ready
  simp only [gigWake, runs, waits, alive, thawed, wakes, Bool.true_or, Bool.not_false, Bool.and_self, if_true]

section Fifo
variable {ci : CInfo} {r : GRun} {v : CV} (live : v.GigAt ci r)
include live

/-- RET ends the routine, whose G1 goes to the counter that its call names (R209). -/
theorem gigRet_at : gigRet ci v = (v.gigNext ci id).onCore fun k =>
    let k1 := match r.call.retc with | some i => k.setCtr i (k.g 1) | none => k
    { k1 with grun := none, ord := eraseKind 5 k1.ord } := (live.go _).trans rfl

/-- With no fault armed a pop finds its entry whole (R224). -/
theorem CV.GigAt.fifoCheck : v.fifoCheck ci = v := by
  unfold CV.fifoCheck
  split
  · rfl
  · exact CV.parity_unarmed live.quiet 1 _ _ _

theorem gigPopf_illegal {rd : Fin 32} (form : popfOk rd = false) : gigPopf ci rd v = v.gigExc ci 1 := by
  simp only [gigPopf, live.go, form, Bool.not_false, if_true]

theorem gigPopf_at {rd : Fin 32} (form : popfOk rd = true) :
    gigPopf ci rd v = ((v.fifoPop ci).2.onCore (Core.setG8 rd (v.fifoPop ci).1)).gigNext ci (· + 1) := by
  simp only [gigPopf, live.go, form, live.fifoCheck, live.alive, Bool.not_true, Bool.false_eq_true, if_false]

/-- WAITF waits for an item that is not there yet (R218). -/
theorem gigWaitf_waits (empty : v.core.fifo = []) :
    gigWaitf ci v = v.onCore fun k => { k with grun := k.grun.map fun r => { r with waiting := true, woken := false } } := by
  simp only [gigWaitf, live.go, empty, List.isEmpty_nil, if_true]

theorem gigWaitf_ends (visible : v.core.fifo ≠ []) : gigWaitf ci v = v.gigNext ci (· + 1) := by
  simp only [gigWaitf, live.go, List.isEmpty_eq_false_iff.2 visible, Bool.false_eq_true, if_false]

theorem gigMflush_at : gigMflush ci v = (v.fifoFlush ci).gigNext ci (· + 1) := live.go _

theorem gigTrap_at : gigTrap ci v = v.gigExc ci 6 := live.go _

end Fifo

/-- GIG_FIFO_CTRL at its page's write. -/
theorem Hw.blockWrite_fifoCtrl {n : Nat} (hn : n < 108) (h : Hw) (wi : WarmIn) (r : RegRow) (w : W32) :
    h.blockWrite wi (Pg.gig n) 0x050 r w = (true, h.fifoCtrl n w) := by
  have core : (Pg.gig n - 0x100) / 4 = n := by unfold Pg.gig; omega
  simp only [Hw.blockWrite, pageKind_gig hn, Hw.unitWrite]
  exact congrArg (fun x => (true, h.fifoCtrl x w)) core

/-- A field written as it reads leaves every register as it was. -/
theorem Pages.rd_put_get {hi lo : Nat} (ordered : lo ≤ hi) (fits : hi < 32) {p : Pages} {k : Nat} (j : Nat) :
    (p.put k hi lo (p.get k hi lo)).rd j = p.rd j := by
  rw [Pages.put_eq, Pages.get_eq, setFld_same _ ordered fits, Pages.rd_wr]
  split
  · next here => rw [here]
  · rfl

/-- Which logical core a physical one holds is a matter of what the registers read. -/
theorem Pages.logOf_congr {p q : Pages} (e : ∀ j, p.rd j = q.rd j) (n : Nat) : p.logOf n = q.logOf n := by
  have place : p.physOf = q.physOf := funext fun l => by simp only [Pages.physOf, Pages.get_eq, e]
  unfold Pages.logOf
  rw [place]

/-- FLUSH set in GIG_FIFO_CTRL as it stands: the level stays, and the FIFO of a core that has a logical number is flushed (R219, R223). -/
theorem Hw.fifoCtrl_flush {h : Hw} {n k : Nat} (lg : h.pg.logOf n = some k) :
    h.fifoCtrl n (h.withBit (Reg.GIG_FIFO_CTRL n) 31 true) =
      let h1 := h.onPg fun g => g.put (Reg.GIG_FIFO_CTRL n) 6 0 (g.get (Reg.GIG_FIFO_CTRL n) 6 0)
      let cf := h1.ciOf k ((h1.coreCtx k).getD 0)
      h1.onCv cf (CV.fifoFlush cf) := by
  have level : fld (h.withBit (Reg.GIG_FIFO_CTRL n) 31 true) 6 0 = h.pg.get (Reg.GIG_FIFO_CTRL n) 6 0 :=
    fld_setFld_ne _ (le_refl 31) (by decide) _ (.inl (by decide))
  have flush : wbit (h.withBit (Reg.GIG_FIFO_CTRL n) 31 true) 31 = true := by
    rw [Hw.withBit, wbit_setBit _ (by decide), if_pos rfl]
  have here : (h.onPg (Pages.put (Reg.GIG_FIFO_CTRL n) 6 0 (h.pg.get (Reg.GIG_FIFO_CTRL n) 6 0))).pg.logOf n = some k :=
    (Pages.logOf_congr (Pages.rd_put_get (by decide) (by decide)) n).trans lg
  simp only [Hw.fifoCtrl, level, flush, here, Bool.not_true, Bool.false_eq_true, if_false]
  rfl

/-- Settles O23: each step of the Gig by its own rule, and the flush by its page's write. -/
theorem gigCallsAndFifo : Obligations.GigCallsAndFifo := by
  unfold Obligations.GigCallsAndFifo
  intro s l cx up ci c
  refine ⟨fun on alive free thawed => ⟨fun g rest idle queued enabled => ?start, fun r runs waits ready => ?wake,
      fun r runs awake past enabled quiet => ?pastEnd⟩,
    fun runs => ⟨fun r g => ?ret, fun rd form => ?popIllegal, fun rd form => ?pop, fun empty => ?wait, fun visible => ?noWait, ?flush, ?trap⟩,
    fun p n k ad lg => ?register⟩
  case start => exact State.onHw_gigDo up on (gigDispatch_starts (v := s.hw.cvOf ci) alive free thawed idle queued enabled)
  case wake => exact State.onHw_gigDo up on (gigWake_resumes (v := s.hw.cvOf ci) alive thawed runs waits ready)
  case pastEnd =>
    exact State.onHw_gigDo up on (gigGo_pastEnd (v := s.hw.cvOf ci) alive free thawed runs awake past enabled quiet _)
  case ret =>
    refine State.onHw_gigAt up runs fun _ live => ?_
    rw [Option.some.inj (g.symm.trans live.runs)]
    exact gigRet_at live
  case popIllegal => exact State.onHw_gigAt up runs fun _ live => gigPopf_illegal live form
  case pop => exact State.onHw_gigAt up runs fun _ live => gigPopf_at live form
  case wait => exact State.onHw_gigAt up runs fun _ live => gigWaitf_waits live empty
  case noWait => exact State.onHw_gigAt up runs fun _ live => gigWaitf_ends live visible
  case flush => exact State.onHw_gigAt up runs fun _ live => gigMflush_at live
  case trap => exact State.onHw_gigAt up runs fun _ live => gigTrap_at live
  case register =>
    obtain ⟨r, hr⟩ := Hw.admits_row ad
    exact State.onHw_next up (Hw.regCmd_taken ad hr ((Hw.blockWrite_fifoCtrl n.isLt _ _ _ _).trans (congrArg _ (Hw.fifoCtrl_flush lg))))

end Sys2Proof.Machine

/-! # Proofs: programs of Ethaqua, their control instructions and their modules (R238 to R258, R276) -/

namespace Sys2Proof.Machine

/-! ## What a command is refused for (R244, R257, R258) -/

/-- A native instruction that the translator does not accept is refused. -/
theorem State.onInsn_illFormed {l : Nat} {i : CoreInsn} (ill : i.wf = false) (s : State) : State.onInsn l i s = .refused .illFormed := by
  simp [State.onInsn, ill]

/-- One that it accepts completes, also on a device that a reset or a trip holds. -/
theorem State.onInsn_completes {l : Nat} {i : CoreInsn} (wf : i.wf = true) (s : State) : ∃ t, State.onInsn l i s = .next t := by
  simp [State.onInsn, wf, State.onHw]

/-- A command that carries no native instruction completes: it runs as an effect on the hardware, of a page's block, of the Chaise or of the pins,
and each of these answers a next state. -/
theorem exec_completes {c : Instr} (bare : coreInsn? c = none) (s : State) : ∃ t, exec c s = .next t := by
  cases c with
  | mmode | mload | mstream | mdrain => cases bare
  | vop | vtens | vtensLd | vtensSt | vred | vcvt | vrngSeed | vrngDraw | vmask => cases bare
  | gcall | cset | cinc | ccmp | loop | br | beat | waitarr | fenceInsn | signal | wait => cases bare
  | dcopy | dgather | dscatter | dstash | dunstash | xput | xget | xatom | xmsg => cases bare
  | callr | crscat | cagath | cbcast | ca2a | ca2av | cperm | urecipe | uapply => cases bare
  | _ => exact ⟨_, rfl⟩

/-- Settles O4: by whether the command carries a native instruction. -/
theorem refusesOnlyIllFormed : Obligations.RefusesOnlyIllFormed := by
  unfold Obligations.RefusesOnlyIllFormed
  intro c s
  cases carried : coreInsn? c with
  | none => exact exec_completes carried s
  | some x =>
    have run : exec c s = State.onInsn x.1.val x.2 s := exec_insn carried s
    exact ⟨fun ill => run.trans (State.onInsn_illFormed ill s), fun wf => run ▸ State.onInsn_completes wf s⟩

/-! ## Control instructions that end at once (R238, R240, R276) -/

/-- The control instructions that end at once are dispatched to no queue. -/
theorem CoreInsn.place_of_isScalar {i : CoreInsn} (scalar : i.isScalar = true) : i.place = 4 := by
  cases i with
  | cset | cinc | ccmp | loop | br | beat => rfl
  | _ => cases scalar

/-- A core that takes one carries it out, in a speculative block too. -/
theorem Hw.taken_scalar {i : CoreInsn} (scalar : i.isScalar = true) (l cx : Nat) (h : Hw) :
    h.taken l cx i = h.onCv (h.ciOf l cx) (CV.scalar (h.ciOf l cx) i) := by
  simp only [Hw.taken, CoreInsn.place_of_isScalar scalar, scalar, lt_irrefl, if_false, if_true]

section Scalar
variable (ci : CInfo) (v : CV)

/-- CSET clears no flags without CLR, nor where its source is no FLG. -/
theorem CV.scalar_cset {clr : Bool} {src : Sop} (keeps : clr = false ∨ src.noFlg = true) (d : Fin 16) :
    CV.scalar ci (.cset d clr src) v = v.onCore fun c => (c.setCtr d (src.val ci v)).next := by
  cases src with
  | flg t =>
    obtain rfl : clr = false := keeps.resolve_right Bool.false_ne_true
    rfl
  | _ => rfl

/-- LOOP counts down, and goes on at its target until the counter is 0. -/
theorem CV.scalar_loop (a : Fin 16) (t : BitVec 24) :
    CV.scalar ci (.loop a t) v = v.onCore fun c => if c.c a - 1 ≠ 0 then (c.setCtr a (c.c a - 1)).goto t.toNat else (c.setCtr a 0).next := by
  simp only [CV.scalar]
  refine CV.onCore_congr ?_
  by_cases last : v.core.c a - 1 = 0 <;> simp only [last, ne_eq, not_true_eq_false, not_false_eq_true, if_true, if_false]

/-- BR on a comparator goes on at its target unless the comparator has the value that the instruction negates. -/
theorem CV.scalar_brIf (k : Fin 8) (neg : Bool) (t : BitVec 24) :
    CV.scalar ci (.br (some (k, neg)) t) v = v.onCore fun c => if c.k k = neg then c.next else c.goto t.toNat := by
  simp only [CV.scalar]
  refine CV.onCore_congr ?_
  by_cases stays : v.core.k k = neg <;> simp [stays]

end Scalar

/-- Settles O18: what the core does with a control instruction that it takes, by the instruction's equation. -/
theorem controlAtOnce : Obligations.ControlAtOnce := by
  unfold Obligations.ControlAtOnce
  intro s l cx up
  -- A command that carries such an instruction, where the core takes it.
  have act {c : Instr} {i : CoreInsn} {k : Hw → CV → CV} (carries : coreInsn? c = some (l, i)) (scalar : i.isScalar = true)
      (t : s.hw.takes l.val cx i = true) (wf : i.wf = true) (e : ∀ v, CV.scalar (s.hw.ciOf l.val cx) i v = k s.hw v) :
      exec c s = .next (s.done fun h => (h.onCv (h.ciOf l.val cx) (k h)).pumpCore (h.ciOf l.val cx)) :=
    (exec_insn carries s).trans (State.onInsn_takes up wf t (by rw [Hw.taken_scalar scalar, Hw.onCv_congr (e _)]))
  refine ⟨fun d clr src keeps t wf => ?cset, fun d u t wf => ?csetClr, fun d src t wf => ?cinc, fun d a r src t wf => ?ccmp, fun a u t wf => ?loop,
    fun u t wf => ?br, fun k neg u t wf => ?brIf, fun n t wf => ?beat⟩
  case cset => exact act rfl rfl t wf fun v => CV.scalar_cset _ v keeps d
  case csetClr => exact act rfl rfl t wf fun _ => rfl
  case cinc => exact act rfl rfl t wf fun _ => rfl
  case ccmp => exact act rfl rfl t wf fun _ => rfl
  case loop => exact act rfl rfl t wf fun v => CV.scalar_loop _ v a u
  case br => exact act rfl rfl t wf fun _ => rfl
  case brIf => exact act rfl rfl t wf fun v => CV.scalar_brIf _ v k neg u
  case beat => exact act rfl rfl t wf fun _ => rfl

/-! ## Modules and launches (R242 to R253) -/

/-- The service of the oldest LOAD_MODULE ends with the translation of the image that was read, while CAP_GEN stands (R243, R248). -/
theorem Hw.loadDone_stable {h : Hw} {r : LoadReq} {rest : List LoadReq} {bs : List Byte} (oldest : h.hif.loads = r :: rest) (begun : r.begun = true)
    (image : r.image = some bs) (reached : r.err = 0) (stands : r.capGen = h.pg.rd Reg.CAP_GEN) (us : Nat) :
    h.loadDone us = h.hashed.loadFinish r us (sha384 bs) (h.hashed.loadVerdict r (sha384 bs) bs false) := by
  simp only [Hw.loadDone, oldest, begun, image, reached, stands, Bool.not_true, Bool.false_eq_true, if_false, ne_eq, not_true_eq_false, decide_false,
    Bool.false_and]

/-- UNLOAD_MODULE of a handle that the context holds and no launch uses frees it (R242, R245). -/
theorem Hw.unloadModule_frees {h : Hw} {q : Nat} {e : SqEntry} (r : h.entryReady q 3 e = true) {x : Nat × Nat}
    (holds : ((h.entryStarted q e).ctx e.ctx).handles.find? (fun x => x.1 = e.f 2 1) = some x)
    (unused : ((h.entryStarted q e).ctx e.ctx).launch.any (fun l => l.handle = e.f 2 1) = false) :
    h.hifDo (Hw.unloadModule q) = h.afterHead q ((((((h.entryStarted q e).modCtx e.ctx fun y =>
      let hs := y.handles.filter fun z => z.1 ≠ e.f 2 1
      { y with handles := hs, cache := if hs.any (fun z => z.2 = x.2) then y.cache else y.cache.filter fun z => z.1 ≠ x.2 }).showHandles
        e.ctx).showCache).complete e.q e.cookie 3 0)) := by
  refine (Hw.startEntry_ready r (by decide) _).trans (congrArg _ ?_)
  simp only [holds, unused, Bool.false_eq_true, if_false]

/-- A group slot is read without effect while no parity fault is armed (R427). -/
theorem Hw.grpRead_unarmed {h : Hw} (quiet : h.pg.unarmed (Pg.stg 0) = true) (k : Nat) : h.grpRead k = h := by
  have clean : h.dev.detect (Pg.stg 0) 2 k none false = (false, h.dev) := Dev.detect_unarmed quiet _ _ _
  simp only [Hw.grpRead, clean, Bool.false_eq_true, if_false]

section Launch
variable {h : Hw} {e : SqEntry} {m : Module} {mode : Nat} {slip : Bool}

/-- A launch that passes the checks before its patch list has no group, or one that this device is a member of (R252). -/
theorem Hw.grpMember_of_launchPre (holds : (h.ctx e.ctx).modOf (e.f 2 1) = some m) (pass : h.launchPre e mode slip = none) (group : e.f 3 1 ≠ 0xFF) :
    h.grpMember (e.f 3 1) = true := by
  simp only [Hw.launchPre, holds, ite_eq_iff, reduceCtorEq, and_false, false_or] at pass
  obtain ⟨-, -, -, -, member, -⟩ := pass
  simp only [group, ne_eq, not_false_eq_true, true_and, Bool.not_eq_true', Bool.not_eq_false, Bool.and_eq_true] at member
  exact member.2

/-- Reading the group slot of such a launch changes nothing, where it has none or no parity fault is armed (R427). -/
theorem Hw.launchGroup_passes (holds : (h.ctx e.ctx).modOf (e.f 2 1) = some m) (pass : h.launchPre e mode slip = none)
    (quiet : e.f 3 1 = 0xFF ∨ h.pg.unarmed (Pg.stg 0) = true) : h.launchGroup e none = (none, h) := by
  unfold Hw.launchGroup
  split
  case isFalse => rfl
  case isTrue reads =>
    have group : e.f 3 1 ≠ 0xFF := by omega
    simp only [Hw.grpRead_unarmed (quiet.resolve_left group), Hw.grpMember_of_launchPre holds pass group, if_true]

/-- The mode that a LAUNCH of module m asks for: no lower than the module's own. -/
def SqEntry.launchMode (e : SqEntry) (m : Module) : Nat := max (e.f 1 1 % 4) m.minMode

/-- Whether a LAUNCH runs under SLIP: as it says itself, or else as BEAT_OVR_CTRL does. -/
def SqEntry.launchSlip (e : SqEntry) (h : Hw) : Bool :=
  if e.f 1 1 / 4 % 2 = 1 then decide (e.f 1 1 / 8 % 2 = 1) else h.pg.bit Reg.BEAT_OVR_CTRL 0

/-- LAUNCH without a patch list, on the device h that has started it: one whose checks pass, and whose start is at least 4 beats ahead or left to a
device without a group, is accepted (R252, R253). -/
theorem Hw.launchCmd_accepts {t : Hw} {q : Nat} (r : t.entryReady q 2 e = true) (started : h = t.entryStarted q e)
    (holds : (h.ctx e.ctx).modOf (e.f 2 1) = some m) (pass : h.launchPre e (e.launchMode m) (e.launchSlip h) = none)
    (quiet : e.f 3 1 = 0xFF ∨ h.pg.unarmed (Pg.stg 0) = true) (unpatched : e.f 24 2 = 0) (complete : patchCode m [] = none)
    (start : h.pg.beatNum.toNat + 4 ≤ e.f 8 6 ∨ (e.f 8 6 = 0 ∧ e.f 3 1 = 0xFF)) :
    t.hifDo (Hw.launchCmd q) = t.afterHead q (h.acceptLaunch e m (e.launchMode m) (e.launchSlip h) []) := by
  have group := Hw.launchGroup_passes holds pass quiet
  have patches : patchList 0 [] = ([], true) := rfl
  have timely : ¬((e.f 8 6 ≠ 0 ∧ e.f 8 6 < h.pg.beatNum.toNat + 4) ∨ (e.f 8 6 = 0 ∧ e.f 3 1 ≠ 0xFF)) := by omega
  simp only [SqEntry.launchMode, SqEntry.launchSlip] at pass group ⊢
  refine (Hw.startEntry_ready r (by decide) _).trans (congrArg _ ?_)
  simp only [← started, holds, Option.map_some, Option.getD_some, pass, group, unpatched, if_true, patches, Bool.not_true, Bool.false_eq_true,
    if_false, complete, timely]

end Launch

/-- Settles O27: each entry by the work of its opcode on the device that has started it, and the end of the oldest LOAD_MODULE's service. -/
theorem modulesAndLaunch : Obligations.ModulesAndLaunch := by
  unfold Obligations.ModulesAndLaunch
  intro s q e up g
  refine ⟨fun r => ?load, fun us r rest bs oldest begun image reached stands => ?loaded, fun x r holds unused => ?unload,
    fun m r holds => ?launch⟩
  case load => exact State.onHw_next up (Hw.startEntry_ready r (by decide) _)
  case loaded => exact State.onHw_next up (Hw.loadDone_stable oldest begun image reached stands us)
  case unload => exact State.onHw_next up (Hw.unloadModule_frees r holds unused)
  case launch =>
    intro mode slip pass quiet unpatched complete start
    exact State.onHw_next up (Hw.launchCmd_accepts r rfl holds pass quiet unpatched complete start)

end Sys2Proof.Machine

/-! # Proofs: the instructions that wait in a queue of their unit (R260 to R275) -/

namespace Sys2Proof.Machine

/-- An instruction of the matrix, vector or XFER places joins its queue, speculative block or not. -/
theorem Hw.taken_queued {i : CoreInsn} (queued : i.place < 4) (l cx : Nat) (h : Hw) : h.taken l cx i = h.enqueue (h.pg.physOf l) i :=
  if_pos queued

/-- Settles O16: dispatch enqueues the instruction that the command carries, and the core's queues go on. -/
theorem queuedInstructions : Obligations.QueuedInstructions := by
  unfold Obligations.QueuedInstructions
  intro s c l i cx up carries wf queued takes
  calc exec c s = State.onInsn l.val i s := exec_insn carries s
    _ = .next (s.done fun h => (h.enqueue (h.pg.physOf l.val) i).pumpCore (h.ciOf l.val cx)) :=
      State.onInsn_takes up wf takes (by rw [Hw.taken_queued queued])

end Sys2Proof.Machine

/-! # Proofs: the commands of the memory tiers, of the write-combining buffers and of translation (R287 to R317) -/

namespace Sys2Proof.Machine

/-- A register that an access path may write, set to a word that its page takes. -/
theorem Hw.regSet_taken {h t : Hw} {path : Path} {pg off : Nat} (a : h.admits path pg off = true) {w : W32}
    (taken : ∀ r, h.blockWrite WarmIn.good pg off r w = (true, t)) : h.regSet path pg off w = t := by
  obtain ⟨r, hr⟩ := Hw.admits_row a
  exact Hw.regCmd_taken a hr (taken r)

/-! ## Scrubs (R287, R290, R300) -/

/-- A stack's scrubber that is enabled takes a step, after what the stack reports of its on-die corrections. -/
theorem Dev.scrub_near {u : Nat} (near : u < 8) {d : Dev} (enabled : d.pg.bit (Reg.NT_SCRUB_CTRL u) 0 = true) (n : Nat) (chk : Option (BitVec 15)) :
    d.scrub u n chk = (d.onPg (Pages.onDie u n)).scrubNear u := by
  have apart : Reg.NT_SCRUB_CTRL u ≠ Reg.NT_ODECC_CNT u := by simp only [Reg.NT_SCRUB_CTRL, Reg.NT_ODECC_CNT, regKey]; omega
  have still : (d.pg.onDie u n).bit (Reg.NT_SCRUB_CTRL u) 0 = true := by
    rw [Pages.bit_eq, Pages.onDie, Pages.sat, Pages.rd_upd, if_neg apart]
    exact enabled
  simp only [Dev.scrub, near, Dev.onPg_pg, still, if_true]

/-- A controller's scrubber that is enabled takes a step, after the check line of its group where that fails its CRC. -/
theorem Dev.scrub_far {u : Nat} (far : 8 ≤ u) {d : Dev} (enabled : d.pg.bit (Reg.FT_SCRUB_CTRL (u - 8)) 0 = true) (n : Nat) (chk : Option (BitVec 15)) :
    d.scrub u n chk = (chk.elim d fun lost => d.chkCrc (u - 8) lost).scrubFar (u - 8) := by
  cases chk <;> simp only [Dev.scrub, Nat.not_lt.2 far, enabled, if_true, if_false, Option.elim_none, Option.elim_some]

/-- SCRUB of a unit whose page lets its scrubber work. -/
theorem exec_scrub_works {s : State} (up : s.hw.up = true) {x : ScrubRun}
    (works : s.hw.pg.works (if x.unit.val < 8 then Pg.ntc x.unit.val else Pg.ftc (x.unit.val - 8)) = true) {f : Dev → Dev}
    (does : s.hw.dev.scrub x.unit.val x.odecc.toNat x.chk = f s.hw.dev) : exec (.scrub x) s = .next (s.done (Hw.onDev f)) :=
  State.onHw_next up ((if_pos works).trans (by simp only [Hw.onDev, does]))

/-! ## The write-combining buffers (R295, R317) -/

/-- The time-out of a stack flushes the entry whose last write is the oldest. -/
theorem Dev.wcbTimeout_oldest {d : Dev} {st : Nat} {e : WcbEntry} {rest : List WcbEntry} (oldest : d.wcbStack st = e :: rest) :
    d.wcbTimeout st = d.wcbFlush e := by
  simp only [Dev.wcbTimeout, oldest]

/-- WCB_FLUSH at its page's write. -/
theorem Hw.blockWrite_wcbFlush (h : Hw) (w : W32) (r : RegRow) :
    h.blockWrite WarmIn.good Pg.wcb 0x044 r w = (true, h.onDev (Dev.wcbFlushReg w)) := rfl

/-- A word that holds a byte has the byte's bits. -/
theorem wbit_setWidth_byte (m : Byte) (i : Nat) : wbit (m.setWidth 32) i = wbit m i := by
  simp only [wbit, BitVec.getLsbD_setWidth]
  by_cases small : i < 32
  · simp [small]
  · simp [small, BitVec.getLsbD_of_ge m i (by omega)]

/-! ## Invalidation (R307, R314) -/

/-- XL_INVAL at its page's write, where it is not refused. -/
theorem Hw.blockWrite_xlInval {h : Hw} {w : W32} {f : Dev → Dev} (taken : h.dev.xlInval w = (true, f h.dev)) (r : RegRow) :
    h.blockWrite WarmIn.good Pg.memxl 0x048 r w = (true, h.onDev f) := by
  show ((h.dev.xlInval w).1, ({ h with dev := (h.dev.xlInval w).2 } : Hw)) = _
  rw [taken]
  rfl

/-- The words of XL_INVAL: KIND above, the context below. -/
theorem xlInval_word {k m : Nat} {c : Byte} (hk : k < 4) (e : m = k * 2 ^ 30 + c.toNat) :
    fld (BitVec.ofNat 32 m) 31 30 = k ∧ fld (BitVec.ofNat 32 m) 7 0 = c.toNat := by
  have := c.isLt
  simp only [fld, BitVec.toNat_ofNat]
  omega

/-- What an invalidation of a KIND and a context drops, by the registers of its range; BUSY then stays until it is done. -/
def Dev.xlInvalidate (kind : Nat) (c : Byte) (d : Dev) : Dev :=
  let va := (d.pg.rd64 Reg.XL_INVAL_VA_LO).toNat
  (d.onMem (Mem.xlDrop (fun x => kind = 0 || decide (x = c.toNat)) (if kind = 2 then va else 0)
    (if kind = 2 then va + 65536 * (d.pg.rd Reg.XL_INVAL_PAGES).toNat else 2 ^ 64))).onPg (Pages.setb Reg.XL_INVAL_STAT 0 true)

/-- XL_INVAL with a KIND that it names, while no invalidation is in progress. -/
theorem Dev.xlInval_idle {d : Dev} (idle : d.pg.bit Reg.XL_INVAL_STAT 0 = false) {kind m : Nat} {c : Byte} (named : kind < 3)
    (e : m = kind * 2 ^ 30 + c.toNat) : d.xlInval (BitVec.ofNat 32 m) = (true, d.xlInvalidate kind c) := by
  obtain ⟨isKind, isCtx⟩ := xlInval_word (by omega) e
  have no3 : kind ≠ 3 := by omega
  simp only [Dev.xlInval, Dev.xlInvalidate, isKind, isCtx, idle, no3, Bool.false_eq_true, or_self, if_false]

/-! ## The window (R314) -/

/-- XL_WIN_CMD at its page's write, where it is not refused. -/
theorem Hw.blockWrite_winCmd {h : Hw} {w : W32} {f : Dev → Dev} (taken : h.dev.winCmd w = (true, f h.dev)) (r : RegRow) :
    h.blockWrite WarmIn.good Pg.memxl 0x070 r w = (true, h.onDev f) := by
  show ((h.dev.winCmd w).1, ({ h with dev := (h.dev.winCmd w).2 } : Hw)) = _
  rw [taken]
  rfl

/-- What the window does with an access: it is made at once, and BUSY stays until its flags show. -/
def Dev.winStart (write : Bool) (d : Dev) : Dev :=
  ((d.winAccess write).2.onPg (Pages.wr Reg.XL_WIN_STAT 1)).onMem fun m => { m with win := some (d.winAccess write).1 }

/-- XL_WIN_CMD with READ alone, while no access is in progress. -/
theorem Dev.winCmd_read {d : Dev} (idle : d.pg.bit Reg.XL_WIN_STAT 0 = false) : d.winCmd 1#32 = (true, d.winStart false) := by
  have one : fld (1#32) 1 0 = 1 := rfl
  have read : wbit (1#32) 1 = false := rfl
  simp [Dev.winCmd, Dev.winStart, one, read, idle]

/-- XL_WIN_CMD with WRITE alone. -/
theorem Dev.winCmd_write {d : Dev} (idle : d.pg.bit Reg.XL_WIN_STAT 0 = false) : d.winCmd 2#32 = (true, d.winStart true) := by
  have two : fld (2#32) 1 0 = 2 := rfl
  have write : wbit (2#32) 1 = true := rfl
  simp [Dev.winCmd, Dev.winStart, two, write, idle]

/-- Settles O29: each command by what its unit does with it, each register write by what its page does with the word. -/
theorem memoryCommands : Obligations.MemoryCommands := by
  unfold Obligations.MemoryCommands
  intro s up
  refine ⟨fun u works => ⟨fun n chk near en => ?near, fun n far en => ⟨?far, fun lost => ?spoilt⟩⟩, fun works st e rest oldest => ?timeout,
    fun p m a => ?flush, fun p a idle => ?inval, fun still => ?invalDone, fun p a idle => ?window, fun f pending => ?windowDone⟩
  case near => exact exec_scrub_works up (x := ⟨u, n, chk⟩) works (Dev.scrub_near near en _ chk)
  case far => exact exec_scrub_works up (x := ⟨u, n, none⟩) works (Dev.scrub_far far en _ none)
  case spoilt => exact exec_scrub_works up (x := ⟨u, n, some lost⟩) works (Dev.scrub_far far en _ (some lost))
  case timeout => exact State.onBlock_next up works (by simp only [Hw.onDev, Dev.wcbTimeout_oldest oldest])
  case flush =>
    refine State.onHw_next up ((Hw.regSet_taken a (Hw.blockWrite_wcbFlush _ _)).trans ?_)
    simp only [Hw.onDev, Dev.wcbFlushReg, wbit_setWidth_byte]
  case inval =>
    have drops {kind m : Nat} {c : Byte} (named : kind < 3) (e : m = kind * 2 ^ 30 + c.toNat) :=
      Hw.regSet_taken a (Hw.blockWrite_xlInval (Dev.xlInval_idle idle named e))
    exact ⟨State.onHw_next up (drops (kind := 0) (c := 0) (by decide) rfl), fun c => State.onHw_next up (drops (kind := 1) (by decide) rfl),
      fun c => State.onHw_next up (drops (kind := 2) (by decide) rfl)⟩
  case invalDone => exact State.onHw_next up (by simp only [Hw.xlInvalDone, still, Bool.false_eq_true, if_false])
  case window =>
    exact ⟨State.onHw_next up (Hw.regSet_taken a (Hw.blockWrite_winCmd (Dev.winCmd_read idle))),
      State.onHw_next up (Hw.regSet_taken a (Hw.blockWrite_winCmd (Dev.winCmd_write idle)))⟩
  case windowDone => exact State.onHw_next up (by simp only [Hw.onDev, Dev.winDone, pending])

end Sys2Proof.Machine

/-! # Proofs: what a write to the tiers leaves unchanged (R288, R294 to R297, R301) -/

namespace Sys2Proof.Machine

/-! ## What errors, counters and checks do not touch -/

/-- What memory holds: the tiers' bytes, the open write-combining entries, host memory and the translations. -/
def Mem.held (m : Mem) : Tbl Byte × List WcbEntry × Tbl Byte × List TlbEntry := (m.bytes, m.wcb, m.host, m.tlb)

theorem Dev.storm_held (u p t l : Nat) (cx : CtxId) (d : Dev) : (d.storm u p t l cx).mem.held = d.mem.held := by
  unfold Dev.storm
  simp only [Dev.onMem_mem, apply_ite Dev.mem, Dev.onPg_mem, Dev.detect_mem, ite_self]
  rfl

theorem Dev.foundCe_held (l : Nat) (cx : CtxId) (d : Dev) : (d.foundCe l cx).mem.held = d.mem.held := by
  unfold Dev.foundCe
  dsimp only
  exact Dev.storm_held ..

theorem Dev.foundUe_held (r : Reader) (l : Nat) (cx : CtxId) (d : Dev) : (d.foundUe r l cx).mem.held = d.mem.held := by
  unfold Dev.foundUe
  dsimp only
  rw [Dev.onPg_mem, Dev.onMem_mem]
  rfl

theorem Dev.poisonRd_held (r : Reader) (l : Nat) (cx : CtxId) (d : Dev) : (d.poisonRd r l cx).mem.held = d.mem.held := by
  unfold Dev.poisonRd
  dsimp only
  rw [Dev.onPg_mem]

theorem Dev.chkAccess_held (w : Bool) (l : Nat) (d : Dev) : (d.chkAccess w l).mem.held = d.mem.held := by
  unfold Dev.chkAccess
  split
  · rfl
  · dsimp only
    split
    · rw [Dev.onMem_mem]; rfl
    · rw [Dev.onMem_mem, Dev.onPg_mem]; rfl

theorem Dev.stackDead_held (cx : CtxId) (l : Nat) (d : Dev) : (d.stackDead cx l).2.mem.held = d.mem.held := by
  unfold Dev.stackDead
  split
  · rfl
  · dsimp only
    split
    · rfl
    · split <;> rfl

/-- The interface of a line's stack that an access uses: the update units reach the array beside it (R319). -/
def Dev.interface (r : Reader) (cx : CtxId) (l : Nat) (d : Dev) : Bool × Dev := if r = .suu then (false, d) else d.stackDead cx l

theorem Dev.interface_held (r : Reader) (cx : CtxId) (l : Nat) (d : Dev) : (d.interface r cx l).2.mem.held = d.mem.held := by
  unfold Dev.interface
  split
  · rfl
  · exact Dev.stackDead_held cx l d

/-! ## Reads of a line -/

/-- Place i of a line. -/
theorem getD_line (f : Nat → Byte) (l : Nat) {i : Nat} (hi : i < 64) : ((rangeFrom (64 * l) 64).map f).getD i 0 = f (64 * l + i) := by
  simp [rangeFrom, hi]

/-- A byte as a reader sees it is a matter of what memory holds. -/
theorem Mem.byteFor_held {m m' : Mem} (e : m'.held = m.held) : m'.byteFor = m.byteFor := by
  simp only [Mem.held, Prod.mk.injEq] at e
  obtain ⟨bytes, wcb, -⟩ := e
  funext r a
  simp only [Mem.byteFor, Mem.byte, Mem.wcbOf, bytes, wcb]

/-- A read of a line leaves what memory holds, and in a unit that lets it through delivers the line as its reader sees it, or poison. -/
theorem Dev.readLine_spec (r : Reader) (cx : CtxId) (l : Nat) (d : Dev) :
    (d.readLine r cx l).2.mem.held = d.mem.held ∧
    (d.tierOff r l = false → ∀ bs ∈ (d.readLine r cx l).1, bs = (rangeFrom (64 * l) 64).map (d.mem.byteFor r)) := by
  unfold Dev.readLine
  split
  case isTrue off => exact ⟨rfl, fun on => absurd (off.symm.trans on) (by decide)⟩
  case isFalse =>
    extract_lets s d0 d1 fl d2 u o d3
    have counted : d1.mem.held = d.mem.held := (Dev.chkAccess_held _ l s.2).trans (Dev.interface_held r cx l d)
    have found : d2.mem.held = d.mem.held := by
      show (if fl = 1 then d1.foundCe l cx else if fl = 2 then d1.foundUe r l cx else d1).mem.held = _
      split
      · exact (Dev.foundCe_held l cx d1).trans counted
      · split <;> exact counted
    split
    · exact ⟨found, fun _ bs poison => absurd poison (by simp)⟩
    · refine ⟨found, fun _ bs read => ?_⟩
      rw [← Option.mem_some.1 read, ← Mem.byteFor_held found]

/-! ## Writes of a line -/

/-- The open entry of a line dropped. -/
def Mem.close (l : Nat) (m : Mem) : Mem := { m with wcb := m.wcb.filter fun e => e.line ≠ l }

/-- A line stored whole, its open entry dropped (R294). -/
def Mem.fill (l : Nat) (bs : List Byte) (m : Mem) : Mem := (m.close l).setBytes (64 * l) bs

/-- What a stored line leaves is a matter of what memory held. -/
theorem Mem.fill_held {m m' : Mem} (e : m'.held = m.held) (l : Nat) (bs : List Byte) : (m'.fill l bs).held = (m.fill l bs).held := by
  simp only [Mem.held, Prod.mk.injEq] at e
  obtain ⟨bytes, wcb, host, tlb⟩ := e
  simp only [Mem.held, Mem.fill, Mem.close, Mem.setBytes, bytes, wcb, host, tlb]

@[simp] theorem Dev.wcbOcc_mem (s : Nat) (d : Dev) : (d.wcbOcc s).mem = d.mem := rfl

theorem Dev.wcbDrop_mem (l : Nat) (d : Dev) : (d.wcbDrop l).mem = d.mem.close l := by
  unfold Dev.wcbDrop
  split
  case isTrue => rfl
  case isFalse none =>
    have all : (d.mem.wcb.filter fun e => e.line ≠ l) = d.mem.wcb := by
      rw [List.filter_eq_self]
      simpa using none
    rw [Mem.close, all]

/-- A write of a whole line stores it, where the unit lets it through and the stack's interface has not failed or is not used. -/
theorem Dev.writeLine_held (r : Reader) (l : Nat) (bs : List Byte) (d : Dev) :
    (d.writeLine r l bs).mem.held = if d.tierOff r l = true ∨ (d.interface r none l).1 = true then d.mem.held else (d.mem.fill l bs).held := by
  unfold Dev.writeLine
  split
  case isTrue off => rw [if_pos (.inl off)]
  case isFalse on =>
    extract_lets s d1
    have reached : d1.mem.held = d.mem.held := (Dev.chkAccess_held true l s.2).trans (Dev.interface_held r none l d)
    split
    case isTrue dead => rw [if_pos (.inr dead)]; exact reached
    case isFalse alive =>
      have stores : ¬(d.tierOff r l = true ∨ (d.interface r none l).1 = true) := not_or.2 ⟨on, alive⟩
      rw [if_neg stores, ← Mem.fill_held reached]
      show ((d1.wcbDrop l).mem.setBytes (64 * l) bs).held = _
      rw [Dev.wcbDrop_mem]
      rfl

/-- A write of a whole line stores it or does nothing. -/
theorem Dev.writeLine_cases (r : Reader) (l : Nat) (bs : List Byte) (d : Dev) :
    (d.writeLine r l bs).mem.held = d.mem.held ∨ (d.writeLine r l bs).mem.held = (d.mem.fill l bs).held := by
  rw [Dev.writeLine_held]
  split
  · exact .inl rfl
  · exact .inr rfl

/-! ## Flushes -/

/-- The bytes of an entry over those of its line; a full entry covers them all. -/
def WcbEntry.over (e : WcbEntry) (m : Mem) (i : Nat) : Byte :=
  tget (fun _ => if e.bytes.length = 64 then 0 else m.byte (64 * e.line + i)) e.bytes (64 * e.line + i)

/-- The flush of an entry closes it, and its line stays as it is or is stored with the entry's bytes over its own (R295, R297). -/
theorem Dev.wcbFlush_cases (e : WcbEntry) (d : Dev) :
    (d.wcbFlush e).mem.held = (d.mem.close e.line).held ∨
    (d.wcbFlush e).mem.held = ((d.mem.close e.line).fill e.line ((List.range 64).map (e.over d.mem))).held := by
  unfold Dev.wcbFlush
  extract_lets s d0 par d1 r o src d3 d2
  obtain ⟨read, line⟩ := Dev.readLine_spec .wcb e.cx e.line d1
  have closed : d1.mem = d.mem.close e.line := Dev.detect_mem ..
  have counted : d3.mem = r.2.mem := by
    unfold d3
    rw [Dev.onPg_mem]
  rw [Dev.wcbOcc_mem, ← closed]
  unfold d2
  split
  case isTrue => exact .inl (Dev.foundUe_held ..)
  case isFalse =>
  split
  case isTrue => exact .inl rfl
  case isFalse on =>
  split
  case isTrue full =>
    have covers : (rangeFrom (64 * e.line) 64).map (tget memDefault e.bytes) = (List.range 64).map (e.over d.mem) := by
      rw [rangeFrom, List.map_map]
      refine List.map_congr_left fun i _ => ?_
      simp only [WcbEntry.over, full, if_true]
      rfl
    rw [← covers]
    have := Dev.writeLine_cases .wcb e.line ((rangeFrom (64 * e.line) 64).map (tget memDefault e.bytes)) (d1.onPg (Pages.count Reg.WCB_WHOLE_LO 1))
    rwa [Dev.onPg_mem] at this
  case isFalse partly =>
  split
  case h_1 =>
    rw [Dev.onPg_mem, Dev.onPg_mem, counted]
    exact .inl read
  case h_2 bs clean =>
    have delivered : bs ∈ r.1 := by
      split at clean
      · cases clean
      · exact clean
    have merged : ((List.range 64).map fun i => tget (fun _ => bs.getD i 0) e.bytes (64 * e.line + i)) = (List.range 64).map (e.over d.mem) := by
      refine List.map_congr_left fun i hi => ?_
      rw [WcbEntry.over, if_neg partly, line (by simpa using on) bs delivered, getD_line _ _ (List.mem_range.1 hi), closed]
      rfl
    rw [merged]
    rcases Dev.writeLine_cases .wcb e.line ((List.range 64).map (e.over d.mem)) d3 with same | stored
    · exact .inl (same.trans (counted ▸ read))
    · exact .inr (stored.trans (Mem.fill_held (counted ▸ read) ..))

/-! ## Merges -/

/-- The bytes of a line's entry, if one is open, with bytes from address a over them. -/
def Mem.mergedBytes (a : Nat) (bs : List Byte) (m : Mem) : Tbl Byte :=
  bs.zipIdx.foldl (fun t b => tinsert (terase t (a + b.2)) (a + b.2) b.1) (((m.wcbOf (a / 64)).map (·.bytes)).getD [])

/-- A merge leaves an entry with the bytes merged, behind all others, and may have forced out another entry (R294, R295). -/
theorem Dev.wcbMerge_cases (cx : CtxId) (a : Nat) (bs : List Byte) (d : Dev) :
    ∃ (m : Mem) (e : WcbEntry), (m = d.mem ∨ ∃ f ∈ d.mem.wcb, m = (d.wcbFlush f).mem) ∧ e.line = a / 64 ∧ e.bytes = d.mem.mergedBytes a bs ∧
      (d.wcbMerge cx a bs).mem = { m with wcb := (m.close (a / 64)).wcb ++ [e] } := by
  unfold Dev.wcbMerge
  extract_lets line s old d1 prev prevC merged e
  refine ⟨d1.mem, e, ?_, rfl, rfl, rfl⟩
  unfold d1
  rcases old with _ | _
  · dsimp only
    split
    · split
      · rename_i f rest stack full
        exact .inr ⟨f, List.mem_of_mem_filter (stack ▸ List.mem_cons_self), Dev.onPg_mem ..⟩
      · exact .inl rfl
    · exact .inl rfl
  · exact .inl rfl

/-! ## Bytes of an entry -/

theorem tinsert_perm {α : Type} (t : Tbl α) (k : Nat) (v : α) : (tinsert t k v).Perm ((k, v) :: t) := by
  induction t with
  | nil => exact .refl _
  | cons e t ih =>
    unfold tinsert
    split
    · exact (ih.cons e).trans (.swap _ _ _)
    · exact .refl _

/-- A key that a table does not list reads its default. -/
theorem tget_unlisted {α : Type} (d : Nat → α) {t : Tbl α} {x : Nat} (h : ∀ b ∈ t, b.1 ≠ x) : tget d t x = d x := by
  induction t with
  | nil => rfl
  | cons e t ih =>
    rw [tget, if_neg (h e (by simp))]
    exact ih fun b hb => h b (by simp [hb])

/-- Bytes of the line that holds x, each listed once, and x not among them. -/
def sparing (x : Nat) (t : Tbl Byte) : Prop := (t.map Prod.fst).Nodup ∧ ∀ b ∈ t, b.1 / 64 = x / 64 ∧ b.1 ≠ x

/-- They are fewer than a line. -/
theorem sparing.length_lt {x : Nat} {t : Tbl Byte} (h : sparing x t) : t.length < 64 := by
  obtain ⟨once, apart⟩ := h
  have inLine : t.map Prod.fst ⊆ (List.range' (64 * (x / 64)) 64).erase x := by
    intro k hk
    obtain ⟨b, hb, rfl⟩ := List.mem_map.1 hk
    obtain ⟨line, ne⟩ := apart b hb
    rw [List.mem_erase_of_ne ne, List.mem_range'_1]
    omega
  have fewer := (once.subperm inLine).length_le
  rw [List.length_map, List.length_erase_of_mem (List.mem_range'_1.2 (by omega)), List.length_range'] at fewer
  omega

/-- x itself reads the default. -/
theorem sparing.tget_eq {x : Nat} {t : Tbl Byte} (h : sparing x t) (d : Nat → Byte) : tget d t x = d x :=
  tget_unlisted d fun b hb => (h.2 b hb).2

/-- Another byte of the line joins them. -/
theorem sparing.insert {x k : Nat} {t : Tbl Byte} (h : sparing x t) (line : k / 64 = x / 64) (ne : k ≠ x) (v : Byte) :
    sparing x (tinsert (terase t k) k v) := by
  obtain ⟨once, apart⟩ := h
  have p := tinsert_perm (terase t k) k v
  refine ⟨(p.map Prod.fst).nodup_iff.2 (List.nodup_cons.2 ⟨?_, ?_⟩), fun b hb => ?_⟩
  · rintro hk
    obtain ⟨b, hb, rfl⟩ := List.mem_map.1 hk
    exact (mem_terase.1 hb).2 rfl
  · rw [terase_eq_filter]
    exact once.sublist (List.filter_sublist.map _)
  · rcases mem_tinsert hb with rfl | hb
    · exact ⟨line, ne⟩
    · exact apart b (mem_terase.1 hb).1

/-! ## A byte that nothing writes -/

/-- Byte x of the tiers holds b, and no open entry holds it. -/
def Mem.keeps (x : Nat) (b : Byte) (m : Mem) : Prop := m.byte x = b ∧ ∀ e ∈ m.wcb, e.line = x / 64 → sparing x e.bytes

section Keeps
variable {x : Nat} {b : Byte} {m : Mem} {d : Dev}

theorem Mem.keeps_congr {m' : Mem} (e : m'.held = m.held) : m'.keeps x b ↔ m.keeps x b := by
  simp only [Mem.held, Prod.mk.injEq] at e
  obtain ⟨bytes, wcb, -⟩ := e
  simp only [Mem.keeps, Mem.byte, bytes, wcb]

theorem Mem.keeps.close (h : m.keeps x b) (l : Nat) : (m.close l).keeps x b := ⟨h.1, fun e he => h.2 e (List.mem_of_mem_filter he)⟩

/-- A whole line is stored, which holds it where the line is its own. -/
theorem Mem.keeps.fill (h : m.keeps x b) {l : Nat} {bs : List Byte} (whole : bs.length = 64) (own : l = x / 64 → bs.getD (x % 64) 0 = b) :
    (m.fill l bs).keeps x b := by
  refine ⟨?_, (h.close l).2⟩
  show tget memDefault (tsetList memDefault m.bytes (64 * l) bs) x = b
  rw [tget_tsetList, whole]
  split
  case isTrue =>
    rw [show x - 64 * l = x % 64 by omega]
    exact own (by omega)
  case isFalse => exact h.1

/-- The open entry of a line. -/
theorem Mem.wcbOf_some {l : Nat} {e : WcbEntry} (found : m.wcbOf l = some e) : e ∈ m.wcb ∧ e.line = l :=
  ⟨List.mem_of_find?_eq_some found, by simpa using List.find?_some found⟩

/-- Every reader sees it. -/
theorem Mem.keeps.byteFor (h : m.keeps x b) (r : Reader) : m.byteFor r x = b := by
  obtain ⟨byte, spared⟩ := h
  unfold Mem.byteFor
  split
  · split
    case h_1 e found =>
      obtain ⟨mem, line⟩ := Mem.wcbOf_some found
      rw [(spared e mem line).tget_eq]
      exact byte
    case h_2 => exact byte
  · exact byte

/-- A read keeps it, and a line that holds it is delivered with it. -/
theorem Dev.readLine_keeps (h : d.mem.keeps x b) (r : Reader) (cx : CtxId) (l : Nat) :
    (d.readLine r cx l).2.mem.keeps x b ∧
    (d.tierOff r l = false → ∀ bs ∈ (d.readLine r cx l).1, bs.length = 64 ∧ (l = x / 64 → bs.getD (x % 64) 0 = b)) := by
  obtain ⟨held, line⟩ := Dev.readLine_spec r cx l d
  refine ⟨(Mem.keeps_congr held).2 h, fun on bs read => ?_⟩
  rw [line on bs read]
  refine ⟨by simp [rangeFrom], fun own => ?_⟩
  rw [own, getD_line _ _ (Nat.mod_lt _ (by decide)), Nat.div_add_mod]
  exact h.byteFor r

/-- A write of a whole line keeps it, where what is written holds it. -/
theorem Dev.writeLine_keeps (h : d.mem.keeps x b) (r : Reader) {l : Nat} {bs : List Byte} (whole : bs.length = 64)
    (own : l = x / 64 → bs.getD (x % 64) 0 = b) : (d.writeLine r l bs).mem.keeps x b := by
  rcases Dev.writeLine_cases r l bs d with same | stored
  · exact (Mem.keeps_congr same).2 h
  · exact (Mem.keeps_congr stored).2 (h.fill whole own)

/-- The flush of an entry that does not hold it. -/
theorem Dev.wcbFlush_keeps (h : d.mem.keeps x b) {e : WcbEntry} (spared : e.line = x / 64 → sparing x e.bytes) : (d.wcbFlush e).mem.keeps x b := by
  rcases Dev.wcbFlush_cases e d with closed | stored
  · exact (Mem.keeps_congr closed).2 (h.close _)
  · refine (Mem.keeps_congr stored).2 ((h.close _).fill (by simp) fun own => ?_)
    have small : x % 64 < 64 := Nat.mod_lt _ (by decide)
    rw [List.getD_eq_getElem _ _ (by simpa using small), List.getElem_map, List.getElem_range, WcbEntry.over, own, Nat.div_add_mod,
      (spared own).tget_eq, if_neg (spared own).length_lt.ne]
    exact h.1

/-- An entry that spares x does so after a merge of bytes that are not x's. -/
theorem Mem.keeps.mergedBytes (h : m.keeps x b) {a : Nat} {bs : List Byte} (fits : a % 64 + bs.length ≤ 64) (out : x < a ∨ a + bs.length ≤ x)
    (own : a / 64 = x / 64) : sparing x (m.mergedBytes a bs) := by
  have before : sparing x (((m.wcbOf (a / 64)).map (·.bytes)).getD []) := by
    rcases found : m.wcbOf (a / 64) with _ | e
    · exact ⟨List.nodup_nil, fun c hc => by cases hc⟩
    · obtain ⟨mem, line⟩ := Mem.wcbOf_some found
      exact h.2 e mem (line.trans own)
  refine List.foldlRecOn _ _ before fun t ht c hc => ?_
  have place := List.snd_lt_of_mem_zipIdx hc
  exact ht.insert (by omega) (by omega) _

/-- A merge of bytes that are not x's. -/
theorem Dev.wcbMerge_keeps (h : d.mem.keeps x b) (cx : CtxId) {a : Nat} {bs : List Byte} (fits : a % 64 + bs.length ≤ 64)
    (out : x < a ∨ a + bs.length ≤ x) : (d.wcbMerge cx a bs).mem.keeps x b := by
  obtain ⟨m, e, room, line, bytes, after⟩ := Dev.wcbMerge_cases cx a bs d
  have kept : m.keeps x b := by
    rcases room with rfl | ⟨f, mem, rfl⟩
    · exact h
    · exact Dev.wcbFlush_keeps h (h.2 f mem)
  rw [after]
  refine ⟨kept.1, fun y hy own => ?_⟩
  rcases List.mem_append.1 hy with old | new
  · exact (kept.close _).2 y old own
  · cases List.mem_singleton.1 new
    rw [bytes]
    exact h.mergedBytes fits out (line.symm.trans own)

/-- A line with some bytes written over holds its own beside them. -/
theorem getD_splice {lb bs : List Byte} {k i : Nat} (fits : k + bs.length ≤ lb.length) (out : i < k ∨ k + bs.length ≤ i) :
    (lb.take k ++ bs ++ lb.drop (k + bs.length)).getD i 0 = lb.getD i 0 := by
  have before : (lb.take k).length = k := List.length_take_of_le (by omega)
  simp only [List.getD_eq_getElem?_getD]
  rcases out with low | high
  · rw [List.append_assoc, List.getElem?_append_left (by omega), List.getElem?_take_of_lt low]
  · have upTo : (lb.take k ++ bs).length = k + bs.length := by rw [List.length_append, before]
    rw [List.getElem?_append_right (by omega), upTo, List.getElem?_drop, Nat.add_sub_cancel' high]

/-- A write of a piece of one line that does not reach x. -/
theorem Dev.writePiece_keeps (h : d.mem.keeps x b) (r : Reader) (cx : CtxId) {a : Nat} {bs : List Byte} (fits : a % 64 + bs.length ≤ 64)
    (out : x < a ∨ a + bs.length ≤ x) : (d.writePiece r cx a bs).mem.keeps x b := by
  unfold Dev.writePiece
  split
  case isTrue whole => exact Dev.writeLine_keeps h r whole fun own => by omega
  case isFalse =>
  split
  case isTrue => exact h
  case isFalse taken =>
  split
  case isTrue =>
    split
    · exact Dev.wcbMerge_keeps h cx fits out
    · exact h
  case isFalse far =>
    have on : d.tierOff r (a / 64) = false := by
      simp only [Bool.or_eq_true, Bool.and_eq_true, decide_eq_true_eq, not_or, not_and, Bool.not_eq_true] at taken
      exact taken.2 (Nat.not_lt.1 far)
    obtain ⟨kept, line⟩ := Dev.readLine_keeps h r cx (a / 64)
    extract_lets l d1
    have counted : d1.mem.keeps x b := by
      unfold d1
      rw [Dev.onPg_mem]
      exact kept
    split
    case h_1 => exact counted
    case h_2 lb read =>
      obtain ⟨whole, holds⟩ := line on lb read
      refine Dev.writeLine_keeps counted r (by simp; omega) fun own => ?_
      exact (getD_splice (by omega) (by omega)).trans (holds own)

/-! ## Ranges -/

/-- Each piece of a range lies in it, and in one line. -/
theorem linePieces_fits {a n : Nat} {pc : Nat × Nat} (h : pc ∈ linePieces a n) : a ≤ pc.1 ∧ pc.1 + pc.2 ≤ a + n ∧ pc.1 % 64 + pc.2 ≤ 64 := by
  obtain ⟨i, hi, rfl⟩ := List.mem_map.1 h
  have := List.mem_range.1 hi
  dsimp only
  omega

theorem length_slice {α : Type} {i n : Nat} {l : List α} (h : i + n ≤ l.length) : (slice i n l).length = n := by
  rw [slice, List.length_take_of_le]
  rw [List.length_drop]
  omega

/-- A write of a range that does not reach x. -/
theorem Dev.tierWrite_keeps (h : d.mem.keeps x b) (r : Reader) (cx : CtxId) {a : Nat} {bs : List Byte} (out : x < a ∨ a + bs.length ≤ x) :
    (d.tierWrite r cx a bs).mem.keeps x b := by
  refine List.foldlRecOn (motive := fun t : Dev => t.mem.keeps x b) _ _ h fun t ht pc hpc => ?_
  obtain ⟨start, stop, line⟩ := linePieces_fits hpc
  have long : (slice (pc.1 - a) pc.2 bs).length = pc.2 := length_slice (by omega)
  exact Dev.writePiece_keeps ht r cx (by omega) (by omega)

end Keeps

/-! ## A whole line -/

/-- A range that is one line is one piece. -/
theorem linePieces_line (l : Nat) : linePieces (64 * l) 64 = [(64 * l, 64)] := by
  have one : (64 * l % 64 + 64 + 63) / 64 = 1 := by omega
  simp only [linePieces, one, List.range_one, List.map_cons, List.map_nil, List.cons.injEq, Prod.mk.injEq, and_true]
  omega

theorem Dev.tierWrite_line (r : Reader) (cx : CtxId) (l : Nat) {bs : List Byte} (whole : bs.length = 64) (d : Dev) :
    d.tierWrite r cx (64 * l) bs = d.writeLine r l bs := by
  have all : slice 0 64 bs = bs := List.take_of_length_le (by simp [whole])
  simp only [Dev.tierWrite, whole, linePieces_line, List.foldl_cons, List.foldl_nil, Nat.sub_self, all, Dev.writePiece, if_true,
    Nat.mul_div_cancel_left l (by decide : 0 < 64)]

/-! ## Host memory and the translations -/

/-- What no write to the tiers reaches: host memory and the translations. -/
def Mem.aside (m : Mem) : Tbl Byte × List TlbEntry := (m.host, m.tlb)

theorem Mem.aside_held {m m' : Mem} (e : m'.held = m.held) : m'.aside = m.aside := congrArg (fun x => x.2.2) e

theorem Dev.readLine_aside (r : Reader) (cx : CtxId) (l : Nat) (d : Dev) : (d.readLine r cx l).2.mem.aside = d.mem.aside :=
  Mem.aside_held (Dev.readLine_spec r cx l d).1

theorem Dev.writeLine_aside (r : Reader) (l : Nat) (bs : List Byte) (d : Dev) : (d.writeLine r l bs).mem.aside = d.mem.aside := by
  rcases Dev.writeLine_cases r l bs d with same | stored
  · exact Mem.aside_held same
  · exact (Mem.aside_held stored).trans rfl

theorem Dev.wcbFlush_aside (e : WcbEntry) (d : Dev) : (d.wcbFlush e).mem.aside = d.mem.aside := by
  rcases Dev.wcbFlush_cases e d with closed | stored
  · exact (Mem.aside_held closed).trans rfl
  · exact (Mem.aside_held stored).trans rfl

theorem Dev.wcbMerge_aside (cx : CtxId) (a : Nat) (bs : List Byte) (d : Dev) : (d.wcbMerge cx a bs).mem.aside = d.mem.aside := by
  obtain ⟨m, e, room, -, -, after⟩ := Dev.wcbMerge_cases cx a bs d
  rw [after]
  rcases room with rfl | ⟨f, -, rfl⟩
  · rfl
  · exact Dev.wcbFlush_aside f d

theorem Dev.writePiece_aside (r : Reader) (cx : CtxId) (a : Nat) (bs : List Byte) (d : Dev) : (d.writePiece r cx a bs).mem.aside = d.mem.aside := by
  unfold Dev.writePiece
  split
  · exact Dev.writeLine_aside ..
  split
  · rfl
  split
  · split
    · exact Dev.wcbMerge_aside ..
    · rfl
  dsimp only
  split
  · rw [Dev.onPg_mem, Dev.readLine_aside]
  · rw [Dev.writeLine_aside, Dev.onPg_mem, Dev.readLine_aside]

theorem Dev.tierWrite_aside (r : Reader) (cx : CtxId) (a : Nat) (bs : List Byte) (d : Dev) : (d.tierWrite r cx a bs).mem.aside = d.mem.aside :=
  List.foldlRecOn (motive := fun t : Dev => t.mem.aside = d.mem.aside) _ _ rfl fun _ same _ _ => (Dev.writePiece_aside ..).trans same

/-- Settles O59: no piece of the range reaches a byte outside it, nor does the flush of an entry that a merge forces out; a line that is written
whole is stored, its entry dropped. -/
theorem tierWriteFrame : Obligations.TierWriteFrame := by
  unfold Obligations.TierWriteFrame
  intro d r cx
  refine ⟨fun a bs x closed out => ?outside, fun a bs => ?aside, fun line bs whole on reached => ?line⟩
  case outside =>
    have now : d.mem.keeps x (d.mem.byte x) := ⟨rfl, fun e he own => absurd own (closed e he)⟩
    exact (Dev.tierWrite_keeps now r cx out).1
  case aside =>
    have same := Dev.tierWrite_aside r cx a bs d
    exact ⟨congrArg Prod.fst same, congrArg Prod.snd same⟩
  case line =>
    have alive : (d.interface r none line).1 = false := by
      unfold Dev.interface
      split
      · rfl
      · exact reached.resolve_left ‹_›
    have filled : (d.writeLine r line bs).mem.held = (d.mem.fill line bs).held := by
      rw [Dev.writeLine_held, on, alive, if_neg (by decide)]
    simp only [Mem.held, Prod.mk.injEq] at filled
    obtain ⟨bytes, wcb, -⟩ := filled
    rw [Dev.tierWrite_line r cx line whole]
    refine ⟨fun i hi => ?stored, fun e he => ?closed⟩
    case stored =>
      rw [Mem.byte, bytes]
      refine (tget_tsetList ..).trans ?_
      rw [if_pos (by omega), Nat.add_sub_cancel_left]
      rfl
    case closed =>
      rw [wcb] at he
      exact of_decide_eq_true (List.mem_filter.1 he).2

end Sys2Proof.Machine

/-! # Proofs: flits, and the packets that they carry (R349, R350, R373) -/

namespace Sys2Proof.Machine

/-! ## Cutting bytes into pieces -/

theorem length_chunks (k n : Nat) (bs : List Byte) : (chunks k n bs).length = n := by
  induction n generalizing bs with
  | zero => rfl
  | succ n ih => rw [chunks, List.length_cons, ih]

/-- Enough pieces hold all of the bytes. -/
theorem flatten_chunks {k n : Nat} {bs : List Byte} (enough : bs.length ≤ k * n) : (chunks k n bs).flatten = bs := by
  induction n generalizing bs with
  | zero => exact (List.eq_nil_of_length_eq_zero (Nat.le_zero.1 enough)).symm
  | succ n ih =>
    have rest : (bs.drop k).length ≤ k * n := by
      rw [List.length_drop]
      rw [Nat.mul_succ] at enough
      omega
    rw [chunks, List.flatten_cons, ih rest, List.take_append_drop]

theorem Packet.length_bytes (k : Packet) : k.bytes.length = 32 + k.payload.length := by
  simp only [Packet.bytes, Packet.head, List.length_append, length_bytesLE]

/-! ## The flits of a packet, as they are sent -/

/-- The DATA flits for pieces of a packet of n flits, the first of which has place i. -/
def dataFlits (vc n i : Nat) (cs : List (List Byte)) : List Flit := (cs.zipIdx i).map fun c => ⟨0, none, vc, c.2 = 0, c.2 + 1 = n, c.1⟩

/-- What a flit carries, whatever its number. -/
def Flit.content (f : Flit) : Flit := { f with seq := 0 }

theorem dataFlits_cons (vc n i : Nat) (c : List Byte) (cs : List (List Byte)) :
    dataFlits vc n i (c :: cs) = ⟨0, none, vc, i = 0, i + 1 = n, c⟩ :: dataFlits vc n (i + 1) cs := rfl

theorem map_content_dataFlits (vc n i : Nat) (cs : List (List Byte)) : (dataFlits vc n i cs).map Flit.content = dataFlits vc n i cs := by
  rw [dataFlits, List.map_map]
  rfl

/-- A flit that is sent joins the replay buffer, with its number. -/
theorem LV.sendSeqd_replay (p : Nat) (f : Flit) (v : LV) :
    (v.sendSeqd p f).lk.replay = v.lk.replay ++ [({ f with seq := v.lk.txSeq }, 0)] := rfl

/-- What the replay buffer of a link carries, oldest flit first. -/
def Link.carries (l : Link) : List Flit := l.replay.map fun e => e.1.content

theorem LV.foldl_sendSeqd_carries (p : Nat) (fs : List Flit) (v : LV) :
    (fs.foldl (fun v f => v.sendSeqd p f) v).lk.carries = v.lk.carries ++ fs.map Flit.content := by
  induction fs generalizing v with
  | nil => exact (List.append_nil _).symm
  | cons f fs ih =>
    have sent : (v.sendSeqd p f).lk.carries = v.lk.carries ++ [f.content] := by
      rw [Link.carries, LV.sendSeqd_replay, List.map_append]
      rfl
    rw [List.foldl_cons, ih, sent, List.append_assoc]
    rfl

/-- A packet leaves as the flits of its pieces of 240 bytes. -/
theorem LV.sendPacket_carries (p : Nat) (k : Packet) (v : LV) :
    (v.sendPacket p k).lk.carries =
      v.lk.carries ++ dataFlits k.vc (flitsOf k.payload.length) 0 (chunks 240 (flitsOf k.payload.length) k.bytes) := by
  have flits : ceilDiv k.bytes.length 240 = flitsOf k.payload.length := by rw [k.length_bytes, flitsOf]
  rw [← map_content_dataFlits, ← LV.foldl_sendSeqd_carries p, ← flits]
  rfl

/-! ## Delivery -/

/-- A link that delivers flits in order, and the packets that they complete. -/
def LV.deliverAll (q : Nat) (fs : List Flit) (a : List Packet × LV) : List Packet × LV :=
  fs.foldl (fun a f => (a.1 ++ (a.2.deliver q f).1, (a.2.deliver q f).2)) a

/-- Delivery does not look at a flit's number. -/
theorem LV.foldl_deliver_eq (q : Nat) (l : Link) (a : List Packet × LV) :
    l.replay.foldl (fun a f => let x := a.2.deliver q f.1; (a.1 ++ x.1, x.2)) a = LV.deliverAll q l.carries a := by
  rw [LV.deliverAll, Link.carries, List.foldl_map]
  rfl

/-- The link is not in QUARANTINE (R360). -/
def LV.trusted (q : Nat) (w : LV) : Prop := w.pg.get (Reg.LINK_STAT q) 27 26 = 0

/-- The bytes of a packet once flit f has arrived. -/
def LV.gathered (f : Flit) (w : LV) : List Byte := if f.sop then f.bytes else w.lk.part ++ f.bytes

theorem Pages.get_linkStat_count (g : Pages) (q n hi lo : Nat) : (g.count (Reg.LINK_RXF_LO q) n).get (Reg.LINK_STAT q) hi lo = g.get (Reg.LINK_STAT q) hi lo := by
  have apart : Reg.LINK_STAT q ≠ Reg.LINK_RXF_LO q ∧ Reg.LINK_STAT q ≠ Reg.LINK_RXF_LO q + 1 := by
    simp only [Reg.LINK_STAT, Reg.LINK_RXF_LO, regKey]
    omega
  rw [Pages.get_eq, Pages.count, Pages.rd_wr64_ne _ _ _ _ apart.1 apart.2, Pages.get_eq]

/-- A DATA flit at a link that drops nothing: it is counted, its bytes join the packet, and the last one yields it. -/
theorem LV.deliver_data {q : Nat} {w : LV} {f : Flit} (trust : w.trusted q) (data : f.ctl = none) (whole : f.sop = true ∨ w.lk.dropping = false) :
    w.deliver q f =
      (if f.eop then [Packet.parse (w.gathered f)] else [],
        (w.onPg (Pages.count (Reg.LINK_RXF_LO q) 1)).onLk fun l =>
          { l with rxSeq := (l.rxSeq + 1) % 4096, part := if f.eop then [] else w.gathered f, dropping := false }) := by
  have quiet : w.pg.get (Reg.LINK_STAT q) 27 26 = 0 := trust
  have kept : (!f.sop && w.lk.dropping) = false := by
    rcases whole with h | h <;> simp [h]
  simp only [LV.deliver, LV.gathered, data, LV.onLk_pg, LV.onLk_lk, quiet, kept]
  cases f.eop <;> rfl

/-- The flits of a packet from place i on, delivered in order to a link that holds what the flits before them brought. -/
theorem LV.deliverAll_dataFlits {q vc n i : Nat} {cs : List (List Byte)} (last : i + cs.length = n) (nonempty : cs ≠ []) (ps : List Packet) {w : LV}
    (trust : w.trusted q) (whole : i = 0 ∨ w.lk.dropping = false) :
    let r := LV.deliverAll q (dataFlits vc n i cs) (ps, w)
    r.1 = ps ++ [Packet.parse ((if i = 0 then [] else w.lk.part) ++ cs.flatten)] ∧ r.2.lk.part = [] := by
  induction cs generalizing i ps w with
  | nil => exact absurd rfl nonempty
  | cons c cs ih =>
    have first := LV.deliver_data (f := ⟨0, none, vc, i = 0, i + 1 = n, c⟩) trust rfl (whole.imp_left fun h => by simp [h])
    have gathers : w.gathered ⟨0, none, vc, i = 0, i + 1 = n, c⟩ = (if i = 0 then [] else w.lk.part) ++ c := by
      by_cases h : i = 0 <;> simp [LV.gathered, h]
    rw [gathers] at first
    rw [List.length_cons] at last
    simp only [dataFlits_cons, LV.deliverAll, List.foldl_cons, first]
    by_cases more : cs = []
    · subst more
      have stop : i + 1 = n := last
      simp [dataFlits, stop]
    · have goesOn : ¬ i + 1 = n := by
        have := List.length_pos_of_ne_nil more
        omega
      simp only [goesOn, decide_false, Bool.false_eq_true, if_false, List.append_nil]
      refine (ih (i := i + 1) (by omega) more ps ?_ (.inr rfl)).imp_left fun e => e.trans ?_
      · exact (Pages.get_linkStat_count ..).trans trust
      · simp

/-- Settles O49: the replay buffer carries the flits of the packet's pieces, and their delivery puts the pieces together again. -/
theorem flitsCarryPacket : Obligations.FlitsCarryPacket := by
  unfold Obligations.FlitsCarryPacket
  intro p q k v w trust empty
  have pieces : (chunks 240 (flitsOf k.payload.length) k.bytes).length = flitsOf k.payload.length := length_chunks ..
  have whole : (chunks 240 (flitsOf k.payload.length) k.bytes).flatten = k.bytes := by
    refine flatten_chunks ?_
    rw [k.length_bytes, flitsOf, ceilDiv]
    omega
  have sent : (v.sendPacket p k).lk.carries = dataFlits k.vc (flitsOf k.payload.length) 0 (chunks 240 (flitsOf k.payload.length) k.bytes) := by
    rw [LV.sendPacket_carries, Link.carries, empty]
    rfl
  have nonempty : chunks 240 (flitsOf k.payload.length) k.bytes ≠ [] := by
    refine List.ne_nil_of_length_pos ?_
    rw [pieces, flitsOf, ceilDiv]
    omega
  obtain ⟨packet, rest⟩ := LV.deliverAll_dataFlits (vc := k.vc) ((Nat.zero_add _).trans pieces) nonempty [] trust (.inl rfl)
  rw [LV.foldl_deliver_eq, sent]
  refine ⟨packet.trans ?_, rest, ?_⟩
  · rw [whole]
    rfl
  · have count := congrArg List.length sent
    simpa [Link.carries, dataFlits, pieces] using count

end Sys2Proof.Machine

/-! # Proofs: the bytes of a flit (R349) -/

namespace Sys2Proof.Machine

/-! ## Fields of bytes, one after the other -/

/-- The bytes of fields that follow each other, each of a width in bytes and with a value. -/
def spell (fs : List (Nat × Nat)) : List Byte := fs.flatMap fun f => bytesLE f.1 f.2

/-- The bytes that fields take. -/
def spellWidth (fs : List (Nat × Nat)) : Nat := (fs.map Prod.fst).sum

theorem spell_cons (f : Nat × Nat) (fs : List (Nat × Nat)) : spell (f :: fs) = bytesLE f.1 f.2 ++ spell fs := rfl

theorem length_spell (fs : List (Nat × Nat)) : (spell fs).length = spellWidth fs := by
  simp [spell, spellWidth, List.length_flatMap]

theorem leAt_bytesLE_append (n v : Nat) (rest : List Byte) : leAt (bytesLE n v ++ rest) 0 n = v % 256 ^ n := by
  rw [leAt, slice, List.drop_zero, List.take_left' (length_bytesLE n v), ofBytesLE_bytesLE]

theorem leAt_append_right {l : List Byte} {m : Nat} (long : l.length = m) (r : List Byte) (o n : Nat) : leAt (l ++ r) (m + o) n = leAt r o n := by
  rw [leAt, slice, ← long, List.drop_length_add_append]
  rfl

/-- Field i reads its value, up to its width, behind the fields before it. -/
theorem leAt_spell {fs : List (Nat × Nat)} {i n v : Nat} (field : fs[i]? = some (n, v)) (rest : List Byte) :
    leAt (spell fs ++ rest) (spellWidth (fs.take i)) n = v % 256 ^ n := by
  induction fs generalizing i with
  | nil => cases field
  | cons f fs ih =>
    rw [spell_cons, List.append_assoc]
    cases i with
    | zero =>
      obtain rfl : f = (n, v) := Option.some.inj field
      exact leAt_bytesLE_append n v _
    | succ i =>
      exact (leAt_append_right (length_bytesLE f.1 f.2) _ _ n).trans (ih field)

/-! ## The parts of a flit -/

/-- The CREDIT field: a VC, the bit that says there is one, and a number of flits. -/
def TxHead.creditField (h : TxHead) : Nat := match h.credit with | some c => c.1.val * 0x2000 + 0x1000 + c.2.toNat | none => 0

/-- The fields ahead of the CRC, with their widths. -/
def flitFields (type vc : Nat) (sop eop : Bool) (seq : Nat) (h : TxHead) (len : Nat) : List (Nat × Nat) :=
  [(1, type * 16 + vc), (1, sop.toNat * 128 + eop.toNat * 64), (2, seq), (2, 0x8000 + h.nak.toNat * 0x4000 + h.num.toNat), (2, h.creditField),
    (1, if eop then len else 240), (3, 0)]

/-- The payload's 240 bytes. -/
def flitBody (payload : List Byte) : List Byte := payload ++ List.replicate (240 - payload.length) 0

/-- A flit is its fields, the CRC over all the other bytes, and the payload. -/
theorem flitBytes_eq (type vc : Nat) (sop eop : Bool) (seq : Nat) (h : TxHead) (payload : List Byte) :
    flitBytes type vc sop eop seq h payload =
      spell (flitFields type vc sop eop seq h payload.length) ++
        (bytesLE 4 (crc32 (spell (flitFields type vc sop eop seq h payload.length) ++ flitBody payload)).toNat ++ flitBody payload) := by
  obtain ⟨nak, num, credit⟩ := h
  cases credit <;>
    simp only [flitBytes, flitFields, TxHead.creditField, flitBody, spell, List.flatMap_cons, List.flatMap_nil, List.append_assoc, List.append_nil]

theorem length_flitBody {payload : List Byte} (fits : payload.length ≤ 240) : (flitBody payload).length = 240 := by
  rw [flitBody, List.length_append, List.length_replicate]
  omega

theorem TxHead.creditField_lt (h : TxHead) : h.creditField < 256 ^ 2 := by
  unfold TxHead.creditField
  split
  case h_1 c _ =>
    have vc := c.1.isLt
    have count := c.2.isLt
    omega
  case h_2 => decide

/-- Beyond its payload a flit's body is zero. -/
theorem getD_flitBody_zero {payload : List Byte} {i : Nat} (beyond : payload.length ≤ i) : (flitBody payload).getD i 0 = 0 := by
  rw [flitBody, List.getD_append_right _ _ _ _ beyond, List.getD_eq_getElem?_getD, List.getElem?_getD_replicate_default_eq]

/-- Settles O50: each field by its place among those of its flit. -/
theorem flitLayout : Obligations.FlitLayout := by
  unfold Obligations.FlitLayout
  intro type vc seq sop eop h payload isType isVc isSeq fits
  have parts := flitBytes_eq type vc sop eop seq h payload
  have wide : (spell (flitFields type vc sop eop seq h payload.length)).length = 12 := length_spell _
  have body := length_flitBody fits
  have nak := h.nak.toNat_le
  have num := h.num.isLt
  have credit := h.creditField_lt
  have first := sop.toNat_le
  have last := eop.toNat_le
  generalize flitBytes type vc sop eop seq h payload = b at parts ⊢
  have field (i : Nat) {n v : Nat} (is : (flitFields type vc sop eop seq h payload.length)[i]? = some (n, v)) :
      leAt b (spellWidth ((flitFields type vc sop eop seq h payload.length).take i)) n = v % 256 ^ n := by
    rw [parts]
    exact leAt_spell is _
  have behind : b.drop 16 = flitBody payload := by
    rw [parts, ← List.append_assoc]
    exact List.drop_left' (by rw [List.length_append, wide, length_bytesLE])
  refine ⟨?length, ?type, ?vc, ?ends, ?seq, ?ack, ?credit, ?len, ?zero, ?crc, ?payload, fun i beyond => ?rest⟩
  case length => rw [parts, List.length_append, List.length_append, wide, length_bytesLE, body]
  case type => exact (congrArg (· / 16) (field 0 rfl)).trans (by omega)
  case vc => exact (congrArg (· % 16) (field 0 rfl)).trans (by omega)
  case ends => exact (field 1 rfl).trans (Nat.mod_eq_of_lt (by omega))
  case seq => exact (field 2 rfl).trans (Nat.mod_eq_of_lt (by omega))
  case ack => exact (field 3 rfl).trans (Nat.mod_eq_of_lt (by omega))
  case credit => exact (field 4 rfl).trans (Nat.mod_eq_of_lt credit)
  case len => exact (field 5 rfl).trans (Nat.mod_eq_of_lt (by split <;> omega))
  case zero => exact field 6 rfl
  case crc =>
    have covered : b.take 12 ++ b.drop 16 = spell (flitFields type vc sop eop seq h payload.length) ++ flitBody payload := by
      rw [behind, parts, List.take_left' wide]
    rw [covered, parts]
    calc leAt _ (12 + 0) 4 = leAt _ 0 4 := leAt_append_right wide _ 0 4
      _ = _ % 256 ^ 4 := leAt_bytesLE_append 4 _ _
      _ = _ := Nat.mod_eq_of_lt (BitVec.isLt _)
  case payload =>
    rw [slice, behind]
    exact List.take_left
  case rest =>
    have shift : b.getD i 0 = (b.drop 16).getD (i - 16) 0 := by
      rw [List.getD_eq_getElem?_getD, List.getD_eq_getElem?_getD, List.getElem?_drop, Nat.add_sub_cancel' (by omega)]
    rw [shift, behind]
    exact getD_flitBody_zero (by omega)

end Sys2Proof.Machine

/-! # Proofs: what the events of a link leave unchanged (R215, R343, R350, R358, R363) -/

namespace Sys2Proof.Machine

/-! ## The frame of a port -/

/-- From a to b nothing has changed but registers, the router, the link of port k, and what the FIFOs reserve. -/
def Hw.portFrame (k : Nat) (a b : Hw) : Prop := a.sameBeyondLinks b ∧ ∀ j, j ≠ k → b.link j = a.link j

/-- New registers, a new router and a new link of the port stay within it. -/
theorem Hw.portFrame_set {k : Nat} (h : Hw) (p : Pages) (r : Router) (l : Link) :
    h.portFrame k { h with dev := { h.dev with pg := p }, rtr := r, links := tset (fun _ => Link.reset) h.links k l } :=
  ⟨⟨rfl, fun _ => rfl, rfl, rfl, rfl, rfl, rfl, rfl, rfl, rfl, rfl, rfl, rfl, rfl, rfl, rfl⟩, fun _ other => tget_tset_ne _ _ _ other⟩

/-- So do new registers and a new router alone. -/
theorem Hw.portFrame_setRtr {k : Nat} (h : Hw) (p : Pages) (r : Router) : h.portFrame k { h with dev := { h.dev with pg := p }, rtr := r } :=
  ⟨⟨rfl, fun _ => rfl, rfl, rfl, rfl, rfl, rfl, rfl, rfl, rfl, rfl, rfl, rfl, rfl, rfl, rfl⟩, fun _ _ => rfl⟩

theorem Hw.portFrame_refl {k : Nat} (h : Hw) : h.portFrame k h := h.portFrame_setRtr h.pg h.rtr

theorem Hw.portFrame_onPg {k : Nat} (f : Pages → Pages) (h : Hw) : h.portFrame k (h.onPg f) := h.portFrame_setRtr (f h.pg) h.rtr

section Frame
variable {k : Nat} {a b c : Hw}

theorem Hw.portFrame.trans (x : a.portFrame k b) (y : b.portFrame k c) : a.portFrame k c := by
  obtain ⟨⟨mem, cores, parks, ctxs, colls, bcu, lost, suu, hif, shdw, bays, chaise, servo, power, pod, reads⟩, links⟩ := x
  obtain ⟨⟨mem', cores', parks', ctxs', colls', bcu', lost', suu', hif', shdw', bays', chaise', servo', power', pod', reads'⟩, links'⟩ := y
  have core (n : Nat) : { c.core n with fifoResv := (a.core n).fifoResv } = a.core n := by
    rw [← cores n, ← cores' n]
  exact ⟨⟨mem.trans mem', core, parks.trans parks', ctxs.trans ctxs', colls.trans colls', bcu.trans bcu', lost.trans lost', suu.trans suu',
    hif.trans hif', shdw.trans shdw', bays.trans bays', chaise.trans chaise', servo.trans servo', power.trans power', pod.trans pod',
    reads.trans reads'⟩, fun j other => (links' j other).trans (links j other)⟩

theorem Hw.portFrame.onPg (x : a.portFrame k b) (f : Pages → Pages) : a.portFrame k (b.onPg f) := x.trans (b.portFrame_onPg f)

/-- An update within the port's frame, made where a condition holds. -/
theorem Hw.portFrame.ite {p : Prop} [Decidable p] (x : a.portFrame k b) (y : a.portFrame k c) : a.portFrame k (if p then b else c) := by
  split
  · exact x
  · exact y

/-- Steps within the port's frame, one after the other. -/
theorem Hw.portFrame_foldl {β : Type} {f : Hw → β → Hw} (step : ∀ (h : Hw) (x : β), h.portFrame k (f h x)) (l : List β) (h : Hw) : h.portFrame k (l.foldl f h) :=
  List.foldlRecOn (motive := fun t => h.portFrame k t) l f h.portFrame_refl fun _ x e _ => x.trans (step _ e)

end Frame

/-! ## The router -/

section Router
variable {k : Nat} {inp : Option Nat} (own : inp = none ∨ inp = some k)
include own

/-- The credits of a packet go back to the port that it came by. -/
theorem Hw.giveCredit_frame (p : Packet) (h : Hw) : h.portFrame k (h.giveCredit inp p) := by
  rcases own with rfl | rfl
  · exact h.portFrame_refl
  · exact h.portFrame_set _ h.rtr _

/-- A packet that enters the router is dropped or held. -/
theorem Hw.routeIn_frame (p : Packet) (h : Hw) : h.portFrame k (h.routeIn inp p) := by
  have credit (g : Hw) := Hw.giveCredit_frame own p g
  unfold Hw.routeIn
  split
  · exact credit h
  · dsimp only
    have counted := h.portFrame_onPg (k := k) (Pages.flyIn p.bank)
    have checked := counted.trans (Hw.portFrame_setRtr (k := k) _ ((h.onPg (Pages.flyIn p.bank)).pg.checkPacket inp p h.role).2 h.rtr)
    split
    · exact (checked.onPg _).trans (credit _)
    · exact (checked.onPg _).trans (credit _)
    · exact checked.trans (Hw.portFrame_setRtr _ _ _)
    · exact (Hw.portFrame.ite (checked.onPg _) checked).trans (Hw.portFrame_setRtr _ _ _)

end Router

theorem Hw.inject_frame {k : Nat} (p : Packet) (h : Hw) : h.portFrame k (h.inject p) :=
  Hw.portFrame.ite h.portFrame_refl ((h.portFrame_onPg _).trans (Hw.routeIn_frame (.inl rfl) p _))

/-- The messages that a command makes enter the router. -/
theorem Hw.sendOut_frame {k : Nat} (h : Hw) : h.portFrame k h.sendOut := by
  refine Hw.portFrame.ite ?_ h.portFrame_refl
  unfold Hw.mgFlush
  split
  · exact h.portFrame_refl
  · exact (h.portFrame_onPg _).trans (Hw.portFrame_foldl (fun g _ => Hw.inject_frame _ g) _ _)

/-! ## What a FIFO reserves for a message in arrival (R215) -/

/-- A change of a core that is one of its reservations alone. -/
def CV.reservesOnly (f : CV → CV) : Prop := ∀ v : CV, { (f v).core with fifoResv := v.core.fifoResv } = v.core

theorem CV.fifoShow_core (ci : CInfo) (v : CV) : (v.fifoShow ci).core = v.core := by
  unfold CV.fifoShow
  rw [CV.onPg_core]

theorem CV.fifoDrop_core (ci : CInfo) (v : CV) : (v.fifoDrop ci).core = v.core := by
  simp only [CV.fifoDrop, CV.onPg_core]

theorem CV.fifoReserve_reservesOnly (ci : CInfo) (key : Nat) (same : Bool) (n : Nat) : CV.reservesOnly (CV.fifoReserve ci key same n) := by
  intro v
  simp only [CV.fifoReserve, CV.fifoShow_core, apply_ite CV.core, CV.fifoDrop_core, CV.onCore_core, ite_self]

theorem CV.fifoRelease_reservesOnly (ci : CInfo) (key : Nat) : CV.reservesOnly (CV.fifoRelease ci key) := by
  intro v
  unfold CV.fifoRelease
  split
  · rw [CV.fifoShow_core, CV.onCore_core]
  · rfl

theorem Hw.onFifo_frame {k : Nat} {f : CV → CV} (only : CV.reservesOnly f) (ci : CInfo) (h : Hw) : h.portFrame k (h.onFifo ci f) := by
  refine ⟨⟨rfl, fun n => ?core, rfl, rfl, rfl, rfl, rfl, rfl, rfl, rfl, rfl, rfl, rfl, rfl, rfl, rfl⟩, fun _ _ => rfl⟩
  unfold Hw.onFifo
  rw [Hw.core_setCore]
  split
  case isTrue e =>
    subst e
    exact only ⟨h.pg, h.core ci.n⟩
  case isFalse => rfl

theorem Hw.msgLost_frame {k : Nat} (p : Packet) (h : Hw) : h.portFrame k (h.msgLost p) := by
  unfold Hw.msgLost
  split
  · exact h.portFrame_refl
  · exact Hw.onFifo_frame (CV.fifoRelease_reservesOnly _ _) _ h

theorem Hw.msgHeader_frame {k : Nat} (q : Nat) (p : Packet) (h : Hw) : h.portFrame k (h.msgHeader q p) := by
  unfold Hw.msgHeader
  split
  · exact h.portFrame_refl
  · split
    · exact h.portFrame_refl
    · exact Hw.onFifo_frame (CV.fifoReserve_reservesOnly _ _ _ _) _ h

/-! ## A link's function at its port -/

theorem Hw.landed_frame {k : Nat} (q : Nat) (h : Hw) : h.portFrame k (h.landed q) :=
  (Hw.portFrame_setRtr h h.pg _).trans (Hw.portFrame_foldl (fun g _ => g.portFrame_onPg _) _ _)

theorem Hw.partCount_frame {k : Nat} (before now : Link) (ended : Bool) (h : Hw) : h.portFrame k (h.partCount before now ended) := by
  unfold Hw.partCount
  split
  · exact h.portFrame_refl
  · dsimp only
    split
    all_goals split
    · exact (h.portFrame_onPg _).onPg _
    · exact h.portFrame_onPg _
    · exact h.portFrame_onPg _
    · exact h.portFrame_refl

/-- A packet that the link has completed is routed; one that goes no further leaves its reservation. -/
theorem Hw.received_frame (k : Nat) (h : Hw) (p : Packet) :
    h.portFrame k (let g := h.routeIn (some k) p; if g.rtr.local_.length ≤ h.rtr.local_.length then g.msgLost p else g) := by
  have routed := Hw.routeIn_frame (.inr rfl : some k = none ∨ some k = some k) p h
  exact Hw.portFrame.ite (routed.trans (Hw.msgLost_frame p _)) routed

/-- Whatever a link function makes of the port, all that follows stays within its frame. -/
theorem Hw.onLink_frame (k : Nat) (f : LV → List Packet × LV) (h : Hw) : h.portFrame k (h.onLink k f) := by
  unfold Hw.onLink
  dsimp only
  generalize ((f ⟨h.pg, h.link k⟩).2.settle k).loop k h.pod.cfgEp 32 (h.link k).sent.length = v
  generalize (f ⟨h.pg, h.link k⟩).1 = packets
  have moved := h.portFrame_set (k := k) v.pg h.rtr v.lk
  have counted := (moved.trans (Hw.landed_frame k _)).trans (Hw.partCount_frame (h.link k) v.lk (!packets.isEmpty) _)
  have routed := counted.trans (Hw.portFrame_foldl (Hw.received_frame k) packets _)
  have ended (p : Prop) [Decidable p] (x : Packet) := Hw.portFrame.ite (p := p) (routed.trans (Hw.msgLost_frame x _)) routed
  exact Hw.portFrame.ite (ended _ _) ((ended _ _).trans (Hw.msgHeader_frame _ _ _))

/-! ## The commands that are events of a link -/

theorem Hw.linkDo_frame (k : Nat) (f : LV → LV) (h : Hw) : h.portFrame k (h.linkDo k f) := Hw.portFrame.ite (h.onLink_frame k _) h.portFrame_refl

theorem Hw.linkIn_frame (k : Nat) (f : Nat → LV → LV) (h : Hw) : h.portFrame k (h.linkIn k f) := Hw.portFrame.ite h.portFrame_refl (h.linkDo_frame k _)

theorem Hw.linkRx_frame (k : Nat) (f : LV → List Packet × LV) (h : Hw) : h.portFrame k (h.linkRx k f) :=
  Hw.portFrame.ite (h.onLink_frame k f) h.portFrame_refl

/-- An event of a link does, while the device runs, something within the frame of its port. -/
theorem exec_linkEvent {c : Instr} {k : Fin 10} (port : linkPort? c = some k) (s : State) :
    ∃ f : Hw → Hw, exec c s = s.onHw f ∧ ∀ h : Hw, h.portFrame k.val (f h) := by
  cases c <;> simp only [linkPort?, reduceCtorEq, Option.some.injEq] at port <;> subst port
  case laserLost => exact ⟨_, rfl, fun h => h.onLink_frame _ _⟩
  case id | idle => exact ⟨_, rfl, fun h => h.linkIn_frame _ _⟩
  case data | widthReq | retrainReq | accept | switch => exact ⟨_, rfl, fun h => h.linkRx_frame _ _⟩
  all_goals exact ⟨_, rfl, fun h => h.linkDo_frame _ _⟩

/-- Settles O58: the event's own function and the messages sent out behind it stay within the frame of the port. -/
theorem linkFrame : Obligations.LinkFrame := by
  unfold Obligations.LinkFrame
  intro s t c k port next
  obtain ⟨f, run, frame⟩ := exec_linkEvent port s
  have effect : (if s.hw.up then s.done f else s) = t := Host.Outcome.next.inj (run.symm.trans next)
  subst effect
  split
  · exact ⟨rfl, (frame s.hw).trans (Hw.sendOut_frame _)⟩
  · exact ⟨rfl, s.hw.portFrame_refl⟩

end Sys2Proof.Machine

/-! # Proofs: training of a link (R343 to R362) -/

namespace Sys2Proof.Machine

/-! ## Running an event of a port -/

section Port
variable {s : State} {k : Nat} (up : s.hw.up = true) (works : s.hw.pg.portWorks k = true)
include up works

/-- An event of a port that works, by what its link function makes of the port as it stands. -/
theorem State.linkDo_next {f g : Hw → LV → LV} (e : f s.hw ⟨s.hw.pg, s.hw.link k⟩ = g s.hw ⟨s.hw.pg, s.hw.link k⟩) :
    s.onHw (fun h => h.linkDo k (f h)) = .next (s.done fun h => h.onLink0 k (g h)) :=
  State.onHw_next up ((if_pos works).trans (Hw.onLink0_congr e))

/-- The same of a flit that yields no packet, while the port is not looped back. -/
theorem State.linkIn_next (apart : s.hw.pg.looped k = false) {f : Nat → LV → LV} {g : Hw → LV → LV}
    (e : f s.hw.pod.cfgEp ⟨s.hw.pg, s.hw.link k⟩ = g s.hw ⟨s.hw.pg, s.hw.link k⟩) :
    s.onHw (Hw.linkIn k f) = .next (s.done fun h => h.onLink0 k (g h)) := by
  refine State.onHw_next up ?_
  rw [Hw.linkIn, apart, if_neg Bool.false_ne_true]
  exact (if_pos works).trans (Hw.onLink0_congr e)

end Port

/-- A port that works has both of its pages enabled. -/
theorem Pages.portWorks_enabled {g : Pages} {k : Nat} (works : g.portWorks k = true) : g.enabled (Pg.ope k) = true ∧ g.enabled (Pg.link k) = true := by
  simp only [Pages.portWorks, Pages.works, Bool.and_eq_true] at works
  exact ⟨works.1.1.1, works.2.1.1⟩

/-! ## LASER_CHECK (R344, R346) -/

theorem wbit_bitMask {n i : Nat} (hi : i < n) (j : Nat) : wbit (bitMask n j) i = decide (j = i) := by
  simp only [wbit, bitMask, BitVec.getLsbD_ofNat, hi, decide_true, Bool.true_and, Nat.testBit_two_pow]

/-- A mask out of which lanes are taken keeps the others. -/
theorem wbit_foldl_clear {α : Type} (lane : α → Nat) (ms : List α) (b : BitVec 16) {i : Nat} (hi : i < 16) :
    wbit (ms.foldl (fun b m => b &&& ~~~(bitMask 16 (lane m))) b) i = (wbit b i && ms.all fun m => !decide (lane m = i)) := by
  induction ms generalizing b with
  | nil => simp
  | cons m ms ih => rw [List.foldl_cons, ih, wbit_and, wbit_not _ hi, wbit_bitMask hi, List.all_cons, Bool.and_assoc]

/-- Of the places of a list that pass a test none is i, unless the element at i passes it. -/
theorem all_filter_zipIdx {α : Type} (l : List α) (test : α × Nat → Bool) (i : Nat) :
    ((l.zipIdx.filter test).all fun m => !decide (m.2 = i)) = !(l[i]?.any fun a => test (a, i)) := by
  rw [Bool.eq_iff_iff]
  simp only [List.all_eq_true, List.mem_filter, Prod.forall, List.mk_mem_zipIdx_iff_getElem?, Bool.not_eq_true', decide_eq_false_iff_not,
    Option.any_eq_false]
  constructor
  · exact fun h a ha => by_contra fun ht => h a i ⟨ha, by simpa using ht⟩ rfl
  · rintro h a j ⟨ha, ht⟩ rfl
    exact Bool.false_ne_true ((h a ha).symm.trans ht)

theorem not_monOk (b : Byte) : (!monOk b) = (decide (b.toInt < 90) || decide (160 < b.toInt)) := by
  rw [monOk, Bool.not_and, Bool.eq_iff_iff]
  simp

/-- The lanes that LASER_CHECK does not mark: all but those of a width that read outside the window. -/
def laserLanes (width : Nat) (mon : List Byte) : BitVec 16 :=
  (mon.zipIdx.filter fun m => decide (m.2 < width) && !monOk m.1).foldl (fun b m => b &&& ~~~(bitMask 16 m.2)) 0xFFFF#16

theorem wbit_laserLanes (width : Nat) (mon : List Byte) {i : Nat} (hi : i < 16) :
    wbit (laserLanes width mon) i = !(decide (i < width) && mon[i]?.any fun b => decide (b.toInt < 90) || decide (160 < b.toInt)) := by
  have full : ∀ i : Fin 16, wbit 0xFFFF#16 i.val = true := by decide
  rw [laserLanes, wbit_foldl_clear _ _ _ hi, full ⟨i, hi⟩, Bool.true_and, all_filter_zipIdx]
  simp only [not_monOk]
  cases mon[i]? <;> simp

/-! ## Each step of the training -/

section Step
variable {p : Nat} {v : LV}

/-- From OFF, where ENABLE of both pages and HOLD_OFF let LASER_EN rise. -/
theorem LV.trainStart_off (off : v.st p = 0) (ope : v.pg.enabled (Pg.ope p) = true) (link : v.pg.enabled (Pg.link p) = true)
    (held : v.pg.bit (Reg.LINK_CTRL p) 30 = false) :
    v.trainStart p = (((v.onPg (Pages.setb (Reg.OPE_STAT p) 30 true)).setSt p 1).onPg (Pages.put (Reg.LINK_STAT p) 23 20 9)).onLk fun l =>
      { l with cold := true, waiting := false } := by
  have lit : v.onPg (Pages.laserEn p false) = v.onPg (Pages.setb (Reg.OPE_STAT p) 30 true) := by
    simp [LV.onPg, Pages.laserEn, ope, held]
  simp only [LV.trainStart, off, ope, link, held, lit]
  rfl

theorem LV.rxId_bad {ep : Nat} {rx : FlitRx} {i : IdFlit} {now : W64} (st : v.st p = 5) (bad : rx.bad = true) :
    v.rxId p ep rx i now = v.rxLost p rx := by
  simp only [LV.rxId, st, bad, ne_eq, not_true_eq_false, if_false, if_true]

/-- The partner as its ID flit records it (R359). -/
def LV.peerRecord (p : Nat) (i : IdFlit) (v : LV) : Pages :=
  ((v.pg.wr64 (Reg.LINK_PEER_SER_LO p) i.serial).wr (Reg.LINK_PEER_ID p)
    (BitVec.ofNat 32 (i.nodeValid.toNat * 2 ^ 31 + i.role.toNat * 2 ^ 30 + (v.pg.get (Reg.LINK_PEER_ID p) 29 29) * 2 ^ 29 +
      i.port.val * 2 ^ 24 + i.node.toNat))).wr (Reg.LINK_PEER_EPOCH p) (BitVec.ofNat 32 (i.cfgEp.toNat * 256 + i.fenceEp.toNat))

section Id
variable {ep : Nat} {rx : FlitRx} {i : IdFlit} {now : W64} (st : v.st p = 5) (good : rx.bad = false) (known : rx.rsvdType = false)
include st good known

/-- A first ID flit is recorded and answered. -/
theorem LV.rxId_first (first : i.reply = false) :
    v.rxId p ep rx i now = (({ v with pg := v.peerRecord p i } : LV).onLk fun l => { l with peer := some i }).sendId p ep true i.t1 now now := by
  simp only [LV.rxId, st, good, known, first, Bool.or_false]
  rfl

/-- A reply is recorded and ends the measurement of the delay (R356). -/
theorem LV.rxId_reply (reply : i.reply = true) :
    v.rxId p ep rx i now =
      ({ v with pg := (v.peerRecord p i).put (Reg.LINK_DELAY p) 15 0 (ofSigned 16 (((now - i.t1).toInt - (i.t3 - i.t2).toInt) / 2)) } : LV).onLk fun l =>
        { l with peer := some i, replied := true } := by
  simp only [LV.rxId, st, good, known, reply, Bool.or_true]
  rfl

end Id

section Done
variable {us : W16} {i : IdFlit} (st : v.st p = 5) (peer : v.lk.peer = some i) (replied : v.lk.replied = true)
include st peer replied

/-- No lane set lies within both masks: the attempt fails with cause 11. -/
theorem LV.idDone_noLanes (unfit : laneSet (v.lk.good &&& i.good) (v.limit p) = none) :
    v.idDone p us.toNat = (v.onPg (Pages.put (Reg.LINK_STAT p) 23 20 11)).tryFail p := by
  simp only [LV.idDone, st, peer, replied, unfit]

/-- A trusted partner whose buffers are not resumed: the link discards its own and enters ACTIVE. -/
theorem LV.idDone_discards {set : BitVec 16} (unarmed : v.pg.unarmed (Pg.link p) = true) (lanes : laneSet (v.lk.good &&& i.good) (v.limit p) = some set)
    (trust : v.quarCause p i = 0) (other : v.lk.discard = true ∨ v.lk.lastSer ≠ some i.serial) :
    v.idDone p us.toNat = ((((v.discardAll p).onPg (Pages.setLanes p (some set))).setSt p 6).onPg fun g =>
      (((g.put (Reg.LINK_STAT p) 27 26 0).put (Reg.LINK_STAT p) 19 16 0).setb (Reg.LINK_PEER_ID p) 29 true).put
        (Reg.LINK_TRAIN_LAST p) 15 0 us.toNat).onLk fun l => { l with lastSer := some i.serial, discard := false, timeouts := 0 } := by
  have fresh : (!v.lk.discard && decide (v.lk.lastSer = some i.serial)) = false := by
    rcases other with h | h <;> simp [h]
  have short : min us.toNat 65535 = us.toNat := Nat.min_eq_left (Nat.le_of_lt_succ us.isLt)
  simp only [LV.idDone, st, peer, replied, lanes, Pages.holds_unarmed unarmed, trust, fresh, short]
  rfl

end Done

/-- The laser of a link that trains or carries flits goes dark: a retrain with cause 7 (R343). -/
theorem LV.laserLost_lit (lit : v.pg.bit (Reg.OPE_STAT p) 30 = true) (trains : 1 ≤ v.st p) (alive : v.st p ≠ 8) :
    v.laserLost p = ((v.onPg (Pages.setb (Reg.OPE_STAT p) 31 false)).onPg (Pages.raise (Pg.ope p) 0 0 none)).retrain p 7 := by
  have acts : ¬(v.st p = 0 ∨ v.st p = 8) := by omega
  simp only [LV.laserLost, lit, acts, if_true, if_false]

end Step

/-- Settles O30: each event by what its step makes of a link in the state that the clause names. -/
theorem linkTraining : Obligations.LinkTraining := by
  unfold Obligations.LinkTraining
  intro s k up st lk
  refine ⟨fun works => ?_, fun lit trains alive => ?lost⟩
  case lost => exact State.onHw_next up (Hw.onLink0_congr (LV.laserLost_lit lit trains alive))
  have run {f g : Hw → LV → LV} := State.linkDo_next (f := f) (g := g) up works
  have clear {w : Bool} (h : w = false) : (!w) = true := by rw [h]; rfl
  refine ⟨fun off held => ?start, ?laser, fun w is idle => ?lock, fun w is idle => ?eq, fun is idle => ?align, fun rx f now is apart known => ?id,
    fun is unanswered => ?resend, fun us f is peer replied unfit => ?noLanes,
    fun us f set is peer replied unarmed lanes trust other => ?active, fun low high idle => ?timeout, fun waits => ?retry⟩
  case start =>
    obtain ⟨ope, link⟩ := Pages.portWorks_enabled works
    exact run (LV.trainStart_off off ope link held)
  case laser =>
    intro low high mon is idle
    exact ⟨laserLanes _ mon, run (if_pos ⟨is, clear idle⟩), fun i hi => wbit_laserLanes _ mon hi⟩
  case lock => exact run (if_pos ⟨is, clear idle⟩)
  case eq => exact run (if_pos ⟨is, clear idle⟩)
  case align => exact run (if_pos ⟨is, clear idle⟩)
  case id =>
    intro record
    have take {g : Hw → LV → LV} := State.linkIn_next (f := fun ep => LV.rxId k.val ep rx f now) (g := g) up works apart
    exact ⟨fun bad => take (LV.rxId_bad is bad), fun good first => take (LV.rxId_first is good known first),
      fun good reply => take (LV.rxId_reply is good known reply)⟩
  case resend => exact run (if_pos ⟨is, clear unanswered⟩)
  case noLanes => exact run (LV.idDone_noLanes is peer replied unfit)
  case active => exact run (LV.idDone_discards (v := ⟨s.hw.pg, s.hw.link k.val⟩) is peer replied unarmed lanes trust other)
  case timeout => exact run (if_pos ⟨low, high, clear idle⟩)
  case retry => exact run (if_pos waits)

end Sys2Proof.Machine

/-! # Proofs: flits at an ACTIVE link (R350 to R354, R366, R368) -/

namespace Sys2Proof.Machine

/-! ## Receiving flits at a port -/

/-- Two link functions that agree on the port as it stands, packets and all, do the same to it. -/
theorem Hw.onLink_congr {h : Hw} {p : Nat} {f g : LV → List Packet × LV} (e : f ⟨h.pg, h.link p⟩ = g ⟨h.pg, h.link p⟩) : h.onLink p f = h.onLink p g := by
  simp only [Hw.onLink, e]

/-- A flit at a port that works and is not looped back, by what its link function makes of the port as it stands. -/
theorem State.linkRx_next {s : State} {k : Nat} (up : s.hw.up = true) (works : s.hw.pg.portWorks k = true) (apart : s.hw.pg.looped k = false)
    {f g : LV → List Packet × LV} (e : f ⟨s.hw.pg, s.hw.link k⟩ = g ⟨s.hw.pg, s.hw.link k⟩) :
    s.onHw (Hw.linkRx k f) = .next (s.done (Hw.onLink k g)) := by
  refine State.onHw_next up ?_
  rw [Hw.linkRx, works, apart]
  exact (if_pos rfl).trans (Hw.onLink_congr e)

/-- Under loopback nothing of the partner arrives. -/
theorem State.linkRx_looped {s : State} {k : Nat} (up : s.hw.up = true) (looped : s.hw.pg.looped k = true) (f : LV → List Packet × LV) :
    s.onHw (Hw.linkRx k f) = .next (s.done id) := by
  refine State.onHw_next up ?_
  rw [Hw.linkRx, looped, Bool.not_true, Bool.and_false, if_neg Bool.false_ne_true]
  rfl

section Active
variable {p : Nat} {v : LV} {rx : FlitRx} (active : v.st p = 6)
include active

section Sequenced
variable {f : Flit} (unarmed : v.pg.unarmed (Pg.link p) = true)
include unarmed

/-- A sequenced flit that is bad. -/
theorem LV.rxSeqd_bad (bad : rx.bad = true) : v.rxSeqd p rx f = ([], v.rxBad p rx) := by
  simp [LV.rxSeqd, active, Pages.fire_unarmed unarmed, bad]

/-- One that is good and next in order, while its overhead leaves the link ACTIVE and no such flit waits already. -/
theorem LV.rxSeqd_next (good : rx.bad = false) (known : rx.rsvdType = false) (still : (v.rxHead p rx).st p = 6) (next : f.seq = (v.rxHead p rx).lk.rxSeq)
    (first : ((v.rxHead p rx).lk.reorder.any fun x => x.seq = f.seq) = false) :
    v.rxSeqd p rx f =
      let r := (v.rxHead p rx).deliver p f
      let r2 := r.2.drain p (r.2.lk.reorder.length + 1)
      (r.1 ++ r2.1, r2.2.onLk fun l => { l with naked := l.naked.filter fun q => decide ((q + 4096 - l.rxSeq) % 4096 < 2048) }) := by
  have distance : (f.seq + 4096 - (v.rxHead p rx).lk.rxSeq) % 4096 = 0 := by rw [next, Nat.add_sub_cancel_left]
  simp only [LV.rxSeqd, active, Pages.fire_unarmed unarmed, good, known, still, distance, first]
  rfl

end Sequenced

theorem LV.rxIdle_bad (bad : rx.bad = true) : v.rxIdle p rx = v.rxLost p rx := by
  simp [LV.rxIdle, active, bad]

theorem LV.rxIdle_good (good : rx.bad = false) (known : rx.rsvdType = false) : v.rxIdle p rx = v.rxHead p rx := by
  simp [LV.rxIdle, active, good, known]

/-- Up to three timeouts in a row resend what is outstanding. -/
theorem LV.ackTimeout_resends (out : v.lk.outstanding ≠ 0) (few : v.lk.timeouts < 3) :
    v.ackTimeout p = (v.onLk fun l => { l with timeouts := l.timeouts + 1 }).resend p fun _ => true := by
  simp [LV.ackTimeout, active, out, few]

/-- The fourth retrains with cause 5. -/
theorem LV.ackTimeout_retrains (out : v.lk.outstanding ≠ 0) (many : 3 ≤ v.lk.timeouts) : v.ackTimeout p = v.retrain p 5 := by
  simp [LV.ackTimeout, active, out, many]

end Active

/-- Settles O31: each flit by what an ACTIVE link makes of it. -/
theorem flitsAtLinks : Obligations.FlitsAtLinks := by
  unfold Obligations.FlitsAtLinks
  intro s k rx up works active v0 sequenced
  have st : v0.st k.val = 6 := LV.st_active active
  have exec_sequenced {c : Instr} {f : Flit} (is : sequenced c f) : exec c s = s.onHw (Hw.linkRx k.val (LV.rxSeqd k.val rx f)) := by
    rcases is with ⟨g, rfl, rfl⟩ | ⟨q, good, ⟨rfl, rfl⟩ | ⟨rfl, rfl⟩ | ⟨rfl, rfl⟩ | ⟨rfl, rfl⟩⟩ <;> rfl
  refine ⟨fun apart unarmed c f is => ⟨fun bad => ?bad, fun good known still _ next first => ?next⟩, fun looped c f is => ?looped,
    fun apart good known => ?idle, fun apart bad => ?idleBad, fun out few => ?resends, fun out many => ?retrains⟩
  case bad => exact (exec_sequenced is).trans (State.linkRx_next (g := fun v => ([], v.rxBad k.val rx)) up works apart (LV.rxSeqd_bad st unarmed bad))
  case next => exact (exec_sequenced is).trans (State.linkRx_next up works apart (LV.rxSeqd_next st unarmed good known still next first))
  case looped => exact (exec_sequenced is).trans (State.linkRx_looped up looped _)
  case idle => exact State.linkIn_next (f := fun _ => LV.rxIdle k.val rx) (g := fun _ => LV.rxHead k.val rx) up works apart (LV.rxIdle_good st good known)
  case idleBad => exact State.linkIn_next (f := fun _ => LV.rxIdle k.val rx) (g := fun _ => LV.rxLost k.val rx) up works apart (LV.rxIdle_bad st bad)
  case resends => exact State.linkDo_next (f := fun _ => LV.ackTimeout k.val) up works (LV.ackTimeout_resends st out few)
  case retrains => exact State.linkDo_next (f := fun _ => LV.ackTimeout k.val) up works (LV.ackTimeout_retrains st out many)

end Sys2Proof.Machine

/-! # Proofs: lanes, and the registers of a port (R346, R358 to R371) -/

namespace Sys2Proof.Machine

/-! ## Lanes -/

/-- Two updates of register space are one. -/
theorem LV.onPg_onPg (f g : Pages → Pages) (v : LV) : (v.onPg f).onPg g = v.onPg fun p => g (f p) := rfl

/-- A window of a lane that degrades without failing by its estimate, with 16 uncorrectable codewords or more: the lane fails for those. -/
theorem LV.berWindow_uncorrectable {p ln bits ucws : Nat} {v : LV} (many : 16 ≤ ucws)
    (degraded : v.pg.get (Reg.OPE_THRESH p) 15 0 < min (bits / 4) 65535) (notFailed : min (bits / 4) 65535 ≤ v.pg.get (Reg.OPE_THRESH p) 31 16)
    (pwr : Byte) (cws syms : Nat) :
    v.berWindow p ln pwr bits cws syms ucws =
      ((v.onPg fun g => ((((((g.put (Reg.OPE_LANE p ln) 23 16 pwr.toNat).put (Reg.OPE_LANE p ln) 15 0 (min (bits / 4) 65535)).count (Reg.LINK_CW_LO p) cws).count
        (Reg.LINK_CORR_LO p) syms).setb (Reg.OPE_LANE_DEG p) ln true).sat (Reg.OPE_DEG_CNT p) 1)).onLk fun l =>
          { l with failWin := tset (fun _ => 0) l.failWin ln 0 }).laneFail p ln := by
  unfold LV.berWindow
  dsimp only
  rw [if_pos degraded, if_neg (Nat.not_lt.2 notFailed), if_pos (.inr many), LV.onPg_onPg]

/-! ## Writes of a port's registers -/

/-- A write formed from what the register holds stores its fields. -/
theorem Hw.store_mixed {h : Hw} {pg off : Nat} {r : RegRow} (row : regRow pg off = some r) (w : W32 → W32) :
    h.store pg off r (w (h.pg.rd (regKey pg off))) = h.onPg (Pages.upd (regKey pg off) fun o => mixed pg off o (w o)) := by
  simp only [mixed, row]
  rfl

section Link
variable {k : Nat} (port : k < 10) (h : Hw)
include port

/-- A write of the page of a port's link. -/
theorem Hw.blockWrite_link (wi : WarmIn) (off : Nat) (r : RegRow) (w : W32) : h.blockWrite wi (Pg.link k) off r w = (true, h.linkWrite k off r w) := by
  have index : Pg.link k - Pg.link 0 = k := Nat.add_sub_cancel_left ..
  simp only [Hw.blockWrite, pageKind_link port, index]

/-- A write of the page of a port's optical engine. -/
theorem Hw.blockWrite_ope (wi : WarmIn) (off : Nat) (r : RegRow) (w : W32) : h.blockWrite wi (Pg.ope k) off r w = (true, h.opeWrite k off r w) := by
  have index : Pg.ope k - Pg.ope 0 = k := Nat.add_sub_cancel_left ..
  simp only [Hw.blockWrite, pageKind_ope port, index]

end Link

/-- LINK_CTRL written as it stands, with a bit set or clear. -/
theorem Hw.store_linkCtrl {h : Hw} {k : Nat} {r : RegRow} (row : regRow (Pg.link k) 0x040 = some r) (i : Nat) (b : Bool) :
    h.store (Pg.link k) 0x040 r (h.withBit (Reg.LINK_CTRL k) i b) =
      h.onPg (Pages.upd (Reg.LINK_CTRL k) fun o => mixed (Pg.link k) 0x040 o (setBit o i b)) :=
  Hw.store_mixed row fun o => setBit o i b

/-- With RETRAIN: HOLD_OFF does not change, and software asks for a retrain (R366, R371). -/
theorem Hw.linkCtrl_retrain (k : Nat) (r : RegRow) (h : Hw) :
    h.linkCtrl k r (h.withBit (Reg.LINK_CTRL k) 31 true) =
      (h.store (Pg.link k) 0x040 r (h.withBit (Reg.LINK_CTRL k) 31 true)).onLink0 k fun v => v.softRetrain k := by
  have hold : wbit (h.withBit (Reg.LINK_CTRL k) 31 true) 30 = h.pg.bit (Reg.LINK_CTRL k) 30 := wbit_setBit _ (by decide) true 30
  have ask : wbit (h.withBit (Reg.LINK_CTRL k) 31 true) 31 = true := wbit_setBit _ (by decide) true 31
  simp only [Hw.linkCtrl, hold, ask, bne_self_eq_false, Bool.false_eq_true, if_false, if_true]

/-- With a change of HOLD_OFF, while RETRAIN reads 0 (R358). -/
theorem Hw.linkCtrl_holdOff {k : Nat} (r : RegRow) {h : Hw} {on : Bool} (change : on ≠ h.pg.bit (Reg.LINK_CTRL k) 30)
    (quiet : wbit (h.pg.rd (Reg.LINK_CTRL k)) 31 = false) :
    h.linkCtrl k r (h.withBit (Reg.LINK_CTRL k) 30 on) =
      (h.store (Pg.link k) 0x040 r (h.withBit (Reg.LINK_CTRL k) 30 on)).onLink0 k fun v => v.holdOff k on := by
  have hold : wbit (h.withBit (Reg.LINK_CTRL k) 30 on) 30 = on := wbit_setBit _ (by decide) on 30
  have ask : wbit (h.withBit (Reg.LINK_CTRL k) 30 on) 31 = false := (wbit_setBit _ (by decide) on 31).trans quiet
  simp only [Hw.linkCtrl, hold, ask, bne_iff_ne.2 change, Bool.false_eq_true, if_false, if_true]

section Width
variable {k : Nat} {h : Hw} {r : RegRow} (row : regRow (Pg.ope k) 0x040 = some r) (code : Fin 4)
include row

/-- OPE_CTRL written as it stands, with MAX_WIDTH. -/
theorem Hw.store_maxWidth :
    h.store (Pg.ope k) 0x040 r (setFld (h.pg.rd (Reg.OPE_CTRL k)) 17 16 code.val) =
      h.onPg (Pages.upd (Reg.OPE_CTRL k) fun o => mixed (Pg.ope k) 0x040 o (setFld o 17 16 code.val)) :=
  Hw.store_mixed row fun o => setFld o 17 16 code.val

omit row in
/-- MAX_WIDTH reads back as the code that is written. -/
theorem fld_maxWidth (w : W32) : fld (setFld w 17 16 code.val) 17 16 = code.val :=
  (fld_setFld_self w (by decide) (by decide) code.val).trans (Nat.mod_eq_of_lt code.isLt)

/-- A narrower MAX_WIDTH narrows the port (R346). -/
theorem Hw.opeWrite_narrower (less : widthOf code.val < widthOf (h.pg.get (Reg.OPE_CTRL k) 17 16)) :
    h.opeWrite k 0x040 r (setFld (h.pg.rd (Reg.OPE_CTRL k)) 17 16 code.val) =
      (h.onPg (Pages.upd (Reg.OPE_CTRL k) fun o => mixed (Pg.ope k) 0x040 o (setFld o 17 16 code.val))).onLink0 k fun v =>
        v.narrow k (widthOf code.val) := by
  simp only [Hw.opeWrite, Hw.store_maxWidth row, fld_maxWidth, less, and_self, if_true]

/-- Any other is written and does nothing more. -/
theorem Hw.opeWrite_wider (more : widthOf (h.pg.get (Reg.OPE_CTRL k) 17 16) ≤ widthOf code.val) :
    h.opeWrite k 0x040 r (setFld (h.pg.rd (Reg.OPE_CTRL k)) 17 16 code.val) =
      h.onPg (Pages.upd (Reg.OPE_CTRL k) fun o => mixed (Pg.ope k) 0x040 o (setFld o 17 16 code.val)) := by
  simp only [Hw.opeWrite, Hw.store_maxWidth row, fld_maxWidth, Nat.not_lt.2 more, and_false, if_false]

end Width

/-- A byte in a word reads as the word's low field. -/
theorem fld_setWidth_byte (b : Byte) : fld (b.setWidth 32) 7 0 = b.toNat := by
  have := b.isLt
  simp only [fld, BitVec.toNat_setWidth]
  omega

/-- LINK_CTRL at its page's write. -/
theorem Hw.linkWrite_linkCtrl (k : Nat) (r : RegRow) (w : W32) (h : Hw) : h.linkWrite k 0x040 r w = h.linkCtrl k r w := by
  rw [Hw.linkWrite, if_pos rfl]

/-- LINK_EXP_EPOCH at its page's write (R360). -/
theorem Hw.linkWrite_expEpoch (k : Nat) (r : RegRow) (ep : Byte) (h : Hw) :
    h.linkWrite k 0x058 r (ep.setWidth 32) = h.onLink0 k fun v => v.expEpoch k ep.toNat := by
  rw [Hw.linkWrite, if_neg (by decide), if_pos rfl, fld_setWidth_byte]

/-- Settles O32: each event by its link function, each register write by what the port's page does with the word. -/
theorem lanesAndPorts : Obligations.LanesAndPorts := by
  unfold Obligations.LanesAndPorts
  intro s k up st lk
  refine ⟨fun works => ?events, fun p a => ?link, fun p w a => ?width, fun p ep a => ?epoch⟩
  case events =>
    have run {f g : LV → LV} := State.linkDo_next (f := fun _ => f) (g := fun _ => g) up works
    refine ⟨fun late => run (if_pos late), fun ln => run rfl, fun ln => run rfl, fun ln pw b c y w many degraded notFailed => ?_,
      fun n carries limit persist => run (if_pos ⟨carries, limit, persist⟩)⟩
    exact run (LV.berWindow_uncorrectable (v := ⟨s.hw.pg, s.hw.link k.val⟩) many degraded notFailed pw c y)
  case link =>
    obtain ⟨r, row⟩ := Hw.admits_row a
    have act (w : W32) : s.hw.blockWrite WarmIn.good (Pg.link k.val) 0x040 r w = (true, s.hw.linkCtrl k.val r w) := by
      rw [Hw.blockWrite_link k.isLt, Hw.linkWrite_linkCtrl]
    refine ⟨State.onHw_next up ((Hw.regCmd_taken a row (act _)).trans ?retrain),
      fun on change quiet => State.onHw_next up ((Hw.regCmd_taken a row (act _)).trans ?holdOff)⟩
    case retrain => exact (Hw.linkCtrl_retrain k.val r s.hw).trans (congrArg (Hw.onLink0 k.val _) (Hw.store_linkCtrl row 31 true))
    case holdOff => exact (Hw.linkCtrl_holdOff r change quiet).trans (congrArg (Hw.onLink0 k.val _) (Hw.store_linkCtrl row 30 on))
  case width =>
    obtain ⟨r, row⟩ := Hw.admits_row a
    have act (w : W32) := Hw.blockWrite_ope k.isLt s.hw WarmIn.good 0x040 r w
    exact ⟨fun less => State.onHw_next up ((Hw.regCmd_taken a row (act _)).trans (Hw.opeWrite_narrower row w less)),
      fun more => State.onHw_next up ((Hw.regCmd_taken a row (act _)).trans (Hw.opeWrite_wider row w more))⟩
  case epoch =>
    have act (r : RegRow) : s.hw.blockWrite WarmIn.good (Pg.link k.val) 0x058 r (ep.setWidth 32) =
        (true, s.hw.onLink0 k.val fun v => v.expEpoch k.val ep.toNat) := by
      rw [Hw.blockWrite_link k.isLt, Hw.linkWrite_expEpoch]
    exact State.onHw_next up (Hw.regSet_taken a act)

end Sys2Proof.Machine

/-! # Proofs: the bytes of a packet (R373) -/

namespace Sys2Proof.Machine

/-! ## The words that hold more than one field -/

/-- Header byte 5: GEN, BANK and VC. -/
def Packet.routeByte (k : Packet) : Nat := k.gen % 16 * 16 + k.bank % 2 * 8 + k.vc % 8

/-- Header bytes 14 and 15: EOT, SOT and LEN. -/
def Packet.sizeWord (k : Packet) : Nat := k.eot.toNat * 0x4000 + k.sot.toNat * 0x2000 + k.len % 0x2000

/-- Header bytes 16 to 19: BEAT, PSEQ and TAG. -/
def Packet.orderWord (k : Packet) : Nat := k.beat % 8 * 2 ^ 29 + k.pseq % 64 * 2 ^ 23 + k.tag % 2 ^ 23

section Words
variable {k : Packet}

theorem Packet.routeByte_lt : k.routeByte < 256 ^ 1 := by
  unfold Packet.routeByte
  omega

theorem Packet.sizeWord_lt : k.sizeWord < 256 ^ 2 := by
  have eot := k.eot.toNat_le
  have sot := k.sot.toNat_le
  unfold Packet.sizeWord
  omega

theorem Packet.orderWord_lt : k.orderWord < 256 ^ 4 := by
  unfold Packet.orderWord
  omega

theorem Packet.routeByte_fields (gen : k.gen < 16) (bank : k.bank < 2) (vc : k.vc < 8) :
    k.routeByte / 16 = k.gen ∧ k.routeByte / 8 % 2 = k.bank ∧ k.routeByte % 8 = k.vc := by
  unfold Packet.routeByte
  omega

theorem Packet.sizeWord_fields (len : k.len < 2 ^ 13) :
    decide (k.sizeWord / 0x4000 % 2 = 1) = k.eot ∧ decide (k.sizeWord / 0x2000 % 2 = 1) = k.sot ∧ k.sizeWord % 0x2000 = k.len := by
  have eot : k.sizeWord / 0x4000 % 2 = k.eot.toNat := by
    have := k.eot.toNat_le
    have := k.sot.toNat_le
    unfold Packet.sizeWord
    omega
  have sot : k.sizeWord / 0x2000 % 2 = k.sot.toNat := by
    have := k.sot.toNat_le
    unfold Packet.sizeWord
    omega
  refine ⟨?_, ?_, ?_⟩
  · rw [eot]
    cases k.eot <;> rfl
  · rw [sot]
    cases k.sot <;> rfl
  · unfold Packet.sizeWord
    omega

theorem Packet.orderWord_fields (beat : k.beat < 8) (pseq : k.pseq < 64) (tag : k.tag < 2 ^ 23) :
    k.orderWord / 2 ^ 29 = k.beat ∧ k.orderWord / 2 ^ 23 % 64 = k.pseq ∧ k.orderWord % 2 ^ 23 = k.tag := by
  unfold Packet.orderWord
  omega

end Words

/-! ## The header -/

/-- The words of the header, HCRC the last, with their widths. -/
def Packet.headFields (k : Packet) : List (Nat × Nat) :=
  [(2, k.dst), (2, k.src), (1, k.ctx), (1, k.routeByte), (1, k.opc), (1, k.fep), (6, k.addr), (2, k.sizeWord), (4, k.orderWord), (8, k.ext.toNat),
    (4, k.hcrc.toNat)]

/-- A packet is the words of its header, and the payload. -/
theorem Packet.bytes_eq (k : Packet) : k.bytes = spell k.headFields ++ k.payload := by
  simp only [Packet.bytes, Packet.head, Packet.headFields, Packet.routeByte, Packet.sizeWord, Packet.orderWord, spell, List.flatMap_cons,
    List.flatMap_nil, List.append_assoc, List.append_nil]

/-- Word i of the header reads its value, where its width holds it. -/
theorem Packet.word_bytes (k : Packet) (i : Nat) {n v : Nat} (word : k.headFields[i]? = some (n, v)) (fits : v < 256 ^ n) :
    ofBytesLE (slice (spellWidth (k.headFields.take i)) n k.bytes) = v := by
  rw [k.bytes_eq]
  exact (leAt_spell word _).trans (Nat.mod_eq_of_lt fits)

theorem Packet.drop_bytes (k : Packet) : k.bytes.drop 32 = k.payload := by
  rw [k.bytes_eq]
  exact List.drop_left' (length_spell k.headFields)

/-- Settles O48: each word of the header reads its value back, and a word of more than one field holds each of them apart from the others. -/
theorem packetRoundTrip : Obligations.PacketRoundTrip := by
  unfold Obligations.PacketRoundTrip
  intro k dst src ctx gen bank vc opc fep addr len beat pseq tag score
  have dstAt : ofBytesLE (slice 0 2 k.bytes) = k.dst := k.word_bytes 0 rfl dst
  have srcAt : ofBytesLE (slice 2 2 k.bytes) = k.src := k.word_bytes 1 rfl src
  have ctxAt : ofBytesLE (slice 4 1 k.bytes) = k.ctx := k.word_bytes 2 rfl ctx
  have routeAt : ofBytesLE (slice 5 1 k.bytes) = k.routeByte := k.word_bytes 3 rfl Packet.routeByte_lt
  have opcAt : ofBytesLE (slice 6 1 k.bytes) = k.opc := k.word_bytes 4 rfl opc
  have fepAt : ofBytesLE (slice 7 1 k.bytes) = k.fep := k.word_bytes 5 rfl fep
  have addrAt : ofBytesLE (slice 8 6 k.bytes) = k.addr := k.word_bytes 6 rfl addr
  have sizeAt : ofBytesLE (slice 14 2 k.bytes) = k.sizeWord := k.word_bytes 7 rfl Packet.sizeWord_lt
  have orderAt : ofBytesLE (slice 16 4 k.bytes) = k.orderWord := k.word_bytes 8 rfl Packet.orderWord_lt
  have extAt : ofBytesLE (slice 20 8 k.bytes) = k.ext.toNat := k.word_bytes 9 rfl k.ext.isLt
  have hcrcAt : ofBytesLE (slice 28 4 k.bytes) = k.hcrc.toNat := k.word_bytes 10 rfl k.hcrc.isLt
  obtain ⟨genOf, bankOf, vcOf⟩ := Packet.routeByte_fields gen bank vc
  obtain ⟨eotOf, sotOf, lenOf⟩ := Packet.sizeWord_fields len
  obtain ⟨beatOf, pseqOf, tagOf⟩ := Packet.orderWord_fields beat pseq tag
  simp only [Packet.parse, dstAt, srcAt, ctxAt, routeAt, opcAt, fepAt, addrAt, sizeAt, orderAt, extAt, hcrcAt, genOf, bankOf, vcOf, eotOf, sotOf,
    lenOf, beatOf, pseqOf, tagOf, BitVec.ofNat_toNat, BitVec.setWidth_eq, k.drop_bytes, ← score]

end Sys2Proof.Machine

/-! # Proofs: how a transfer is split into packets (R376) -/

namespace Sys2Proof.Machine

/-! ## Splitting at the block boundaries -/

/-- What reaches no further than its block is one piece. -/
theorem splitAt4k_last {a n : Nat} (positive : 0 < n) (fits : a % 4096 + n ≤ 4096) (fuel : Nat) : splitAt4k a (fuel + 1) n = [(a, n)] := by
  have whole : min n (4096 - a % 4096) = n := by omega
  have nothing : splitAt4k (a + n) fuel 0 = [] := by cases fuel <;> rfl
  rw [splitAt4k, whole, Nat.sub_self, nothing]
  exact Nat.pos_iff_ne_zero.1 positive

/-- What reaches further gives the rest of its block, and then what follows. -/
theorem splitAt4k_more {a d n : Nat} (block : a % 4096 + d = 4096) (positive : 0 < n) (fuel : Nat) :
    splitAt4k a (fuel + 1) (d + n) = (a, d) :: splitAt4k (a + d) fuel n := by
  have first : min (d + n) (4096 - a % 4096) = d := by omega
  rw [splitAt4k, first, Nat.add_sub_cancel_left]
  omega

/-- The pieces of a transfer, by induction on them: the last ends in its block, every other ends where its block does. -/
theorem pieces_induction {motive : Nat → Nat → List (Nat × Nat) → Prop}
    (last : ∀ a n, 0 < n → a % 4096 + n ≤ 4096 → motive a n [(a, n)])
    (more : ∀ a d n l, a % 4096 + d = 4096 → 0 < n → motive (a + d) n l → motive a (d + n) ((a, d) :: l)) {a n : Nat} (positive : 0 < n) :
    motive a n (pieces a n) := by
  have split (fuel : Nat) : ∀ a n, 0 < n → a % 4096 + n ≤ 4096 * fuel → motive a n (splitAt4k a fuel n) := by
    induction fuel with
    | zero => omega
    | succ fuel ih =>
      intro a n positive room
      by_cases fits : a % 4096 + n ≤ 4096
      · rw [splitAt4k_last positive fits]
        exact last a n positive fits
      · obtain ⟨d, block⟩ : ∃ d, a % 4096 + d = 4096 := ⟨4096 - a % 4096, by omega⟩
        obtain ⟨m, rfl⟩ : ∃ m, n = d + m := ⟨n - d, by omega⟩
        have rest : 0 < m := by omega
        rw [splitAt4k_more block rest]
        exact more a d m _ block rest (ih (a + d) m rest (by omega))
  rw [pieces, if_neg (Nat.pos_iff_ne_zero.1 positive)]
  exact split _ a n positive (by omega)

/-- One piece for each block that the transfer touches. -/
theorem length_pieces {a n : Nat} (positive : 0 < n) : (pieces a n).length = (a % 4096 + n + 4095) / 4096 := by
  refine pieces_induction (motive := fun a n l => l.length = (a % 4096 + n + 4095) / 4096) ?last ?more positive
  case last =>
    intro a n positive fits
    rw [List.length_singleton]
    omega
  case more =>
    intro a d n l block _ count
    rw [List.length_cons, count]
    omega

/-- Each piece lies in one block, and only the first may begin within it. -/
theorem mem_pieces {a n : Nat} (positive : 0 < n) :
    ∀ x ∈ pieces a n, 0 < x.2 ∧ x.1 % 4096 + x.2 ≤ 4096 ∧ (x.1 = a ∨ x.1 % 4096 = 0) := by
  refine pieces_induction (motive := fun a _ l => ∀ x ∈ l, 0 < x.2 ∧ x.1 % 4096 + x.2 ≤ 4096 ∧ (x.1 = a ∨ x.1 % 4096 = 0)) ?last ?more positive
  case last =>
    intro a n positive fits
    rw [List.forall_mem_singleton]
    exact ⟨positive, fits, .inl rfl⟩
  case more =>
    intro a d n l block _ each
    rw [List.forall_mem_cons]
    refine ⟨⟨by omega, block.le, .inl rfl⟩, fun x hx => ?_⟩
    obtain ⟨long, within, start⟩ := each x hx
    exact ⟨long, within, .inr (by omega)⟩

/-- The pieces, one after the other, are the transfer. -/
theorem flatMap_pieces {a n : Nat} (positive : 0 < n) : (pieces a n).flatMap (fun x => List.range' x.1 x.2) = List.range' a n := by
  refine pieces_induction (motive := fun a n l => l.flatMap (fun x => List.range' x.1 x.2) = List.range' a n) ?last ?more positive
  case last =>
    intro a n _ _
    exact List.flatMap_singleton ..
  case more =>
    intro a d n l _ _ rest
    rw [List.flatMap_cons, rest, List.range'_append_1]

/-! ## Packets and flits -/

/-- Settles O51: the pieces by induction on them, a packet's fields as its making sets them, the flits by arithmetic. -/
theorem transferPieces : Obligations.TransferPieces := by
  unfold Obligations.TransferPieces
  refine ⟨fun a n positive => ⟨length_pieces positive, mem_pieces positive, flatMap_pieces positive⟩,
    fun g dst opc vc ctx gen addr tag score bs x few => ?packet, fun n => rfl, fun n small => ?most, rfl⟩
  case packet => exact ⟨Nat.mod_eq_of_lt few, rfl, rfl⟩
  case most =>
    rw [flitsOf, ceilDiv]
    omega

end Sys2Proof.Machine

/-! # Proofs: grants, samples and the registers of routing (R385 to R401) -/

namespace Sys2Proof.Machine

/-! ## Grants and samples (R387, R395) -/

/-- The first packet of the port's order that the link takes is granted. -/
theorem Hw.grant_first {h : Hw} {p : Nat} {x : Held}
    (first : (h.rtr.grantOrder p).find? (fun x => LV.canSend p x.pkt.vc (flitsOf x.pkt.payload.length) x.pkt.conf ⟨h.pg, h.link p⟩) = some x) :
    h.grant p =
      let v1 := LV.sendPacket p x.pkt ⟨h.pg, h.link p⟩
      ({ h with
        dev := { h.dev with pg := v1.pg }
        links := tset (fun _ => Link.reset) h.links p v1.lk
        rtr := { h.rtr with
          held := dropFirst x h.rtr.held
          flying := h.rtr.flying ++ [(p, x.pkt.bank, (v1.lk.txSeq + 4095) % 4096)]
          rr := if x.pkt.vc < 7 ∧ !x.pkt.conf then tset (fun _ => 0) h.rtr.rr p ((x.pkt.vc + 1) % 7) else h.rtr.rr } } : Hw).giveCredit
        x.inp { x.pkt with vc := x.vin } := by
  simp only [Hw.grant, first]

/-- Sampling that is on counts each buffer in its bin. -/
theorem Hw.histSample_on {h : Hw} (on : h.pg.bit Reg.RTR_HIST_CTRL 31 = true) :
    h.histSample = { h with rtr := { h.rtr with bins := (List.range 80).foldl (fun b i =>
      let k := i * 8 + histBin (h.occ (i / 8) (i % 8)) (creditInit (i % 8))
      tset (fun _ => 0) b k (min 65535 (tget (fun _ => 0) b k + 1))) h.rtr.bins } } :=
  if_neg (by rw [on]; decide)

/-! ## Changes of the bank and of the fence epoch (R391, R394) -/

section Armed
variable {h : Hw} {key at_ : Nat} {mask w : W32}

/-- A change for a beat that lies 2 beats ahead is armed. -/
theorem Hw.armWrite_ahead (ahead : h.pg.beatNum.toNat + 2 ≤ (h.pg.rd64 at_).toNat) (whole : w &&& mask = w) (arms : wbit w 31 = true) :
    h.armWrite key at_ mask w = (true, h.onPg fun g => upIf (key = Reg.RTR_BANK_NEXT) (Pages.setb Reg.RTR_BANK 16 true) (g.wr key w)) := by
  simp only [Hw.armWrite, Pages.twoAhead, ahead, whole, arms, decide_true, Bool.not_true, Bool.and_false, Bool.false_eq_true, if_false, upIf,
    decide_eq_true_eq]

/-- A word that arms nothing is taken whatever the beat. -/
theorem Hw.armWrite_disarms (whole : w &&& mask = w) (disarms : wbit w 31 = false) :
    h.armWrite key at_ mask w = (true, h.onPg fun g => upIf (key = Reg.RTR_BANK_NEXT) (Pages.setb Reg.RTR_BANK 16 false) (g.wr key w)) := by
  simp only [Hw.armWrite, whole, disarms, Bool.false_and, Bool.false_eq_true, if_false, upIf, decide_eq_true_eq]

end Armed

/-- The words that arm and that disarm a change of the bank keep to the register's fields. -/
theorem bankWord_armed : ∀ b : Bool, let w := BitVec.ofNat 32 (2 ^ 31 + b.toNat); w &&& 0x80000001#32 = w ∧ wbit w 31 = true := by decide

theorem bankWord_disarmed : ∀ b : Bool, let w := BitVec.ofNat 32 b.toNat; w &&& 0x80000001#32 = w ∧ wbit w 31 = false := by decide

/-- Likewise those of the fence epoch. -/
theorem epochWord_armed : ∀ ep : Byte, let w := BitVec.ofNat 32 (2 ^ 31 + ep.toNat); w &&& 0x800000FF#32 = w ∧ wbit w 31 = true := by decide +kernel

theorem epochWord_disarmed : ∀ ep : Byte, let w := ep.setWidth 32; w &&& 0x800000FF#32 = w ∧ wbit w 31 = false := by decide +kernel

section Page
variable (h : Hw) (wi : WarmIn) (r : RegRow) (w : W32)

/-- A write of the router's page. -/
theorem Hw.blockWrite_rtr (off : Nat) : h.blockWrite wi Pg.rtr off r w = h.rtrWrite off r w := rfl

/-- RTR_BANK_NEXT at that write. -/
theorem Hw.blockWrite_bankNext : h.blockWrite wi Pg.rtr 0x044 r w = h.armWrite Reg.RTR_BANK_NEXT Reg.RTR_BANK_AT_LO 0x80000001#32 w := by
  rw [Hw.blockWrite_rtr, Hw.rtrWrite, if_pos rfl]

/-- RTR_FEP_NEXT likewise. -/
theorem Hw.blockWrite_fepNext : h.blockWrite wi Pg.rtr 0x060 r w = h.armWrite Reg.RTR_FEP_NEXT Reg.RTR_FEP_AT_LO 0x800000FF#32 w := by
  rw [Hw.blockWrite_rtr, Hw.rtrWrite, if_neg (by decide), if_neg (by decide), if_neg (by decide), if_pos rfl]

/-- RTR_DRAIN_ARM likewise. -/
theorem Hw.blockWrite_drainArm : h.blockWrite wi Pg.rtr 0x050 r w = (true, h.onPg (Pages.drainArm w)) := by
  rw [Hw.blockWrite_rtr, Hw.rtrWrite, if_neg (by decide), if_neg (by decide), if_pos rfl]

end Page

/-! ## Draining (R392) -/

/-- The word that names one bank arms that bank where it is empty and not active, and leaves the other. -/
theorem Pages.drainArm_bank {g : Pages} {b : Bool} (empty : g.get (inflightReg b.toNat) 15 0 = 0) (idle : g.get Reg.RTR_BANK 0 0 ≠ b.toNat) :
    g.drainArm (BitVec.ofNat 32 (1 + b.toNat)) = g.setb Reg.RTR_BANK (8 + b.toNat) true := by
  cases b with
  | false =>
    have names : wbit 1#32 0 = true ∧ wbit 1#32 1 = false := by decide
    simp only [Bool.toNat_false] at empty idle
    simp [Pages.drainArm, names, empty, idle]
  | true =>
    have names : wbit 2#32 0 = false ∧ wbit 2#32 1 = true := by decide
    simp only [Bool.toNat_true] at empty idle
    simp [Pages.drainArm, names, empty, idle]

/-! ## Group slots (R399 to R401) -/

/-- A word of slot k is taken where no launch uses the slot and what it makes of the slot is sound. -/
theorem Hw.stgWrite_free {h h1 : Hw} {pg off k : Nat} {r : RegRow} {w : W32} (slots : ¬ off < 0x400) (slot : (off - 0x400) / 16 = k)
    (stored : h.store pg off r w = h1) (free : h.slotUsed k = false) (sound : (h1.pg.bit (Reg.GRP_CFG k) 31 && h1.pg.grpBad k) = false) :
    h.stgWrite pg off r w = (true, { h1 with grpLost := h.grpLost.filter (· ≠ k) }) := by
  subst slot stored
  rw [Hw.stgWrite, if_neg slots]
  exact if_neg (by rw [free, Bool.false_or]; exact ne_true_of_eq_false sound)

/-- A write of the page of a Stage engine. -/
theorem Hw.blockWrite_stg {a : Nat} (axis : a < 4) (h : Hw) (wi : WarmIn) (off : Nat) (r : RegRow) (w : W32) :
    h.blockWrite wi (Pg.stg a) off r w = h.stgWrite (Pg.stg a) off r w := by
  simp only [Hw.blockWrite, pageKind_stg axis]

/-- Settles O35: each event by what the router does, each register write by what its page does with the word. -/
theorem routerCommands : Obligations.RouterCommands := by
  unfold Obligations.RouterCommands
  intro s up
  refine ⟨fun k x router port first => ?grant, fun router on => ?sample, fun p a b => ?bank, fun p a ep => ?epoch, fun p b a empty idle => ?drain,
    fun p a j i w => ?slot⟩
  case grant =>
    refine State.onHw_next up (Eq.trans ?_ (Hw.grant_first first))
    rw [router, port, Bool.and_self, if_pos rfl]
  case sample =>
    exact State.onBlock_next up router (Hw.histSample_on on)
  case bank =>
    obtain ⟨armWhole, arms⟩ := bankWord_armed b
    obtain ⟨whole, disarms⟩ := bankWord_disarmed b
    exact ⟨fun ahead =>
        State.onHw_next up (Hw.regSet_taken a fun r => (s.hw.blockWrite_bankNext _ r _).trans (Hw.armWrite_ahead ahead armWhole arms)),
      State.onHw_next up (Hw.regSet_taken a fun r => (s.hw.blockWrite_bankNext _ r _).trans (Hw.armWrite_disarms whole disarms))⟩
  case epoch =>
    obtain ⟨armWhole, arms⟩ := epochWord_armed ep
    obtain ⟨whole, disarms⟩ := epochWord_disarmed ep
    exact ⟨fun ahead =>
        State.onHw_next up (Hw.regSet_taken a fun r => (s.hw.blockWrite_fepNext _ r _).trans (Hw.armWrite_ahead ahead armWhole arms)),
      State.onHw_next up (Hw.regSet_taken a fun r => (s.hw.blockWrite_fepNext _ r _).trans (Hw.armWrite_disarms whole disarms))⟩
  case drain =>
    refine State.onHw_next up (Hw.regSet_taken a fun r => (s.hw.blockWrite_drainArm _ r _).trans ?_)
    exact congrArg (fun g => (true, s.hw.onPg fun _ => g)) (Pages.drainArm_bank empty idle)
  case slot =>
    intro off h1 writes free sound
    obtain ⟨r, row⟩ := Hw.admits_row writes
    have taken := Hw.stgWrite_free (k := j.val) (by omega) (by omega) (Hw.store_mixed row fun _ => w) free sound
    exact State.onHw_next up (Hw.regCmd_taken writes row ((s.hw.blockWrite_stg a.isLt _ _ r w).trans taken))

end Sys2Proof.Machine

/-! # Proofs: how a command runs, and the device that RESET_N or a thermal trip holds (R343, R507, R514) -/

namespace Sys2Proof.Machine

/-! ## One step -/

/-- Settles O1: the queue's rest replaces the queue, and the command in front runs. -/
theorem stepRunsFront : Obligations.StepRunsFront := fun _ _ _ => rfl

/-- Settles O2: with no command in front a step is the state itself. -/
theorem stepIdles : Obligations.StepIdles := by
  intro s empty
  simp only [step, empty]

/-! ## The four ways in which commands run -/

/-- The effect of a command of the pins and supplies. -/
def pinWork : Instr → Option (Hw → Hw)
  | .resetNRelease i => some fun h => if h.power.inReset then (h.coldBoot i).sendOut else h
  | .resetNAssert => some Hw.resetAssert
  | .vaonLoss => some Hw.vaonLoss
  | .thermtrip => some Hw.thermtrip
  | _ => none

/-- The effect of a command that the Chaise carries out. -/
def chaiseWork : Instr → Option (Hw → Hw)
  | .getMeasurements i sign nonce => some (Hw.getMeasurements i.toNat sign nonce)
  | .getMeasurementExtensionLog => some Hw.getMel
  | .getCertificate slot => some (Hw.getCertificate slot.val)
  | .getDigests => some Hw.getDigests
  | .challenge nonce => some (Hw.challenge nonce)
  | .keyExchange nonce => some (Hw.keyExchange nonce)
  | .ideKm session => some (Hw.ideKm session)
  | .spdmRequest supported ends => some (Hw.spdmRequest supported ends)
  | .pldmDiscovery => some Hw.pldmDiscovery
  | .pldmSensorRead id => some (Hw.pldmSensorRead id.toNat)
  | .pldmFwTransfer off bs => some (Hw.fwTransfer off bs)
  | .pldmFwVerify => some Hw.fwVerify
  | .pldmFwActivate => some Hw.fwActivate
  | .vrStatusPoll rails bad => some fun h => if h.pg.works Pg.pwr then h.vrPoll rails bad else h
  | .pmbAlertN rails => some fun h => if h.pg.works Pg.pwr then h.pmbAlert rails else h
  | .avsUpdate => some fun h => if h.pg.works Pg.pwr then h.avsUpdate else h
  | .thermSample sn near ports far => some fun h => if h.pg.works Pg.therm then h.thermSample sn near ports far else h
  | .thermDutyStep => some fun h => if h.pg.works Pg.therm then h.thermStep else h
  | _ => none

theorem exec_pin {c : Instr} {f : Hw → Hw} (pin : pinWork c = some f) (s : State) : exec c s = s.onPins f := by
  cases c with
  | resetNRelease | resetNAssert | vaonLoss | thermtrip => cases pin; rfl
  | _ => cases pin

theorem exec_chaise {c : Instr} {f : Hw → Hw} (work : chaiseWork c = some f) (s : State) : exec c s = s.onChaise f := by
  cases c with
  | getMeasurements | getMeasurementExtensionLog | getCertificate | getDigests | challenge | keyExchange | ideKm | spdmRequest => cases work; rfl
  | pldmDiscovery | pldmSensorRead | pldmFwTransfer | pldmFwVerify | pldmFwActivate => cases work; rfl
  | vrStatusPoll | pmbAlertN | avsUpdate | thermSample | thermDutyStep => cases work; rfl
  | _ => cases work

/-- Every other command is the device's own: a native instruction, or an effect on the hardware that runs. -/
theorem exec_device {c : Instr} (pin : pinWork c = none) (work : chaiseWork c = none) (s : State) :
    (∃ l i, exec c s = State.onInsn l i s) ∨ ∃ f : Hw → Hw, exec c s = s.onHw f := by
  cases carried : coreInsn? c with
  | some x => exact .inl ⟨_, _, exec_insn carried s⟩
  | none =>
    refine .inr ?_
    cases c with
    | mmode | mload | mstream | mdrain => cases carried
    | vop | vtens | vtensLd | vtensSt | vred | vcvt | vrngSeed | vrngDraw | vmask => cases carried
    | gcall | cset | cinc | ccmp | loop | br | beat | waitarr | fenceInsn | signal | wait => cases carried
    | dcopy | dgather | dscatter | dstash | dunstash | xput | xget | xatom | xmsg => cases carried
    | callr | crscat | cagath | cbcast | ca2a | ca2av | cperm | urecipe | uapply => cases carried
    | resetNRelease | resetNAssert | vaonLoss | thermtrip => cases pin
    | getMeasurements | getMeasurementExtensionLog | getCertificate | getDigests | challenge | keyExchange | ideKm | spdmRequest => cases work
    | pldmDiscovery | pldmSensorRead | pldmFwTransfer | pldmFwVerify | pldmFwActivate => cases work
    | vrStatusPoll | pmbAlertN | avsUpdate | thermSample | thermDutyStep => cases work
    | _ => exact ⟨_, rfl⟩

/-! ## No command touches the queue -/

theorem State.onHw_pending {s t : State} {f : Hw → Hw} (next : s.onHw f = .next t) : t.pending = s.pending := by
  cases next
  split <;> rfl

theorem State.onChaise_pending {s t : State} {f : Hw → Hw} (next : s.onChaise f = .next t) : t.pending = s.pending := by
  cases next
  split <;> rfl

theorem State.onPins_pending {s t : State} {f : Hw → Hw} (next : s.onPins f = .next t) : t.pending = s.pending := by
  cases next
  rfl

/-- A native instruction that answers a next state runs as an effect on the hardware. -/
theorem State.onInsn_next {s t : State} {l : Nat} {i : CoreInsn} (next : State.onInsn l i s = .next t) : s.onHw (Hw.dispatch l i) = .next t := by
  unfold State.onInsn at next
  split at next
  · exact next
  · cases next

/-- The same of every command of the device. -/
theorem exec_device_next {c : Instr} (pin : pinWork c = none) (work : chaiseWork c = none) {s t : State} (next : exec c s = .next t) :
    ∃ f : Hw → Hw, s.onHw f = .next t := by
  rcases exec_device pin work s with ⟨l, i, run⟩ | ⟨f, run⟩
  · exact ⟨_, State.onInsn_next (run.symm.trans next)⟩
  · exact ⟨f, run.symm.trans next⟩

/-- Settles O3: each of the ways in which a command runs changes the hardware alone. -/
theorem execKeepsQueue : Obligations.ExecKeepsQueue := by
  intro c s t next
  cases pin : pinWork c with
  | some f => exact State.onPins_pending ((exec_pin pin s).symm.trans next)
  | none =>
    cases work : chaiseWork c with
    | some f => exact State.onChaise_pending ((exec_chaise work s).symm.trans next)
    | none =>
      obtain ⟨f, run⟩ := exec_device_next pin work next
      exact State.onHw_pending run

/-! ## The device that RESET_N holds (R514) -/

/-- LASER_EN cleared on some ports reads 0 there, and as before on every other. -/
theorem Pages.foldl_setb_dark (ks : List Nat) (p : Pages) (j : Nat) :
    (ks.foldl (fun p k => p.setb (Reg.OPE_STAT k) 30 false) p).bit (Reg.OPE_STAT j) 30 = (decide (j ∉ ks) && p.bit (Reg.OPE_STAT j) 30) := by
  induction ks generalizing p with
  | nil => simp
  | cons k ks ih =>
    rw [List.foldl_cons, ih, Pages.bit_setb _ _ (by decide)]
    by_cases e : j = k
    · simp [e]
    · have other : Reg.OPE_STAT j ≠ Reg.OPE_STAT k := by simp only [Reg.OPE_STAT, regKey]; omega
      simp [e, other]

theorem Hw.thermtrip_pg (h : Hw) : h.thermtrip.pg = (List.range 10).foldl (fun p k => p.setb (Reg.OPE_STAT k) 30 false) h.pg := by
  unfold Hw.thermtrip
  rfl

theorem Hw.thermtrip_dark (h : Hw) : h.thermtrip.dark = true := by
  refine Hw.dark_iff.2 fun k hk => ?_
  have port : decide (k ∉ List.range 10) = false := by simpa using hk
  rw [h.thermtrip_pg, Pages.foldl_setb_dark, port, Bool.false_and]

/-- What is held is register space's lasers and the other parts of the device. -/
theorem Hw.held_onPg {h : Hw} (held : h.held = true) {f : Pages → Pages} (dark : (h.onPg f).dark = true) : (h.onPg f).held = true := by
  obtain ⟨reset, -, rest⟩ := Hw.held_iff.1 held
  exact Hw.held_iff.2 ⟨reset, dark, rest⟩

theorem Hw.thermtrip_held {h : Hw} (held : h.held = true) : h.thermtrip.held = true := by
  have tripped : ({ h with power := { h.power with tripped := true } } : Hw).held = true := held
  exact Hw.held_onPg tripped h.thermtrip_dark

theorem Hw.vaonLoss_dark (h : Hw) : h.vaonLoss.dark = true := by
  refine Hw.dark_iff.2 fun k hk => ?_
  have other : h.vaonLoss.pg.rd (Reg.OPE_STAT k) = h.coldState.pg.rd (Reg.OPE_STAT k) :=
    (Pages.rd_wr _ _ _ _).trans (if_neg (Reg.opeStat_ne_hangStat hk))
  rw [Pages.bit_eq, other, ← Pages.bit_eq]
  exact Hw.dark_iff.1 h.coldState_dark k hk

theorem Hw.vaonLoss_held (h : Hw) : h.vaonLoss.held = true :=
  Hw.held_iff.2 ⟨rfl, h.vaonLoss_dark, rfl, rfl, rfl, rfl, rfl, rfl, rfl, rfl⟩

/-- A command of the pins, but for the release of RESET_N, leaves a held device held. -/
theorem pinWork_held {c : Instr} {f : Hw → Hw} (pin : pinWork c = some f) (kept : ∀ i : BootIn, c ≠ .resetNRelease i) {h : Hw}
    (held : h.held = true) : (f h).held = true := by
  cases c with
  | resetNRelease i => exact absurd rfl (kept i)
  | resetNAssert => cases pin; exact h.coldState_held
  | vaonLoss => cases pin; exact h.vaonLoss_held
  | thermtrip => cases pin; exact Hw.thermtrip_held held
  | _ => cases pin

/-- Settles O46: the pins leave the device held, the Chaise is in reset with it, and everything else waits for the device to run. -/
theorem heldStep : Obligations.HeldStep := by
  intro s t held kept next
  have inReset : s.hw.power.inReset = true := (Hw.held_iff.1 held).1
  unfold step at next
  split at next
  · cases next; exact held
  next c rest queue =>
    simp only [queue, List.head?_cons, ne_eq, Option.some.injEq] at kept
    cases pin : pinWork c with
    | some f =>
      cases (exec_pin pin _).symm.trans next
      exact pinWork_held pin kept held
    | none =>
      cases work : chaiseWork c with
      | some f =>
        cases (exec_chaise work _).symm.trans next
        simpa only [inReset, if_true] using held
      | none =>
        obtain ⟨f, run⟩ := exec_device_next pin work next
        cases run.symm.trans (State.onHw_down f (Hw.up_of_inReset inReset))
        exact held

end Sys2Proof.Machine

/-! # Proofs: what the Chaise leaves as it is (R507) -/

namespace Sys2Proof.Machine

/-! ## Registers that show no laser -/

/-- A key that is not OPE_STAT of a port. -/
def Reg.noLaser (k : Nat) : Prop := ∀ j < 10, k ≠ Reg.OPE_STAT j

/-- A header register shows no laser, on any page. -/
theorem Reg.noLaser_header (pg : Nat) {off : Nat} (low : off < 0x40) : Reg.noLaser (regKey pg off) := by
  intro j hj
  simp only [Reg.OPE_STAT, regKey]
  omega

/-- A register outside the pages of the optical ports shows none. -/
theorem Reg.noLaser_apart {k : Nat} (apart : k < regKey (Pg.ope 0) 0 ∨ regKey (Pg.ope 10) 0 ≤ k) : Reg.noLaser k := by
  intro j hj
  simp only [Pg.ope, Reg.OPE_STAT, regKey] at apart ⊢
  omega

theorem Reg.noLaser_opeTemp (i : Nat) : Reg.noLaser (Reg.OPE_TEMP i) := by
  intro j hj
  simp only [Reg.OPE_TEMP, Reg.OPE_STAT, regKey]
  omega

/-! ## What of register space the stopped clocks move, and the lasers -/

/-- The beat counter, the beat number and LASER_EN of each port. -/
def Pages.clocked (p : Pages) : W64 × BitVec 48 × List Bool := (p.fbc, p.beatNum, (List.range 10).map fun j => p.bit (Reg.OPE_STAT j) 30)

theorem Pages.clocked_wr {k : Nat} (apart : Reg.noLaser k) (v : W32) (p : Pages) : (p.wr k v).clocked = p.clocked := by
  have lasers : (List.range 10).map (fun j => (p.wr k v).bit (Reg.OPE_STAT j) 30) = (List.range 10).map fun j => p.bit (Reg.OPE_STAT j) 30 :=
    List.map_congr_left fun j hj => by
      rw [Pages.bit_eq, Pages.rd_wr, if_neg (apart j (List.mem_range.1 hj)).symm, ← Pages.bit_eq]
  simp only [Pages.clocked, Pages.wr_fbc, Pages.wr_beatNum, lasers]

theorem Pages.clocked_upd {k : Nat} (apart : Reg.noLaser k) (f : W32 → W32) (p : Pages) : (p.upd k f).clocked = p.clocked := Pages.clocked_wr apart _ p

theorem Pages.clocked_put {k : Nat} (apart : Reg.noLaser k) (hi lo v : Nat) (p : Pages) : (p.put k hi lo v).clocked = p.clocked := Pages.clocked_wr apart _ p

theorem Pages.clocked_setb {k : Nat} (apart : Reg.noLaser k) (i : Nat) (b : Bool) (p : Pages) : (p.setb k i b).clocked = p.clocked := Pages.clocked_wr apart _ p

theorem Pages.clocked_sat {k : Nat} (apart : Reg.noLaser k) (n : Nat) (p : Pages) : (p.sat k n).clocked = p.clocked := Pages.clocked_wr apart _ p

theorem Pages.clocked_wr64 {k : Nat} (lo : Reg.noLaser k) (hi : Reg.noLaser (k + 1)) (v : W64) (p : Pages) : (p.wr64 k v).clocked = p.clocked :=
  (Pages.clocked_wr hi _ _).trans (Pages.clocked_wr lo _ p)

theorem Pages.clocked_count {k : Nat} (lo : Reg.noLaser k) (hi : Reg.noLaser (k + 1)) (n : Nat) (p : Pages) : (p.count k n).clocked = p.clocked :=
  Pages.clocked_wr64 lo hi _ p

theorem Pages.clocked_maxFld {k : Nat} (apart : Reg.noLaser k) (hi lo v : Nat) (p : Pages) : (p.maxFld k hi lo v).clocked = p.clocked := by
  unfold Pages.maxFld
  split
  · exact Pages.clocked_put apart _ _ _ p
  · rfl

theorem Pages.clocked_wrList {k : Nat} (vs : List W32) (apart : ∀ i < vs.length, Reg.noLaser (k + i)) (p : Pages) : (Pages.wrList k vs p).clocked = p.clocked := by
  induction vs generalizing k p with
  | nil => rfl
  | cons v vs ih =>
    refine (ih (fun i hi => ?_) _).trans (Pages.clocked_wr (apart 0 (by simp)) v p)
    rw [Nat.add_right_comm]
    exact apart (i + 1) (by simpa using hi)

theorem Pages.clocked_foldl {β : Type} {f : Pages → β → Pages} {l : List β} (step : ∀ x ∈ l, ∀ p : Pages, (f p x).clocked = p.clocked) (p : Pages) :
    (l.foldl f p).clocked = p.clocked := by
  induction l generalizing p with
  | nil => rfl
  | cons x l ih => exact (ih (fun y hy => step y (by simp [hy])) _).trans (step x (by simp) p)

/-! ## Detectors, records and events -/

@[simp] theorem Pages.clocked_fire (pg det target : Nat) (p : Pages) : (p.fire pg det target).2.clocked = p.clocked := by
  unfold Pages.fire
  split
  · dsimp only
    split
    · exact Pages.clocked_setb (Reg.noLaser_header pg (by decide)) _ _ p
    · rfl
  · rfl

@[simp] theorem Pages.clocked_holds (pg det addr : Nat) (real : Bool) (p : Pages) : (p.holds pg det addr real).2.clocked = p.clocked :=
  Pages.clocked_fire pg det addr p

@[simp] theorem Pages.clocked_mark (pg det addr : Nat) (cx : CtxId) (p : Pages) : (p.mark pg det addr cx).clocked = p.clocked := by
  have head {off : Nat} (low : off < 0x40) : Reg.noLaser (regKey pg off) := Reg.noLaser_header pg low
  have counted : ((p.setb (Reg.PG_ERR_STAT pg) det true).sat (Reg.PG_ERR_CNT pg) 1).clocked = p.clocked :=
    (Pages.clocked_sat (head (by decide)) _ _).trans (Pages.clocked_setb (head (by decide)) _ _ p)
  unfold Pages.mark
  dsimp only
  split
  · exact counted
  · exact (Pages.clocked_wr (head (by decide)) _ _).trans ((Pages.clocked_wr (head (by decide)) _ _).trans
      ((Pages.clocked_wr (head (by decide)) _ _).trans counted))

@[simp] theorem Pages.clocked_mgSend (m : MgMsg) (p : Pages) : (p.mgSend m).clocked = p.clocked := by
  unfold Pages.mgSend
  split
  · exact Pages.clocked_sat (Reg.noLaser_apart (by decide)) _ p
  · split
    · rfl
    · exact Pages.clocked_sat (Reg.noLaser_apart (by decide)) _ p
  · rfl

@[simp] theorem Pages.clocked_msix (func vec : Nat) (p : Pages) : (p.msix func vec).clocked = p.clocked := rfl

@[simp] theorem Pages.clocked_draw (p : Pages) : p.draw.2.clocked = p.clocked := rfl

@[simp] theorem Pages.clocked_rasRoute (cls : Nat) (rec : List W32) (p : Pages) : (p.rasRoute cls rec).clocked = p.clocked := by
  have irq (q : Pages) (n : Nat) : ({ q with chaiseIrq := n } : Pages).clocked = q.clocked := rfl
  unfold Pages.rasRoute
  simp only [apply_ite Pages.clocked, irq, Pages.clocked_mgSend, Pages.clocked_msix, ite_self]

/-- Registers of the pages of power, junctions, records and telemetry, which lie behind the ports'. -/
theorem Reg.noLaser_behind {k : Nat} (behind : 0x0E00 * 1024 ≤ k) : Reg.noLaser k :=
  Reg.noLaser_apart (.inr (by simp only [Pg.ope, regKey]; omega))

theorem Reg.noLaser_rasLog (i j : Nat) : Reg.noLaser (Reg.RAS_LOG i + j) := Reg.noLaser_behind (by simp only [Reg.RAS_LOG, regKey]; omega)

theorem Reg.noLaser_teleEvt (i j : Nat) : Reg.noLaser (Reg.TELE_EVT i + j) := Reg.noLaser_behind (by simp only [Reg.TELE_EVT, regKey]; omega)

theorem Reg.noLaser_rail (i : Nat) : Reg.noLaser (Reg.PWR_RAIL i) := Reg.noLaser_behind (by simp only [Reg.PWR_RAIL, regKey]; omega)

theorem Reg.noLaser_sensor (i : Nat) : Reg.noLaser (Reg.THERM_SENS i) := Reg.noLaser_behind (by simp only [Reg.THERM_SENS, regKey]; omega)

theorem Reg.noLaser_ntTemp {i : Nat} (stack : i < 8) : Reg.noLaser (Reg.NT_TEMP i) :=
  Reg.noLaser_apart (.inl (by simp only [Pg.ope, Reg.NT_TEMP, regKey]; omega))

theorem Reg.noLaser_ftTemp {i : Nat} (ctl : i < 8) : Reg.noLaser (Reg.FT_TEMP i) :=
  Reg.noLaser_apart (.inl (by simp only [Pg.ope, Reg.FT_TEMP, regKey]; omega))

@[simp] theorem Pages.clocked_rasWrite (cls : Nat) (rec : List W32) (p : Pages) : (p.rasWrite cls rec).clocked = p.clocked := by
  unfold Pages.rasWrite
  split
  · rfl
  · refine (Pages.clocked_rasRoute _ _ _).trans ((Pages.clocked_count (Reg.noLaser_behind (by decide)) (Reg.noLaser_behind (by decide)) _ _).trans
      ((Pages.clocked_setb (Reg.noLaser_behind (by decide)) _ _ _).trans ?_))
    split
    · exact (Pages.clocked_mark _ _ _ _ _).trans ((Pages.clocked_sat (Reg.noLaser_behind (by decide)) _ _).trans (Pages.clocked_holds _ _ _ _ p))
    · exact (Pages.clocked_put (Reg.noLaser_behind (by decide)) _ _ _ _).trans ((Pages.clocked_wrList _ (fun i _ => Reg.noLaser_rasLog _ i) _).trans (Pages.clocked_holds _ _ _ _ p))

@[simp] theorem Pages.clocked_raise (pg det addr : Nat) (cx : CtxId) (p : Pages) : (p.raise pg det addr cx).clocked = p.clocked := by
  unfold Pages.raise
  dsimp only
  split
  · exact Pages.clocked_mark _ _ _ _ p
  · exact (Pages.clocked_rasWrite _ _ _).trans (Pages.clocked_mark _ _ _ _ p)

@[simp] theorem Pages.clocked_detect (pg det addr : Nat) (cx : CtxId) (real : Bool) (p : Pages) : (p.detect pg det addr cx real).2.clocked = p.clocked := by
  unfold Pages.detect
  dsimp only
  split
  · exact (Pages.clocked_raise _ _ _ _ _).trans (Pages.clocked_fire _ _ _ p)
  · exact Pages.clocked_fire _ _ _ p

@[simp] theorem Pages.clocked_tele (kind sub data value : Nat) (p : Pages) : (p.tele kind sub data value).clocked = p.clocked := by
  unfold Pages.tele Pages.teleAt
  dsimp only
  split
  · have event : ∀ full : Bool × Pages, full.2.clocked = p.clocked → ∀ ev h,
        (if full.1 then (full.2.sat Reg.TELE_DROP 1).raise Pg.tele 0 0 none
          else (full.2.wrList (Reg.TELE_EVT (4 * h)) ev).put Reg.TELE_HEAD 6 0 ((h + 1) % 128)).clocked = p.clocked := fun full same ev h => by
      split
      · exact (Pages.clocked_raise _ _ _ _ _).trans ((Pages.clocked_sat (Reg.noLaser_behind (by decide)) _ _).trans same)
      · exact (Pages.clocked_put (Reg.noLaser_behind (by decide)) _ _ _ _).trans ((Pages.clocked_wrList _ (fun i _ => Reg.noLaser_teleEvt _ i) _).trans same)
    split
    · exact (Pages.clocked_mgSend _ _).trans (event _ (Pages.clocked_holds _ _ _ _ p) _ _)
    · exact event _ (Pages.clocked_holds _ _ _ _ p) _ _
  · rfl

/-! ## What the Chaise reads and sets as it runs (R497 to R506) -/

@[simp] theorem Pages.clocked_uvWarn (k v : Nat) (p : Pages) : (p.uvWarn k v).clocked = p.clocked := by
  have last : (((p.sat Reg.PWR_UV_CNT 1).raise Pg.pwr 0 k none).wr64 Reg.PWR_UV_LAST_LO (p.beatNum.setWidth 64)).clocked = p.clocked :=
    (Pages.clocked_wr64 (Reg.noLaser_behind (by decide)) (Reg.noLaser_behind (by decide)) _ _).trans
      ((Pages.clocked_raise _ _ _ _ _).trans (Pages.clocked_sat (Reg.noLaser_behind (by decide)) _ p))
  unfold Pages.uvWarn
  refine (Pages.clocked_tele _ _ _ _ _).trans ((Pages.clocked_setb (Reg.noLaser_behind (by decide)) _ _ _).trans ?_)
  split
  · exact last
  · exact (Pages.clocked_setb (Reg.noLaser_behind (by decide)) _ _ _).trans ((Pages.clocked_wr64 (Reg.noLaser_behind (by decide)) (Reg.noLaser_behind (by decide)) _ _).trans last)

@[simp] theorem Pages.clocked_railRead (k : Nat) (r : VrRead) (p : Pages) : (p.railRead k r).clocked = p.clocked := by
  have warned (q : Pages) : (if r.warn || (q.fire Pg.pwr 0 k).1 then (q.fire Pg.pwr 0 k).2.uvWarn k r.mv else (q.fire Pg.pwr 0 k).2).clocked = q.clocked := by
    split <;> simp
  have failed (q : Pages) : (if r.fault || (q.fire Pg.pwr 1 k).1 then ((q.fire Pg.pwr 1 k).2.raise Pg.pwr 1 k none).tele 2 k 0 r.mv
      else (q.fire Pg.pwr 1 k).2).clocked = q.clocked := by
    split <;> simp
  exact (failed _).trans ((warned _).trans (Pages.clocked_wr (Reg.noLaser_rail k) _ p))

@[simp] theorem Pages.clocked_railPoll (rails : List (Fin 9 × VrRead)) (bad : List (Fin 9)) (p : Pages) : (p.railPoll rails bad).clocked = p.clocked :=
  (Pages.clocked_foldl (fun _ _ q => Pages.clocked_detect _ _ _ _ _ q) _).trans (Pages.clocked_foldl (fun _ _ q => Pages.clocked_railRead _ _ q) p)

@[simp] theorem Pages.clocked_sramCheck (p : Pages) : p.sramCheck.clocked = p.clocked := by
  have corrected (q : Pages) : (if (q.fire Pg.cmp 0 0).1 then
      ((q.fire Pg.cmp 0 0).2.draw.2.raise Pg.cmp 0 (Config.freeWord (q.fire Pg.cmp 0 0).2.draw.1 % 0x200000) none).sat Reg.CMP_SRAM_CE_CNT 1
      else (q.fire Pg.cmp 0 0).2).clocked = q.clocked := by
    split
    · exact (Pages.clocked_sat (Reg.noLaser_apart (by decide)) _ _).trans (by simp)
    · exact Pages.clocked_fire _ _ _ q
  have halted (q : Pages) : (if (q.fire Pg.cmp 1 0).1 then
      ((q.fire Pg.cmp 1 0).2.draw.2.raise Pg.cmp 1 (Config.freeWord (q.fire Pg.cmp 1 0).2.draw.1 % 0x200000) none).stage 5
      else (q.fire Pg.cmp 1 0).2).clocked = q.clocked := by
    split
    · exact (Pages.clocked_put (Reg.noLaser_apart (by decide)) _ _ _ _).trans (by simp)
    · exact Pages.clocked_fire _ _ _ q
  exact (halted _).trans (corrected p)

@[simp] theorem Pages.clocked_sensorRead (i : Nat) (t : Int) (p : Pages) : (p.sensorRead i t).clocked = p.clocked := by
  have sens (v : W32) (q : Pages) : (q.wr (Reg.THERM_SENS i) v).clocked = q.clocked := Pages.clocked_wr (Reg.noLaser_sensor i) v q
  unfold Pages.sensorRead
  dsimp only
  split <;> simp [sens]

@[simp] theorem Pages.clocked_showHot (p : Pages) : p.showHot.clocked = p.clocked :=
  (Pages.clocked_maxFld (Reg.noLaser_behind (by decide)) _ _ _ _).trans ((Pages.clocked_put (Reg.noLaser_behind (by decide)) _ _ _ _).trans (Pages.clocked_put (Reg.noLaser_behind (by decide)) _ _ _ p))

@[simp] theorem Pages.clocked_otherTemps (near ports : List Nat) (far : List (Fin 8)) (p : Pages) : (p.otherTemps near ports far).clocked = p.clocked := by
  refine (Pages.clocked_foldl (fun x _ q => ?_) _).trans ((Pages.clocked_foldl (fun x _ q => ?_) _).trans (Pages.clocked_foldl (fun x _ q => ?_) p)) <;>
    split
  · exact (Pages.clocked_detect _ _ _ _ _ _).trans (Pages.clocked_wr (Reg.noLaser_ftTemp ‹_›) _ q)
  · rfl
  · exact (Pages.clocked_detect _ _ _ _ _ _).trans (Pages.clocked_wr (Reg.noLaser_opeTemp _) _ q)
  · rfl
  · exact Pages.clocked_wr (Reg.noLaser_ntTemp ‹_›) _ q
  · rfl

/-! ## What the Chaise leaves of the hardware -/

/-- Of the hardware register space, the Chaise and the thermal step due may differ, and of register space nothing that the stopped clocks move. -/
def Hw.chaiseFrame (a b : Hw) : Prop :=
  ∃ (p : Pages) (c : Chaise) (st : Nat), p.clocked = a.pg.clocked ∧
    b = { a with dev := { a.dev with pg := p }, chaise := c, power := { a.power with thermStep := st } }

theorem Hw.chaiseFrame_refl (h : Hw) : h.chaiseFrame h := ⟨h.pg, h.chaise, h.power.thermStep, rfl, rfl⟩

section Frame
variable {a b c : Hw}

theorem Hw.chaiseFrame.trans (x : a.chaiseFrame b) (y : b.chaiseFrame c) : a.chaiseFrame c := by
  obtain ⟨p, ch, st, same, rfl⟩ := x
  obtain ⟨p', ch', st', same', rfl⟩ := y
  exact ⟨p', ch', st', same'.trans same, rfl⟩

theorem Hw.chaiseFrame.onPg (x : a.chaiseFrame b) {f : Pages → Pages} (keeps : ∀ p : Pages, (f p).clocked = p.clocked) : a.chaiseFrame (b.onPg f) :=
  x.trans ⟨f b.pg, b.chaise, b.power.thermStep, keeps b.pg, rfl⟩

theorem Hw.chaiseFrame.onChaise (x : a.chaiseFrame b) (f : Chaise → Chaise) : a.chaiseFrame (b.onChaise f) :=
  x.trans ⟨b.pg, f b.chaise, b.power.thermStep, rfl, rfl⟩

theorem Hw.chaiseFrame.answer (x : a.chaiseFrame b) (r : Reply) : a.chaiseFrame (b.answer r) := x.onChaise fun c => { c with replies := r :: c.replies }

/-- A guard of the Chaise's work. -/
theorem Hw.chaiseFrame.ite {p : Prop} [Decidable p] (x : a.chaiseFrame b) (y : a.chaiseFrame c) : a.chaiseFrame (if p then b else c) := by
  split
  · exact x
  · exact y

theorem Hw.chaiseFrame.spdmError (x : a.chaiseFrame b) (code : Nat) : a.chaiseFrame (b.spdmError code) :=
  (x.answer _).onPg fun p => Pages.clocked_sat (Reg.noLaser_apart (by decide)) 1 p

theorem Hw.chaiseFrame.setSessions (x : a.chaiseFrame b) (l : List Nat) : a.chaiseFrame (b.setSessions l) :=
  (x.onChaise fun c => { c with sessions := l }).onPg fun p => Pages.clocked_put (Reg.noLaser_apart (by decide)) _ _ _ p

end Frame

theorem Hw.sign_frame (msg : List Byte) (h : Hw) : h.chaiseFrame (h.sign msg).2 := by
  have detected : h.chaiseFrame { h with
      dev := (h.dev.detect Pg.sec 1 0 none false).2
      chaise := { h.chaise with signFault := h.chaise.signFault || (h.dev.detect Pg.sec 1 0 none false).1 } } :=
    ⟨_, _, h.power.thermStep, Pages.clocked_detect Pg.sec 1 0 none false h.pg, rfl⟩
  unfold Hw.sign
  dsimp only
  split
  · exact detected
  · exact detected.onPg Pages.clocked_draw

theorem Hw.signed_frame (msg : List Byte) {f : List Byte → Hw → Hw} (keeps : ∀ sig g, Hw.chaiseFrame g (f sig g)) (h : Hw) :
    h.chaiseFrame (h.signed msg f) := by
  have signed := h.sign_frame msg
  unfold Hw.signed
  split <;> rename_i out
  · rw [out] at signed
    exact signed.trans (keeps _ _)
  · rw [out] at signed
    exact signed.spdmError 4

/-! ## The commands of the Chaise, each within its frame -/

section Commands
variable (h : Hw)

theorem Hw.getMeasurements_frame (index : Nat) (sign : Bool) (nonce : List Byte) : h.chaiseFrame (h.getMeasurements index sign nonce) := by
  have same := h.chaiseFrame_refl
  refine .ite same (.ite (same.spdmError _) (.ite (same.spdmError _) ?_))
  exact .ite (h.signed_frame _ fun sig g => g.chaiseFrame_refl.answer _) (same.answer _)

theorem Hw.getMel_frame : h.chaiseFrame h.getMel := .ite h.chaiseFrame_refl (.ite (h.chaiseFrame_refl.spdmError _) (h.chaiseFrame_refl.answer _))

theorem Hw.getCertificate_frame (slot : Nat) : h.chaiseFrame (h.getCertificate slot) := by
  refine .ite h.chaiseFrame_refl ?_
  split
  · exact h.chaiseFrame_refl.answer _
  · exact h.chaiseFrame_refl.spdmError _

theorem Hw.getDigests_frame : h.chaiseFrame h.getDigests := .ite h.chaiseFrame_refl (h.chaiseFrame_refl.answer _)

theorem Hw.challenge_frame (nonce : List Byte) : h.chaiseFrame (h.challenge nonce) :=
  .ite h.chaiseFrame_refl (h.signed_frame _ fun _ g => g.chaiseFrame_refl.answer _)

theorem Hw.keyExchange_frame (nonce : List Byte) : h.chaiseFrame (h.keyExchange nonce) :=
  .ite h.chaiseFrame_refl (.ite (h.chaiseFrame_refl.spdmError _) (h.signed_frame _ fun _ g => (g.chaiseFrame_refl.setSessions _).answer _))

theorem Hw.ideKm_frame (session : Nat) : h.chaiseFrame (h.ideKm session) :=
  .ite h.chaiseFrame_refl (.ite (h.chaiseFrame_refl.spdmError _)
    ((h.chaiseFrame_refl.onPg fun p => Pages.clocked_setb (Reg.noLaser_apart (by decide)) _ _ p).answer _))

theorem Hw.spdmRequest_frame (supported : Bool) (ends : Option Nat) : h.chaiseFrame (h.spdmRequest supported ends) := by
  refine .ite h.chaiseFrame_refl (.ite (h.chaiseFrame_refl.spdmError _) ?_)
  cases ends with
  | none => exact h.chaiseFrame_refl.answer _
  | some k => exact (h.chaiseFrame_refl.setSessions _).answer _

theorem Hw.pldmDiscovery_frame : h.chaiseFrame h.pldmDiscovery := .ite h.chaiseFrame_refl (h.chaiseFrame_refl.answer _)

theorem Hw.pldmSensorRead_frame (id : Nat) : h.chaiseFrame (h.pldmSensorRead id) := by
  refine .ite h.chaiseFrame_refl ?_
  split <;> exact h.chaiseFrame_refl.answer _

theorem Hw.fwTransfer_frame (off : Nat) (bs : List Byte) : h.chaiseFrame (h.fwTransfer off bs) :=
  .ite h.chaiseFrame_refl (.ite (h.chaiseFrame_refl.answer _) (((Hw.chaiseFrame.ite h.chaiseFrame_refl (h.chaiseFrame_refl.onChaise _)).onChaise _).answer _))

theorem Hw.fwVerify_frame : h.chaiseFrame h.fwVerify := by
  refine .ite h.chaiseFrame_refl ?_
  split
  · exact h.chaiseFrame_refl.answer _
  · exact (h.chaiseFrame_refl.onChaise _).answer _

theorem Hw.fwActivate_frame : h.chaiseFrame h.fwActivate := by
  refine .ite h.chaiseFrame_refl ?_
  split
  · exact (h.chaiseFrame_refl.onChaise _).answer _
  · exact h.chaiseFrame_refl.answer _

theorem Hw.vrPoll_frame (rails : List (Fin 9 × VrRead)) (bad : List (Fin 9)) : h.chaiseFrame (h.vrPoll rails bad) := by
  refine .ite h.chaiseFrame_refl (h.chaiseFrame_refl.onPg fun p => (Pages.clocked_sramCheck _).trans ?_)
  split
  · exact (Pages.clocked_upd (Reg.noLaser_apart (by decide)) _ _).trans (p.clocked_railPoll rails bad)
  · exact p.clocked_railPoll rails bad

theorem Hw.pmbAlert_frame (rails : List (Fin 9 × VrRead)) : h.chaiseFrame (h.pmbAlert rails) :=
  .ite h.chaiseFrame_refl (h.chaiseFrame_refl.onPg fun p => Pages.clocked_foldl (fun _ _ q => q.clocked_railRead _ _) p)

theorem Hw.avsUpdate_frame : h.chaiseFrame h.avsUpdate := by
  refine .ite h.chaiseFrame_refl (h.chaiseFrame_refl.onPg fun p => Pages.clocked_foldl (fun k _ q => Pages.clocked_upd ?_ _ q) p)
  exact Reg.noLaser_behind (by simp only [Reg.PWR_AVS_D0, regKey]; omega)

theorem Hw.thermSample_frame (sn : List Int) (near ports : List Nat) (far : List (Fin 8)) : h.chaiseFrame (h.thermSample sn near ports far) := by
  refine h.chaiseFrame_refl.onPg fun p => (Pages.clocked_showHot _).trans ((Pages.clocked_otherTemps _ _ _ _).trans (Pages.clocked_foldl (fun x _ q => ?_) p))
  split
  · exact q.clocked_sensorRead _ _
  · rfl

theorem Hw.thermStep_frame : h.chaiseFrame h.thermStep := ⟨_, h.chaise, _, rfl, rfl⟩

end Commands

theorem chaiseWork_frame {c : Instr} {f : Hw → Hw} (work : chaiseWork c = some f) (h : Hw) : h.chaiseFrame (f h) := by
  cases c with
  | getMeasurements => cases work; exact h.getMeasurements_frame _ _ _
  | getMeasurementExtensionLog => cases work; exact h.getMel_frame
  | getCertificate => cases work; exact h.getCertificate_frame _
  | getDigests => cases work; exact h.getDigests_frame
  | challenge => cases work; exact h.challenge_frame _
  | keyExchange => cases work; exact h.keyExchange_frame _
  | ideKm => cases work; exact h.ideKm_frame _
  | spdmRequest => cases work; exact h.spdmRequest_frame _ _
  | pldmDiscovery => cases work; exact h.pldmDiscovery_frame
  | pldmSensorRead => cases work; exact h.pldmSensorRead_frame _
  | pldmFwTransfer => cases work; exact h.fwTransfer_frame _ _
  | pldmFwVerify => cases work; exact h.fwVerify_frame
  | pldmFwActivate => cases work; exact h.fwActivate_frame
  | vrStatusPoll => cases work; exact .ite (h.vrPoll_frame _ _) h.chaiseFrame_refl
  | pmbAlertN => cases work; exact .ite (h.pmbAlert_frame _) h.chaiseFrame_refl
  | avsUpdate => cases work; exact .ite h.avsUpdate_frame h.chaiseFrame_refl
  | thermSample => cases work; exact .ite (h.thermSample_frame _ _ _ _) h.chaiseFrame_refl
  | thermDutyStep => cases work; exact .ite h.thermStep_frame h.chaiseFrame_refl
  | _ => cases work

/-! ## The device that a thermal trip holds (R507) -/

theorem Hw.up_of_tripped {h : Hw} (tripped : h.power.tripped = true) : h.up = false := by
  simp [Hw.up, tripped]

theorem Hw.frozen_iff {h : Hw} : h.frozen = true ↔ h.power.tripped = true ∧ h.dark = true := by
  simp only [Hw.frozen, Bool.and_eq_true]

theorem Hw.dark_eq_clocked (h : Hw) : h.dark = h.pg.clocked.2.2.all (!·) := by
  simp only [Hw.dark, Pages.clocked, List.all_map]
  rfl

theorem Hw.sameClocked_refl (h : Hw) : h.sameClocked h := by
  simp only [Hw.sameClocked, and_self]

/-- Within the Chaise's frame a frozen device stays frozen, and its stopped clocks move nothing. -/
theorem Hw.chaiseFrame.frozen {a b : Hw} (frame : a.chaiseFrame b) (frozen : a.frozen = true) : b.frozen = true ∧ a.sameClocked b := by
  obtain ⟨tripped, dark⟩ := Hw.frozen_iff.1 frozen
  obtain ⟨p, c, st, same, rfl⟩ := frame
  obtain ⟨fbc, beatNum, -⟩ : p.fbc = a.pg.fbc ∧ p.beatNum = a.pg.beatNum ∧ _ := by
    simpa only [Pages.clocked, Prod.mk.injEq] using same
  refine ⟨Hw.frozen_iff.2 ⟨tripped, ?_⟩, fbc.symm, beatNum.symm, rfl, rfl, rfl, rfl, rfl, rfl, rfl, rfl, rfl, rfl, rfl, rfl⟩
  rw [Hw.dark_eq_clocked] at dark ⊢
  exact (congrArg (fun x => x.2.2.all (!·)) same).trans dark

/-- Of register space and power, what the stopped clocks move is the beat. -/
theorem Hw.sameClocked_onPg {h : Hw} {f : Pages → Pages} (w : Power) (fbc : (f h.pg).fbc = h.pg.fbc) (beatNum : (f h.pg).beatNum = h.pg.beatNum) :
    h.sameClocked (Hw.onPg f { h with power := w }) :=
  ⟨fbc.symm, beatNum.symm, rfl, rfl, rfl, rfl, rfl, rfl, rfl, rfl, rfl, rfl, rfl, rfl⟩

theorem Pages.foldl_setb_beat (ks : List Nat) (p : Pages) :
    (ks.foldl (fun p k => p.setb (Reg.OPE_STAT k) 30 false) p).fbc = p.fbc ∧ (ks.foldl (fun p k => p.setb (Reg.OPE_STAT k) 30 false) p).beatNum = p.beatNum := by
  induction ks generalizing p with
  | nil => exact ⟨rfl, rfl⟩
  | cons k ks ih => exact ⟨(ih _).1.trans (Pages.wr_fbc _ _ p), (ih _).2.trans (Pages.wr_beatNum _ _ p)⟩

/-- A second trip finds every clock stopped. -/
theorem Hw.thermtrip_frozen (h : Hw) : h.thermtrip.frozen = true ∧ h.sameClocked h.thermtrip := by
  obtain ⟨fbc, beatNum⟩ := Pages.foldl_setb_beat (List.range 10) h.pg
  refine ⟨Hw.frozen_iff.2 ⟨?_, h.thermtrip_dark⟩, ?_⟩
  · rw [Hw.thermtrip, Hw.onPg_power]
  · rw [Hw.thermtrip]
    exact Hw.sameClocked_onPg _ fbc beatNum

/-- A command that acts on no pin or supply and yet whatever the device does is the trip itself. -/
theorem pinWork_of_not_isPin {c : Instr} {f : Hw → Hw} (pin : pinWork c = some f) (other : isPin c = false) : f = Hw.thermtrip := by
  cases c with
  | resetNRelease | resetNAssert | vaonLoss => cases other
  | thermtrip => cases pin; rfl
  | _ => cases pin

/-- Settles O47: the Chaise alone runs, within its frame; a second trip finds the clocks stopped. -/
theorem tripStep : Obligations.TripStep := by
  intro s t c rest queue other frozen next
  have down : s.hw.up = false := Hw.up_of_tripped (Hw.frozen_iff.1 frozen).1
  have run : exec c { s with pending := rest } = .next t := by simpa only [step, queue] using next
  cases pin : pinWork c with
  | some f =>
    cases (exec_pin pin _).symm.trans run
    cases pinWork_of_not_isPin pin other
    exact s.hw.thermtrip_frozen
  | none =>
    cases work : chaiseWork c with
    | some f =>
      cases (exec_chaise work _).symm.trans run
      dsimp only
      split
      · exact ⟨frozen, s.hw.sameClocked_refl⟩
      · have frame := (chaiseWork_frame work s.hw).frozen frozen
        have quiet : (f s.hw).sendOut = f s.hw := by
          rw [Hw.sendOut, if_neg (by rw [Hw.up_of_tripped (Hw.frozen_iff.1 frame.1).1]; decide)]
        rw [State.done_hw, quiet]
        exact frame
    | none =>
      obtain ⟨f, run⟩ := exec_device_next pin work run
      cases run.symm.trans (State.onHw_down f down)
      exact ⟨frozen, s.hw.sameClocked_refl⟩

end Sys2Proof.Machine

/-! # Proofs: Q_CTRL (R459, R469) -/

namespace Sys2Proof.Machine

/-- Q_CTRL at the page of its queue. -/
theorem Hw.blockWrite_qCtrl (h : Hw) (wi : WarmIn) (q : BitVec 14) (r : RegRow) (w : W32) :
    h.blockWrite wi (0x0900 + q.toNat / 64) (q.toNat % 64 * 64) r w = h.qCtrlWrite q.toNat w := by
  have low : q.toNat % 64 * 64 % 64 = 0 := by omega
  have queue : (0x0900 + q.toNat / 64 - 0x0900) * 64 + q.toNat % 64 * 64 / 64 = q.toNat := by omega
  unfold Hw.blockWrite
  simp only [pageKind_qcfg q.isLt, low, queue, if_true]

section Reset
variable {h : Hw} {q : Nat}

/-- RESET is no part of what Q_CTRL keeps. -/
theorem Hw.resetWord_kept (q : Nat) (h : Hw) : Hw.withBit (Reg.Q_CTRL q) 30 true h &&& 0xB01F1FFF#32 = h.pg.rd (Reg.Q_CTRL q) &&& 0xB01F1FFF#32 :=
  setBit_and _ _ (by decide) true (by decide)

theorem Hw.wbit_resetWord (q : Nat) (h : Hw) {i : Nat} : wbit (Hw.withBit (Reg.Q_CTRL q) 30 true h) i = if i = 30 then true else h.pg.bit (Reg.Q_CTRL q) i := by
  rw [Hw.withBit, wbit_setBit _ (by decide)]
  rfl

/-- RESET of a submission or completion queue that is disabled. -/
theorem Hw.qCtrlWrite_reset (off : h.pg.bit (Reg.Q_CTRL q) 31 = false) (kind : h.pg.get (Reg.Q_CTRL q) 29 28 ≠ 2) :
    h.qCtrlWrite q (Hw.withBit (Reg.Q_CTRL q) 30 true h) =
      (true, ((h.modQueue q fun _ => Queue.reset).onPg fun g => (g.put (Reg.Q_HEAD q) 15 0 0).put (Reg.Q_TAIL q) 15 0 0).onPg
        (Pages.wr (Reg.Q_CTRL q) (h.pg.rd (Reg.Q_CTRL q) &&& 0xB01F1FFF#32))) := by
  have disabled : wbit (h.pg.rd (Reg.Q_CTRL q)) 31 = false := off
  have noMrq : fld (h.pg.rd (Reg.Q_CTRL q)) 29 28 ≠ 2 := kind
  simp only [Hw.qCtrlWrite, Hw.wbit_resetWord, Hw.resetWord_kept, disabled, off, noMrq]
  rfl

/-- RESET of a message queue, enabled or not. -/
theorem Hw.qCtrlWrite_mrqReset (kind : h.pg.get (Reg.Q_CTRL q) 29 28 = 2) :
    h.qCtrlWrite q (Hw.withBit (Reg.Q_CTRL q) 30 true h) =
      (true, (h.mrqReset q).onPg (Pages.wr (Reg.Q_CTRL q) (h.pg.rd (Reg.Q_CTRL q) &&& 0xB01F1FFF#32))) := by
  have mrq : fld (h.pg.rd (Reg.Q_CTRL q)) 29 28 = 2 := kind
  have same : wbit (Hw.withBit (Reg.Q_CTRL q) 30 true h) 31 = wbit (h.pg.rd (Reg.Q_CTRL q)) 31 := Hw.wbit_resetWord q h
  have reset : wbit (Hw.withBit (Reg.Q_CTRL q) 30 true h) 30 = true := Hw.wbit_resetWord q h
  simp only [Hw.qCtrlWrite, same, reset, Hw.resetWord_kept, mrq, decide_true, Bool.not_true, Bool.and_false, Bool.and_not_self, Bool.false_and,
    Bool.false_eq_true, if_false, if_true]

/-- ENABLE where R469's checks pass. -/
theorem Hw.qCtrlWrite_enable {w : W32} (noReset : wbit w 30 = false) (pass : h.pg.qEnableOk q (setBit w 31 true) = true) :
    h.qCtrlWrite q (setBit w 31 true) = (true, h.onPg (Pages.wr (Reg.Q_CTRL q) (setBit w 31 true &&& 0xB01F1FFF#32))) := by
  have kept : wbit (setBit w 31 true) 30 = false := (wbit_setBit w (by decide) true 30).trans noReset
  simp only [Hw.qCtrlWrite, kept, pass, Bool.false_and, Bool.not_true, Bool.and_false, Bool.not_false, Bool.false_eq_true, if_false, if_true]

end Reset

/-- Settles O26: each write by what Q_CTRL makes of its word. -/
theorem queueControl : Obligations.QueueControl := by
  intro s p q up a
  obtain ⟨r, row⟩ := Hw.admits_row a
  have write {w : Hw → W32} {t : Hw} (e : s.hw.qCtrlWrite q.toNat (w s.hw) = (true, t)) :=
    Hw.regCmd_taken (wi := WarmIn.good) a row ((s.hw.blockWrite_qCtrl _ q r _).trans e)
  exact ⟨fun off kind => State.onHw_next up (write (Hw.qCtrlWrite_reset off kind)), fun kind => State.onHw_next up (write (Hw.qCtrlWrite_mrqReset kind)),
    fun w noReset _ pass => State.onHw_next up (write (w := fun _ => setBit w 31 true) (Hw.qCtrlWrite_enable noReset pass))⟩

end Sys2Proof.Machine

/-! # Proofs: the life of a context (R444, R445, R460, R461, R463, R511) -/

namespace Sys2Proof.Machine

/-! ## Commands of the HIF page (R444, R460, R463) -/

theorem Hw.hifWrite_ctxCmd (h : Hw) (r : RegRow) (w : W32) : h.hifWrite 0x044 r w = (true, h.ctxCmd w) := rfl

theorem Hw.hifWrite_zeroGo (h : Hw) (r : RegRow) (w : W32) : h.hifWrite 0x05C r w = h.zeroGo w := rfl

/-- The fields of HIF_CTX_CMD. -/
theorem ctxCmd_fields {m op gen part f c : Nat} (e : m = op * 2 ^ 28 + gen * 2 ^ 24 + part * 2 ^ 16 + f * 2 ^ 8 + c) (hop : op < 16) (hg : gen < 16)
    (hp : part < 16) (hf : f < 256) (hc : c < 256) :
    let w := BitVec.ofNat 32 m
    fld w 31 28 = op ∧ fld w 27 24 = gen ∧ fld w 19 16 = part ∧ fld w 15 8 = f ∧ fld w 7 0 = c := by
  simp only [fld, BitVec.toNat_ofNat]
  omega

theorem Hw.ctxCmd_bind {h : Hw} {m c f part gen : Nat} (e : m = 0x10000000 + gen * 2 ^ 24 + part * 2 ^ 16 + f * 2 ^ 8 + c) (hc : c < 256) (hf : f < 256)
    (hp : part < 16) (hg : gen < 16) (ok : h.bindBad c f part gen = false) :
    h.ctxCmd (BitVec.ofNat 32 m) = (h.bind c f part gen).onPg fun g => (g.setb Reg.HIF_CTX_STAT 24 false).put Reg.HIF_CTX_STAT 7 0 c := by
  obtain ⟨op, fgen, fpart, ff, fc⟩ := ctxCmd_fields (m := m) (op := 1) (by omega) (by decide) hg hp hf hc
  simp only [Hw.ctxCmd, op, fgen, fpart, ff, fc, ok, if_true, Bool.false_eq_true, if_false]

theorem Hw.ctxCmd_teardown {h : Hw} {m c : Nat} (e : m = 0x20000000 + c) (hc : c < 256) (other : c ≠ 0) (bound : h.pg.ctxSt c = 1)
    (idle : h.pg.anyTearing = false) :
    h.ctxCmd (BitVec.ofNat 32 m) = (h.tearBegin c).onPg fun g => (g.setb Reg.HIF_CTX_STAT 24 false).put Reg.HIF_CTX_STAT 7 0 c := by
  obtain ⟨op, -, -, -, fc⟩ := ctxCmd_fields (m := m) (op := 2) (gen := 0) (part := 0) (f := 0) (c := c) (by omega) (by decide) (by decide) (by decide)
    (by decide) hc
  simp [Hw.ctxCmd, op, fc, other, bound, idle]

theorem Hw.zeroGo_whole {h : Hw} (idle : h.pg.bit Reg.HIF_ZERO_STAT 31 = false) {a n : Nat} (ea : a = (h.pg.rd64 Reg.HIF_ZERO_ADDR_LO).toNat)
    (en : n = (h.pg.rd Reg.HIF_ZERO_LEN).toNat * 65536) (unit : a % 65536 = 0)
    (usable : n = 0 ∨ h.pg.rangeRegion a n = .near ∨ h.pg.rangeRegion a n = .far) :
    h.zeroGo 1#32 =
      (true, let h1 := h.onPg (Pages.wr Reg.HIF_ZERO_STAT 0x80000000#32)
             { h1 with hif := { h1.hif with zero := some (a, n) } }) := by
  have go : wbit (1#32) 0 = true := by decide
  have whole : ¬ (a % 65536 ≠ 0 ∨ (n ≠ 0 ∧ h.pg.rangeRegion a n ≠ .near ∧ h.pg.rangeRegion a n ≠ .far)) := by tauto
  subst ea en
  simp only [Hw.zeroGo, idle, go, Bool.not_true, Bool.false_eq_true, if_false, whole, Hw.onPg_hif]

theorem Hw.zeroDone_some {h : Hw} {a n : Nat} (z : h.hif.zero = some (a, n)) :
    h.zeroDone =
      let h1 := (h.onDev (Dev.zeroLines a n)).onPg (Pages.setb Reg.HIF_ZERO_STAT 31 false)
      { h1 with hif := { h1.hif with zero := none } } := by
  simp only [Hw.zeroDone, z]

/-! ## FLR (R460, R511) -/

theorem Hw.flr_bound {h : Hw} {f : Nat} (held : h.pg.funcCtx f ≠ 0xFF) (other : h.pg.funcCtx f ≠ 0) (bound : h.pg.ctxSt (h.pg.funcCtx f) = 1) :
    h.flr f =
      let h1 := (h.onPg fun p => ((p.put Reg.SRIOV_FLR 7 0 f).setb Reg.SRIOV_FLR 31 true).sat Reg.RST_FLR_CNT 1).tearBegin (h.pg.funcCtx f)
      { h1 with hif := { h1.hif with flr := some f } } := by
  simp only [Hw.flr, held, other, bound, ne_eq, not_false_eq_true, decide_true, Bool.and_self, Bool.true_or, if_true]

/-! ## What an event leaves of the contexts (R451, R455) -/

theorem Hw.setDev_ctxs (h : Hw) (d : Dev) : ({ h with dev := d } : Hw).ctxs = h.ctxs := rfl

theorem Hw.ringTried_ctxs (q : Nat) (h : Hw) : (h.ringTried q).ctxs = h.ctxs := h.setDev_ctxs _

theorem Hw.ringReach_ctxs (q bus : Nat) (h : Hw) : (h.ringReach q bus).2.ctxs = h.ctxs := by
  unfold Hw.ringReach Hw.ringFault
  dsimp only
  split
  · exact h.ringTried_ctxs q
  · rw [Hw.onPg_ctxs, apply_ite Hw.ctxs, Hw.onPg_ctxs, ite_self, Hw.ringTried_ctxs]

theorem Hw.busWrite_ctxs (q bus : Nat) (bs : List Byte) (h : Hw) : (h.busWrite q bus bs).ctxs = h.ctxs := by
  rw [Hw.busWrite, Hw.onPg_ctxs, Hw.onMem_ctxs]

theorem Hw.ringPut_ctxs (q size at_ : Nat) (e : List Byte) (h : Hw) : (h.ringPut q size at_ e).ctxs = h.ctxs := by
  unfold Hw.ringPut
  dsimp only
  split
  · exact h.ringReach_ctxs _ _
  · rw [Hw.onPg_ctxs, apply_ite Hw.ctxs, Hw.modQueue_ctxs, ite_self, Hw.onPg_ctxs, Hw.busWrite_ctxs, Hw.ringReach_ctxs]

theorem Hw.eqPost_ctxs (q : Nat) (e : List Byte) (h : Hw) : (h.eqPost q e).ctxs = h.ctxs := by
  unfold Hw.eqPost
  split
  · rfl
  · split
    · exact Hw.onPg_ctxs _ h
    · exact h.ringPut_ctxs _ _ _ _

theorem Hw.devEvent_ctxs (kind c : Nat) (data : List Byte) (h : Hw) : (h.devEvent kind c data).ctxs = h.ctxs := by
  unfold Hw.devEvent
  dsimp only
  split
  · exact h.eqPost_ctxs _ _
  · rfl

/-! ## The end of a teardown (R460) -/

/-- A part of the device that each step of a sequence leaves as it is. -/
theorem foldl_kept {α β γ : Type} {part : α → γ} {f : α → β → α} (step : ∀ a b, part (f a b) = part a) (l : List β) (a : α) :
    part (l.foldl f a) = part a := by
  induction l generalizing a with
  | nil => rfl
  | cons b l ih => exact (ih _).trans (step a b)

/-- The end of a teardown leaves of its context the last generation, and every other context as it is. -/
theorem Hw.tearDone_ctxs {c : Nat} {h : Hw} (ready : (h.ctx c).tear = 3) :
    (h.tearDone c).ctxs = tmod (fun _ => Ctx.reset) h.ctxs c fun x => { Ctx.reset with lastGen := x.lastGen } := by
  have cores (l : List Nat) (lo hi : Nat) :
      (l.foldl (fun h l => if h.reach l then h.modCore (h.pg.physOf l) (Core.zeroWin lo hi) else h) h).ctxs = h.ctxs :=
    foldl_kept (part := Hw.ctxs) (fun g l => by split <;> rfl) l h
  unfold Hw.tearDone
  rw [if_neg (not_not.2 ready)]
  dsimp only
  rw [Hw.onPg_ctxs, Hw.devEvent_ctxs, Hw.modCtx_ctxs, cores]

theorem Hw.tearDone_ctx {c : Nat} {h : Hw} (ready : (h.ctx c).tear = 3) (d : Nat) :
    (h.tearDone c).ctx d = if d = c then { Ctx.reset with lastGen := (h.ctx c).lastGen } else h.ctx d := by
  rw [Hw.ctx, Hw.tearDone_ctxs ready]
  exact Hw.ctx_modCtx h c d fun x => { Ctx.reset with lastGen := x.lastGen }

/-! ## The scratch window (R23, R445) -/

theorem Hw.blockWrite_ctxScr {c : Nat} (hc : c < 256) (h : Hw) (wi : WarmIn) (r : RegRow) (w : W32) :
    h.blockWrite wi (Pg.ctx c) 0x048 r w = h.ctxScrWrite c w := by
  have number : Pg.ctx c - 0x4000 = c := by simp only [Pg.ctx]; omega
  simp only [Hw.blockWrite, pageKind_ctx hc, number]
  rfl

theorem Hw.ctxScrWrite_moves {h : Hw} {c : Nat} {w : W32} (quiet : h.launched c = false) (wide : fld w 7 0 < fld w 15 8) (fits : fld w 15 8 ≤ 128)
    (apart : h.pg.ctxSt c ≠ 0 → ∀ x ∈ h.pg.partMates c, h.pg.get (Reg.CTX_SCR x) 15 8 ≤ fld w 7 0 ∨ fld w 15 8 ≤ h.pg.get (Reg.CTX_SCR x) 7 0) :
    h.ctxScrWrite c w = (true, h.onPg (Pages.capSet (Pages.wr (Reg.CTX_SCR c) (w &&& 0xFFFF#32)) [Reg.CTX_SCR c])) := by
  have free : (decide (h.pg.ctxSt c ≠ 0) && (h.pg.partMates c).any fun x =>
      decide (fld w 7 0 < h.pg.get (Reg.CTX_SCR x) 15 8) && decide (h.pg.get (Reg.CTX_SCR x) 7 0 < fld w 15 8)) = false := by
    rw [Bool.and_eq_false_iff, decide_eq_false_iff_not, List.any_eq_false]
    by_cases bound : h.pg.ctxSt c ≠ 0
    · refine .inr fun x mate => ?_
      have := apart bound x mate
      simp only [Bool.and_eq_true, decide_eq_true_eq, not_and]
      omega
    · exact .inl bound
  simp only [Hw.ctxScrWrite, quiet, free, decide_eq_false (Nat.not_le.2 wide), decide_eq_false (Nat.not_lt.2 fits), Bool.or_self, Bool.false_eq_true, if_false]

/-- Settles O36: each command by the function of the context's life that it runs. -/
theorem contextLife : Obligations.ContextLife := by
  intro s up
  refine ⟨fun p a c => ⟨fun f part gen ok => ?bind, fun other bound idle => ?teardown⟩, fun f held other bound => State.onHw_next up (Hw.flr_bound held other bound),
    fun c => ⟨fun t => ?drain, fun t => ⟨State.onHw_next up rfl, ?own, fun d other => ?others⟩⟩, State.onHw_next up rfl, fun p a idle => ?zeroGo,
    fun a n z => State.onHw_next up (Hw.zeroDone_some z), fun p c w a quiet wide fits apart => ?window⟩
  case bind =>
    have cmd := Hw.ctxCmd_bind (h := s.hw) rfl c.isLt f.isLt part.isLt gen.isLt ok
    exact State.onHw_next up ((Hw.regSet_taken a fun r => s.hw.hifWrite_ctxCmd r _).trans cmd)
  case teardown =>
    have cmd := Hw.ctxCmd_teardown rfl c.isLt (fun z => other (BitVec.eq_of_toNat_eq z)) bound idle
    exact State.onHw_next up ((Hw.regSet_taken a fun r => s.hw.hifWrite_ctxCmd r _).trans cmd)
  case drain =>
    refine State.onHw_next up ?_
    rw [Hw.tearDrain, if_neg (not_not.2 t)]
  case own => rw [Hw.tearDone_ctx t, if_pos rfl]
  case others => rw [Hw.tearDone_ctx t, if_neg other]
  case zeroGo =>
    intro b n unit usable
    exact State.onHw_next up (Hw.regSet_taken a fun r => (s.hw.hifWrite_zeroGo r _).trans (Hw.zeroGo_whole idle rfl rfl unit usable))
  case window =>
    exact State.onHw_next up (Hw.regSet_taken a fun r => (s.hw.blockWrite_ctxScr c.isLt _ r w).trans (Hw.ctxScrWrite_moves quiet wide fits apart))

end Sys2Proof.Machine

/-! # Proofs: lending, CXL.mem and the host's link (R441, R442, R464, R465) -/

namespace Sys2Proof.Machine

/-- Two updates of register space that agree on it as it stands do the same to the device. -/
theorem Hw.onPg_congr {h : Hw} {f g : Pages → Pages} (e : f h.pg = g h.pg) : h.onPg f = h.onPg g := by
  simp only [Hw.onPg, Dev.onPg, show f h.dev.pg = g h.dev.pg from e]

/-! ## LEND_CTRL (R464) -/

theorem Hw.hifWrite_lendCtrl (h : Hw) (j : Fin 8) (r : RegRow) (w : W32) : h.hifWrite (0x708 + 16 * j.val) r w = h.lendCtrl j.val w := by
  have region : (0x708 + 16 * j.val - 0x700) / 16 = j.val := by omega
  unfold Hw.hifWrite
  rw [if_neg (by omega), if_neg (by omega), if_neg (by omega), if_neg (by omega), if_neg (by omega), if_neg (by omega), if_neg (by omega),
    if_pos (by omega), region]

section Lending
variable {h : Hw} {j : Nat}

/-- CREATE of a free region that meets no other. -/
theorem Hw.lendCtrl_create (free : h.pg.lendSt j = 0) (sized : (h.pg.lendRange j).2 ≠ 0)
    (far : h.pg.rangeRegion (h.pg.lendRange j).1 (h.pg.lendRange j).2 = .far)
    (apart : ∀ k, k < 8 → k ≠ j → h.pg.lendSt k ≠ 0 →
      (h.pg.lendRange k).1 + (h.pg.lendRange k).2 ≤ (h.pg.lendRange j).1 ∨ (h.pg.lendRange j).1 + (h.pg.lendRange j).2 ≤ (h.pg.lendRange k).1) :
    h.lendCtrl j 1#32 = (true, h.onPg (Pages.wr (Reg.LEND_STAT j) 1)) := by
  have create : fld (1#32) 1 0 = 1 := by decide
  have alone : ((List.range 8).any fun k => k ≠ j && h.pg.lendSt k ≠ 0 &&
      decide ((h.pg.lendRange j).1 < (h.pg.lendRange k).1 + (h.pg.lendRange k).2) &&
      decide ((h.pg.lendRange k).1 < (h.pg.lendRange j).1 + (h.pg.lendRange j).2)) = false := by
    refine List.any_eq_false.2 fun k hk => ?_
    have := apart k (List.mem_range.1 hk)
    simp only [ne_eq, decide_not, Bool.and_eq_true, Bool.not_eq_eq_eq_not, Bool.not_true, decide_eq_false_iff_not, decide_eq_true_eq, not_and, and_imp]
    intro other used
    have := this other used
    omega
  simp only [Hw.lendCtrl, create, if_true, free, sized, far, alone]
  rfl

/-- RELEASE of an ACTIVE region whose decoder is not committed. -/
theorem Hw.lendCtrl_release (active : h.pg.lendSt j = 2) (uncommitted : h.pg.bit (Reg.LEND_STAT j) 8 = false) (zero : Bool) :
    h.lendCtrl j (BitVec.ofNat 32 (2 + 16 * zero.toNat)) =
      let h1 := h.onPg (Pages.wr (Reg.LEND_STAT j) 3)
      if zero then (true, { h1 with hif := { h1.hif with zeroLend := sadd h1.hif.zeroLend j } }) else (true, h1.lendFree j) := by
  have release : fld (BitVec.ofNat 32 (2 + 16 * zero.toNat)) 1 0 = 2 := by cases zero <;> decide
  have zeroes : wbit (BitVec.ofNat 32 (2 + 16 * zero.toNat)) 4 = zero := by cases zero <;> decide
  simp only [Hw.lendCtrl, release, zeroes, active, uncommitted]
  rfl

theorem Hw.lendActivate_creating (creating : h.pg.lendSt j = 1) :
    h.lendActivate j = (h.onPg fun p => (p.wr (Reg.LEND_STAT j) 2).showLent).lendEvent j := by
  rw [Hw.lendActivate, if_neg (not_not.2 creating)]

/-- A decoder of one way over the region itself commits (R442). -/
theorem Hw.hdmCommit_matches (active : h.pg.lendSt j = 2) (far : ftBase ≤ (h.pg.lendRange j).1) :
    h.hdmCommit j 1 ((h.pg.lendRange j).1 - ftBase) (h.pg.lendRange j).2 =
      ({ h with hif := { h.hif with hdmErr := sdel h.hif.hdmErr j } } : Hw).onPg (Pages.setb (Reg.LEND_STAT j) 8 true) := by
  have base : ftBase + ((h.pg.lendRange j).1 - ftBase) = (h.pg.lendRange j).1 := Nat.add_sub_cancel' far
  simp only [Hw.hdmCommit, active, base, decide_true, Bool.and_self, if_true]

theorem Hw.lendFree_releasing (releasing : h.pg.lendSt j = 3) :
    h.lendFree j =
      let h1 := if j ∈ h.hif.zeroLend then h.onDev (Dev.zeroLines (h.pg.lendRange j).1 (h.pg.lendRange j).2) else h
      let h2 := h1.onPg fun p => (p.wr (Reg.LEND_STAT j) 0).showLent
      ({ h2 with hif := { h2.hif with zeroLend := sdel h2.hif.zeroLend j } } : Hw).lendEvent j := by
  rw [Hw.lendFree, if_neg (not_not.2 releasing)]

end Lending

/-! ## CXL.mem (R465) -/

theorem Hw.cxlRead_committed {h : Hw} {dpa : Nat} (mem : h.pg.bit Reg.HIF_LINK 1 = true) (lent : h.pg.committed (dpa / 64 * 64) 64 = true) {bs : List Byte}
    {d : Dev} (good : h.dev.tierRead .host none (ftBase + dpa / 64 * 64) 64 = (some bs, d)) :
    h.cxlRead dpa = ({ h with dev := d } : Hw).cxlAnswer (dpa / 64 * 64) bs false := by
  simp only [Hw.cxlRead, mem, lent, good, Bool.not_true, Bool.false_eq_true, if_false]

theorem Hw.cxlWrite_committed {h : Hw} {dpa : Nat} {bs : List Byte} (mem : h.pg.bit Reg.HIF_LINK 1 = true)
    (lent : h.pg.committed dpa (bs.take (64 - dpa % 64)).length = true) :
    h.cxlWrite dpa bs = h.onDev (Dev.tierWrite .host none (ftBase + dpa) (bs.take (64 - dpa % 64))) := by
  simp only [Hw.cxlWrite, mem, lent, Bool.not_true, Bool.false_eq_true, if_false]

/-! ## The host's link (R441) -/

/-- A width that R441 lists for this board, at a speed, is up. -/
theorem Hw.hostLink_up {h : Hw} {speed width : Nat} (listed : h.pg.hostWidthOk width = true) (trained : 1 ≤ speed ∧ speed ≤ 6) (flit cxl : Bool) :
    h.hostLink speed width flit cxl = h.onPg fun p =>
      ((((((p.put Reg.HIF_LINK 31 28 speed).put Reg.HIF_LINK 20 16 width).setb Reg.HIF_LINK 8 flit).setb Reg.HIF_LINK 1 (cxl && decide (5 ≤ speed))).setb
        Reg.HIF_LINK 0 true).setb Reg.CLK_STAT 13 true).capSet
          (fun p => (p.put Reg.CAP_HOST 4 0 width).setb Reg.CAP_HOST 8 (cxl && decide (5 ≤ speed))) [Reg.CAP_HOST] := by
  simp only [Hw.hostLink, listed, trained, and_self, decide_true, Bool.and_self, Bool.and_true, if_true]

/-- Any other leaves it down. -/
theorem Hw.hostLink_down {h : Hw} {speed width : Nat} (unfit : (h.pg.hostWidthOk width && decide (1 ≤ speed ∧ speed ≤ 6)) = false) (flit cxl : Bool) :
    h.hostLink speed width flit cxl = h.onPg fun p =>
      (((((p.put Reg.HIF_LINK 31 28 0).put Reg.HIF_LINK 20 16 0).setb Reg.HIF_LINK 8 false).setb Reg.HIF_LINK 1 false).setb Reg.HIF_LINK 0 false).capSet
        (Pages.setb Reg.CAP_HOST 8 false) [Reg.CAP_HOST] := by
  simp only [Hw.hostLink, unfit, Bool.and_false, Bool.false_and, Bool.false_eq_true, if_false]

/-- Settles O37: each command by the function that it runs; the link's widths by R441's list. -/
theorem lendingAndHostLink : Obligations.LendingAndHostLink := by
  intro s up
  refine ⟨fun j => ?region, fun dpa mem => ⟨fun lent bs d good => State.onHw_next up (Hw.cxlRead_committed mem lent good), fun bs lent =>
    State.onHw_next up (Hw.cxlWrite_committed mem lent)⟩, fun v w flit cxl trained listed => ?up, fun v w flit cxl other => ?down, fun quiet => ?error⟩
  case region =>
    intro r
    refine ⟨fun p a => ⟨fun free sized far apart => ?_, fun active uncommitted => ?_⟩, fun creating => State.onHw_next up (Hw.lendActivate_creating creating),
      fun active far => State.onHw_next up (Hw.hdmCommit_matches active far), fun releasing => State.onHw_next up (Hw.lendFree_releasing releasing),
      State.onHw_next up rfl⟩
    · exact State.onHw_next up (Hw.regSet_taken a fun r => (s.hw.hifWrite_lendCtrl j r _).trans (Hw.lendCtrl_create free sized far apart))
    · exact ⟨State.onHw_next up (Hw.regSet_taken a fun r => (s.hw.hifWrite_lendCtrl j r _).trans (Hw.lendCtrl_release active uncommitted false)),
        State.onHw_next up (Hw.regSet_taken a fun r => (s.hw.hifWrite_lendCtrl j r _).trans (Hw.lendCtrl_release active uncommitted true))⟩
  case up =>
    have width : s.hw.pg.hostWidthOk w.val = true := by
      rcases listed with x8 | ⟨x16, free⟩
      · simp [Pages.hostWidthOk, x8]
      · simp [Pages.hostWidthOk, x16, free]
    exact State.onHw_next up (Hw.hostLink_up width ⟨trained, by omega⟩ flit cxl)
  case down =>
    have unfit : (s.hw.pg.hostWidthOk w.val && decide (1 ≤ v.val ∧ v.val ≤ 6)) = false := by
      rcases other with ⟨no8, no16⟩ | none
      · simp [Pages.hostWidthOk, no8, no16]
      · simp [none]
    exact State.onHw_next up (Hw.hostLink_down unfit flit cxl)
  case error =>
    refine State.onHw_next up (Hw.onPg_congr ?_)
    rw [Pages.detect_unarmed quiet, if_pos rfl]

end Sys2Proof.Machine

/-! # Proofs: boot, attestation and update (R477 to R493, R514) -/

namespace Sys2Proof.Machine

/-! ## Boot and the debug lock (R477, R491, R514) -/

/-- The write of CAP_VER that ends a cold boot, with no escalation due. -/
theorem Hw.capVer_coldBoot {h : Hw} (code : h.pg.get Reg.DEV_STATE 15 8 = 7) (booting : h.pg.devState = 1) (calm : h.power.escalate = false) (ms : W16) :
    h.capVer ms = h.onPg fun p =>
      ((((p.capSet (Pages.wr Reg.CAP_VER 0x1802) [Reg.CAP_VER]).bootCode 0x0F).put Reg.DEV_STATE 3 0 (if p.bit Reg.HANG_STAT 31 then 4 else 2)).stage 3).wr
        Reg.CMP_BOOT_MS (ms.setWidth 32) := by
  simp only [Hw.capVer, code, booting, and_self, true_or, if_true, Hw.onPg_power, calm, Bool.false_eq_true, if_false]

theorem Hw.blockWrite_secDbg {h : Hw} {w : W32} (opens : wbit w 0 = true) (wi : WarmIn) (r : RegRow) : h.blockWrite wi Pg.sec 0x048 r w = h.dbgOpen :=
  if_pos opens

/-- The debug lock opens where neither a fuse, the state, an earlier opening nor a launch speaks against it. -/
theorem Hw.dbgOpen_opens {h : Hw} (unlocked : h.fusePolicy.1 = false) (ready : h.fusePolicy.2.2.pg.devState = 2)
    (closed : h.fusePolicy.2.2.pg.bit Reg.SEC_STAT 25 = false) (idle : h.fusePolicy.2.2.anyLaunch = false) :
    h.dbgOpen = (true, (((h.fusePolicy.2.2).extend 8 (sha384 (asciiOf "DBG_OPEN"))).onPg (Pages.setb Reg.SEC_STAT 25 true)).onPg
      (Pages.setb Reg.SEC_DBG_CTRL 0 true)) := by
  simp only [Hw.dbgOpen, unlocked, ready, closed, idle, ne_eq, not_true_eq_false, decide_false, Bool.or_self, Bool.false_eq_true, if_false]

/-- Settles O38: the pins act whatever the device does; the rest by the function of each command. -/
theorem bootCommands : Obligations.BootCommands := by
  intro s
  refine ⟨fun i reset => ?release, rfl, rfl, fun ms up code booting calm => State.onHw_next up (Hw.capVer_coldBoot code booting calm ms),
    fun p j up => State.onHw_next up rfl, fun p up a unlocked ready closed idle => ?debug⟩
  case release =>
    change State.onPins _ s = _
    rw [State.onPins, if_pos reset]
  case debug =>
    exact State.onHw_next up (Hw.regSet_taken a fun r => (Hw.blockWrite_secDbg (by decide) _ r).trans (Hw.dbgOpen_opens unlocked ready closed idle))

/-! ## SPDM (R484 to R489) -/

/-- A signature that the signer gives is used. -/
theorem Hw.signed_ok {h t : Hw} {msg sig : List Byte} (good : h.sign msg = (some sig, t)) (f : List Byte → Hw → Hw) : h.signed msg f = f sig t := by
  simp only [Hw.signed, good]

section Spdm
variable {h : Hw} (runs : h.extUp = true)
include runs

/-- A device that boots is BUSY. -/
theorem Hw.getMeasurements_booting (boots : h.pg.devState = 1) (index : Nat) (sign : Bool) (nonce : List Byte) :
    h.getMeasurements index sign nonce = h.spdmError 2 := by
  simp only [Hw.getMeasurements, runs, boots, Bool.not_true, Bool.false_eq_true, if_false, if_true]

/-- An index of R484 is answered with its blocks, signed or not. -/
theorem Hw.getMeasurements_listed (booted : h.pg.devState ≠ 1) {index : Nat} (listed : index = 0xFF ∨ (1 ≤ index ∧ index ≤ 32)) (sign : Bool)
    (nonce : List Byte) :
    h.getMeasurements index sign nonce =
      if sign then h.signed (nonce ++ (h.chaise.blocks index).flatMap (·.2)) fun sig h' => h'.answer (.measurements (h.chaise.blocks index) (some sig))
      else h.answer (.measurements (h.chaise.blocks index) none) := by
  have valid : ¬ (index ≠ 0xFF ∧ (index = 0 ∨ 32 < index)) := by omega
  simp only [Hw.getMeasurements, runs, booted, valid, Bool.not_true, Bool.false_eq_true, if_false]

theorem Hw.getMel_booting (boots : h.pg.devState = 1) : h.getMel = h.spdmError 2 := by
  simp only [Hw.getMel, runs, boots, Bool.not_true, Bool.false_eq_true, if_false, if_true]

theorem Hw.getMel_booted (booted : h.pg.devState ≠ 1) : h.getMel = h.answer (.mel h.chaise.mel) := by
  simp only [Hw.getMel, runs, booted, Bool.not_true, Bool.false_eq_true, if_false]

/-- Slot 0 holds the provisioned chain, or nothing. -/
theorem Hw.getCertificate_zero : h.getCertificate 0 = match h.chain with | some c => h.answer (.certificate c) | none => h.spdmError 1 := by
  cases chain : h.chain <;> simp only [Hw.getCertificate, runs, chain, Bool.not_true, Bool.false_eq_true, if_false]

theorem Hw.getDigests_runs : h.getDigests = h.answer (.digests (h.chain.map sha384)) := by
  simp only [Hw.getDigests, runs, Bool.not_true, Bool.false_eq_true, if_false]

theorem Hw.challenge_signed {t : Hw} {nonce sig : List Byte} (good : h.sign nonce = (some sig, t)) : h.challenge nonce = t.answer (.challengeAuth sig) := by
  simp only [Hw.challenge, runs, Bool.not_true, Bool.false_eq_true, if_false, Hw.signed_ok good]

/-- A fifth session is not opened; a first free number of four is. -/
theorem Hw.keyExchange_signed {t : Hw} {nonce sig : List Byte} (good : h.sign nonce = (some sig, t)) (few : h.chaise.sessions.length < 4) :
    h.keyExchange nonce =
      let k := ((List.range 4).find? fun i => i ∉ t.chaise.sessions).getD 0
      (t.setSessions (k :: t.chaise.sessions)).answer (.keyExchange k sig) := by
  simp only [Hw.keyExchange, runs, Nat.not_le.2 few, Bool.not_true, Bool.false_eq_true, if_false, Hw.signed_ok good]

theorem Hw.ideKm_open {k : Nat} (opened : k ∈ h.chaise.sessions) : h.ideKm k = (h.onPg (Pages.setb Reg.HIF_LINK 4 true)).answer .ideKeyed := by
  simp only [Hw.ideKm, runs, not_not.2 opened, Bool.not_true, Bool.false_eq_true, if_false]

theorem Hw.spdmRequest_supported (ends : Option Nat) :
    h.spdmRequest true ends =
      match ends with
      | some k => (h.setSessions (sdel h.chaise.sessions k)).answer .answered
      | none => h.answer .answered := by
  cases ends <;> simp only [Hw.spdmRequest, runs, Bool.not_true, Bool.false_eq_true, if_false]

theorem Hw.spdmRequest_unsupported (ends : Option Nat) : h.spdmRequest false ends = h.spdmError 5 := by
  simp only [Hw.spdmRequest, runs, Bool.not_true, Bool.not_false, Bool.false_eq_true, if_false, if_true]

end Spdm

/-- An index of a request that R484 lists. -/
theorem spdmIndex_listed {i : Byte} (listed : i = 0xFF ∨ (1 ≤ i.toNat ∧ i.toNat ≤ 32)) : i.toNat = 0xFF ∨ (1 ≤ i.toNat ∧ i.toNat ≤ 32) :=
  listed.imp_left (congrArg BitVec.toNat)

/-- Settles O39: each request by what the extension firmware, which runs, makes of it. -/
theorem spdmRequests : Obligations.SpdmRequests := by
  intro s live runs
  refine ⟨fun i nonce booted listed => ?measurements, fun i sign nonce boots => ?busy, fun booted => State.onChaise_next live (Hw.getMel_booted runs booted),
    State.onChaise_next live (Hw.getCertificate_zero runs), State.onChaise_next live (Hw.getDigests_runs runs), fun nonce sig t good => ?signed,
    fun k opened => State.onChaise_next live (Hw.ideKm_open runs opened), State.onChaise_next live (Hw.spdmRequest_supported runs none),
    fun k => State.onChaise_next live (Hw.spdmRequest_supported runs (some k)), fun e => State.onChaise_next live (Hw.spdmRequest_unsupported runs e)⟩
  case measurements =>
    refine ⟨State.onChaise_next live (Hw.getMeasurements_listed runs booted (spdmIndex_listed listed) false nonce), fun sig t good => ?_⟩
    refine State.onChaise_next live ((Hw.getMeasurements_listed runs booted (spdmIndex_listed listed) true nonce).trans ?_)
    rw [if_pos rfl, Hw.signed_ok good]
  case busy =>
    exact ⟨State.onChaise_next live (Hw.getMeasurements_booting runs boots _ _ _), State.onChaise_next live (Hw.getMel_booting runs boots)⟩
  case signed =>
    exact ⟨State.onChaise_next live (Hw.challenge_signed runs good), fun few => State.onChaise_next live (Hw.keyExchange_signed runs good few)⟩

/-! ## PLDM (R490, R493) -/

section Pldm
variable {h : Hw}

/-- A transfer into the slot that is not running. -/
theorem Hw.fwTransfer_fits (served : h.pldmUp = true) {off : Nat} {bs : List Byte} (aligned : off % 4096 = 0) (block : bs.length ≤ 4096)
    (fits : off + bs.length ≤ 0xC00000) :
    h.fwTransfer off bs =
      let k := if h.extUp then 1 - h.slot else 0
      let h1 := if h.chaise.update.isSome then h else h.onChaise fun c => c.flashPut (slotBase k) (List.replicate 512 0xFF)
      (h1.onChaise fun c => { (c.flashPut (slotBase k + off) bs) with update := some ⟨k, false⟩ }).answer (.fw true none) := by
  have sound : ¬ (off % 4096 ≠ 0 ∨ 4096 < bs.length ∨ 0xC00000 < off + bs.length) := by omega
  simp only [Hw.fwTransfer, served, sound, Bool.not_true, Bool.false_eq_true, if_false]

theorem Hw.fwVerify_updating (served : h.pldmUp = true) {v : FwUpdate} (updating : h.chaise.update = some v) :
    h.fwVerify =
      let ok := h.chaise.slotOk v.slot
      (h.onChaise fun c => { c with update := some { v with verified := ok } }).answer (.fw ok (some (h.sigStatus (h.chaise.hdr v.slot)))) := by
  simp only [Hw.fwVerify, served, updating, Bool.not_true, Bool.false_eq_true, if_false]

theorem Hw.fwActivate_verified (served : h.pldmUp = true) {k : Nat} (verified : h.chaise.update = some ⟨k, true⟩) :
    h.fwActivate = (h.onChaise fun c => { (c.flashPut 0 (bootDir k (c.dirSeq + 1))) with update := none }).answer (.fw true none) := by
  simp only [Hw.fwActivate, served, verified, Bool.not_true, Bool.false_eq_true, if_false]

theorem Hw.pldmDiscovery_served (served : h.pldmUp = true) : h.pldmDiscovery = h.answer (.discovery (if h.extUp then [0, 2, 5] else [0, 5])) := by
  simp only [Hw.pldmDiscovery, served, Bool.not_true, Bool.false_eq_true, if_false]

theorem Hw.pldmSensorRead_listed (runs : h.extUp = true) {id : Nat} {v : Int} (sensor : h.pg.pldmSensor id = some v) :
    h.pldmSensorRead id = h.answer (.sensor id v) := by
  simp only [Hw.pldmSensorRead, runs, sensor, Bool.not_true, Bool.false_eq_true, if_false]

end Pldm

/-- Settles O40: each command by what the terminus that serves it does. -/
theorem pldmCommands : Obligations.PldmCommands := by
  intro s live
  refine ⟨fun served => ⟨State.onChaise_next live (Hw.pldmDiscovery_served served), fun off bs aligned block fits => ?transfer,
    fun v updating => State.onChaise_next live (Hw.fwVerify_updating served updating),
    fun k verified => State.onChaise_next live (Hw.fwActivate_verified served verified)⟩,
    fun id v runs sensor => State.onChaise_next live (Hw.pldmSensorRead_listed runs sensor)⟩
  case transfer => exact State.onChaise_next live (Hw.fwTransfer_fits served aligned block fits)

end Sys2Proof.Machine

/-! # Proofs: power, temperature and clocks (R498 to R517) -/

namespace Sys2Proof.Machine

/-! ## Writes of the PWR page (R502, R503, R517) -/

theorem Hw.blockWrite_pstate (h : Hw) (wi : WarmIn) (r : RegRow) (w : W32) : h.blockWrite wi Pg.pwr 0x040 r w = h.pstateWrite w := rfl

theorem Hw.blockWrite_cap (h : Hw) (wi : WarmIn) (r : RegRow) (w : W32) : h.blockWrite wi Pg.pwr 0x048 r w = h.capWrite w := rfl

theorem Hw.blockWrite_suspect (h : Hw) (wi : WarmIn) (r : RegRow) (w : W32) :
    h.blockWrite wi Pg.pwr 0x070 r w = (true, h.onPg (Pages.suspectClear w)) := rfl

theorem Hw.pstateWrite_free {h : Hw} (free : h.anyExact = false) (w : W32) :
    h.pstateWrite w = (true, ({ h with power := { h.power with pend := true } } : Hw).onPg (Pages.put Reg.PWR_PSTATE 2 0 (fld w 2 0))) := by
  simp only [Hw.pstateWrite, free, Bool.false_eq_true, if_false]

/-- EN may be set while no EXACT launch runs, and may always be cleared. -/
theorem Hw.capWrite_free {h : Hw} {w : W32} (free : wbit w 31 = true → h.anyExact = false) :
    h.capWrite w = (true, h.onPg fun g => (g.wr Reg.PWR_CAP (w &&& 0x8000FFFF#32)).setb Reg.PWR_STAT 0 (wbit w 31)) := by
  have allowed : (wbit w 31 && h.anyExact) = false := by
    cases en : wbit w 31 with
    | false => rfl
    | true => exact free en
  simp only [Hw.capWrite, allowed, Bool.false_eq_true, if_false]

theorem Pages.suspectClear_valid {w : W32} (valid : wbit w 31 = true) (p : Pages) :
    p.suspectClear w = ((p.setb Reg.PWR_SUSPECT 31 false).wr64 Reg.PWR_UV_FIRST_LO 0).wr64 Reg.PWR_UV_LAST_LO 0 := by
  rw [Pages.suspectClear, if_pos valid]

/-! ## The Chaise's own timers (R497, R498, R505, R506) -/

/-- Work of the Chaise that a page's block carries out, where it works. -/
theorem State.onChaise_works {s : State} {pg : Nat} {f g : Hw → Hw} (live : s.hw.power.inReset = false) (works : s.hw.pg.works pg = true) (e : f s.hw = g s.hw) :
    s.onChaise (fun h => if h.pg.works pg then f h else h) = .next (s.done g) :=
  State.onChaise_next live (by simp only [works, if_true, e])

/-! ## Clocks (R509, R510) -/

/-- What the loss of a PLL's lock leaves in the CLK page. -/
def Hw.clkLose (k : Nat) (h : Hw) : Hw := h.onPg fun p => ((p.raise Pg.clk 0 k none).setb Reg.CLK_STAT k false).sat Reg.CLK_LOCKLOSS_CNT 1

/-- The Chaise's own PLL stops it, PCIE's takes the host link down, and any other brings a warm reset that the Chaise boots from. -/
theorem Hw.pllUnlock_eq (k : Nat) (i : WarmIn) (h : Hw) :
    h.pllUnlock k i =
      if k = 0 then (h.clkLose k).onChaise fun c => { c with stopped := true }
      else if k = 13 then (h.clkLose k).hostLink 0 0 false false
      else if (h.clkLose k).chaiseDead || (h.clkLose k).pg.devState = 1 then h.clkLose k
      else (h.clkLose k).warmReset 2 i := rfl

/-- Between the limits the offset shows and raises nothing; beyond them the detector fires (R509). -/
theorem Pages.frefDrift_unarmed {p : Pages} (quiet : p.unarmed Pg.clk = true) (t : Int) :
    p.frefDrift t =
      let shown := p.put Reg.CLK_FREF_PPM 15 0 (t % 65536).toNat
      if decide (1000 < t) || decide (t < -1000) then shown.raise Pg.clk 1 0 none else shown := by
  have still : (p.put Reg.CLK_FREF_PPM 15 0 (t % 65536).toNat).unarmed Pg.clk = true := by
    rw [Pages.unarmed, Pages.put_eq, Pages.rd_wr, if_neg (by decide)]
    exact quiet
  rw [Pages.frefDrift, Pages.detect_unarmed still]

theorem Pages.frefDrift_within {p : Pages} (quiet : p.unarmed Pg.clk = true) {t : Int} (low : -1000 ≤ t) (high : t ≤ 1000) :
    p.frefDrift t = p.put Reg.CLK_FREF_PPM 15 0 (t % 65536).toNat := by
  have real : (decide (1000 < t) || decide (t < -1000)) = false := by
    rw [decide_eq_false (by omega), decide_eq_false (by omega), Bool.or_self]
  rw [Pages.frefDrift_unarmed quiet, real]
  rfl

theorem Pages.frefDrift_beyond {p : Pages} (quiet : p.unarmed Pg.clk = true) {t : Int} (beyond : t < -1000 ∨ 1000 < t) :
    p.frefDrift t = (p.put Reg.CLK_FREF_PPM 15 0 (t % 65536).toNat).raise Pg.clk 1 0 none := by
  have real : (decide (1000 < t) || decide (t < -1000)) = true := by
    rw [Bool.or_eq_true, decide_eq_true_iff, decide_eq_true_iff]
    exact beyond.symm
  rw [Pages.frefDrift_unarmed quiet, real]
  rfl

/-! ## The Chaise's polls of the rails, where it runs -/

section Runs
variable {h : Hw} (runs : h.chaiseDead = false)
include runs

theorem Hw.vrPoll_runs (rails : List (Fin 9 × VrRead)) (bad : List (Fin 9)) :
    h.vrPoll rails bad = h.onPg fun p =>
      let p1 := p.railPoll rails bad
      (if p1.get Reg.CMP_STAT 31 29 = 3 then p1.upd Reg.CMP_HB (· + 1) else p1).sramCheck := by
  rw [Hw.vrPoll, if_neg (Bool.not_eq_true _ ▸ runs)]

theorem Hw.pmbAlert_runs (rails : List (Fin 9 × VrRead)) :
    h.pmbAlert rails = h.onPg fun p => (rails.filter fun r => decide (3 ≤ r.1.val)).foldl (fun p r => p.railRead r.1.val r.2) p := by
  rw [Hw.pmbAlert, if_neg (Bool.not_eq_true _ ▸ runs)]

theorem Hw.avsUpdate_runs :
    h.avsUpdate = h.onPg fun p => [0, 1, 2].foldl (fun p k =>
      p.upd (Reg.PWR_AVS_D0 + k) fun w => BitVec.ofNat 32 (avsStep (if k = 2 then 750 else 650) (fld w 15 0)
        (Config.avsTarget k (p.get Reg.FUSE_CODE 11 8) (p.railHot k)))) p := by
  rw [Hw.avsUpdate, if_neg (Bool.not_eq_true _ ▸ runs)]

end Runs

/-- Settles O41: each write by its register's rule, each timer by what the Chaise or the block makes of it. -/
theorem powerAndClocks : Obligations.PowerAndClocks := by
  intro s
  refine ⟨fun live p w => ⟨fun a free => ?pstate, fun a free => ?cap, fun a => ?suspect⟩,
    fun clocked runs works => ⟨fun rails bad => ⟨State.onChaise_works clocked works (Hw.vrPoll_runs runs rails bad),
      State.onChaise_works clocked works (Hw.pmbAlert_runs runs rails)⟩, State.onChaise_works clocked works (Hw.avsUpdate_runs runs)⟩,
    fun clocked works => ⟨fun sn near ports far => State.onChaise_works clocked works rfl, State.onChaise_works clocked works rfl⟩,
    rfl, fun live works k i => ⟨fun own => ?own, fun pcie => ?pcie, fun notOwn notPcie runs booted => ?warm⟩,
    fun live works quiet t => ⟨fun low high => ?within, fun beyond => ?beyond⟩⟩
  case pstate =>
    exact State.onHw_next live (Hw.regSet_taken a fun r => (Hw.blockWrite_pstate _ _ r w).trans (Hw.pstateWrite_free free w))
  case cap =>
    exact State.onHw_next live (Hw.regSet_taken a fun r => (Hw.blockWrite_cap _ _ r w).trans (Hw.capWrite_free free))
  case suspect =>
    have valid : Pages.suspectClear 0x80000000#32 = fun g => ((g.setb Reg.PWR_SUSPECT 31 false).wr64 Reg.PWR_UV_FIRST_LO 0).wr64 Reg.PWR_UV_LAST_LO 0 :=
      funext fun g => Pages.suspectClear_valid (by decide) g
    exact State.onHw_next live (Hw.regSet_taken a fun r => (Hw.blockWrite_suspect _ _ r _).trans (by rw [valid]))
  case own =>
    exact State.onBlock_next live works (by rw [Hw.pllUnlock_eq, if_pos own]; rfl)
  case pcie =>
    exact State.onBlock_next live works (by rw [Hw.pllUnlock_eq, if_neg (by omega), if_pos pcie]; rfl)
  case warm =>
    refine State.onBlock_next live works ?_
    have goesOn : ¬ ((s.hw.clkLose k).chaiseDead || (s.hw.clkLose k).pg.devState = 1) = true := by
      rw [Bool.or_eq_true, decide_eq_true_iff, not_or]
      exact ⟨Bool.not_eq_true _ ▸ runs, booted⟩
    rw [Hw.pllUnlock_eq, if_neg notOwn, if_neg notPcie, if_neg goesOn]
    rfl
  case within =>
    exact State.onBlock_next live works (Hw.onPg_congr (Pages.frefDrift_within quiet low high))
  case beyond =>
    exact State.onBlock_next live works (Hw.onPg_congr (Pages.frefDrift_beyond quiet beyond))

end Sys2Proof.Machine

/-! # Proofs: resets and the monitors of hangs (R512, R513, R531, R536) -/

namespace Sys2Proof.Machine

/-! ## RST_CMD (R512, R513) -/

/-- DOMAIN and TARGET of RST_CMD. -/
theorem rstCmd_fields {dom tgt : Nat} (hd : dom < 16) (ht : tgt < 256) :
    let w := BitVec.ofNat 32 (dom * 2 ^ 28 + tgt)
    fld w 31 28 = dom ∧ fld w 7 0 = tgt := by
  simp only [fld, BitVec.toNat_ofNat]
  omega

/-- What RST_STAT shows of a command that is not refused. -/
def Hw.rstShown (dom tgt : Nat) (h : Hw) : Hw :=
  h.onPg fun g => ((g.setb Reg.RST_STAT 30 false).put Reg.RST_STAT 27 24 dom).put Reg.RST_STAT 7 0 tgt

theorem Hw.rstCmd_good {h : Hw} {dom tgt : Nat} (hd : dom < 16) (ht : tgt < 256) (good : h.rstBad dom tgt = false) (i : WarmIn) :
    h.rstCmd i (BitVec.ofNat 32 (dom * 2 ^ 28 + tgt)) =
      (true, if dom = 5 then (h.rstShown dom tgt).warmReset 1 i else (h.rstShown dom tgt).domainReset dom tgt) := by
  obtain ⟨fdom, ftgt⟩ := rstCmd_fields hd ht
  simp only [Hw.rstCmd, fdom, ftgt, good, Bool.false_eq_true, if_false]
  rfl

theorem Hw.blockWrite_rst {h : Hw} (works : h.pg.works Pg.rst = true) (i : WarmIn) (r : RegRow) (w : W32) :
    h.blockWrite i Pg.rst 0x040 r w = h.rstCmd i w :=
  if_pos (t := h.rstCmd i w) (e := (true, h)) works

/-- RST_CMD of a domain. -/
theorem Hw.regSet_domain {h : Hw} {p : Path} (a : h.admits p Pg.rst 0x040 = true) (works : h.pg.works Pg.rst = true) {dom tgt : Nat} (hd : dom < 5)
    (ht : tgt < 256) (good : h.rstBad dom tgt = false) :
    h.regSet p Pg.rst 0x040 (BitVec.ofNat 32 (dom * 2 ^ 28 + tgt)) = (h.rstShown dom tgt).domainReset dom tgt :=
  Hw.regSet_taken a fun r => by
    rw [Hw.blockWrite_rst works, Hw.rstCmd_good (by omega) ht good, if_neg (by omega)]

/-- RST_CMD of the whole device. -/
theorem Hw.regCmd_warm {h : Hw} {p : Path} (a : h.admits p Pg.rst 0x040 = true) (works : h.pg.works Pg.rst = true) (good : h.rstBad 5 0 = false) (i : WarmIn) :
    h.regCmd i p Pg.rst 0x040 (fun _ => BitVec.ofNat 32 (5 * 2 ^ 28)) = (h.rstShown 5 0).warmReset 1 i := by
  obtain ⟨r, row⟩ := Hw.admits_row a
  have taken := Hw.rstCmd_good (by decide) (by decide) good i
  rw [if_pos rfl, Nat.add_zero] at taken
  exact Hw.regCmd_taken a row ((Hw.blockWrite_rst works i r _).trans taken)

/-! ## Ends of a domain's reset -/

/-- The oldest domain reset ends, and nothing takes the device out of service. -/
theorem Hw.domainDone_calm {h : Hw} {d : Nat × Nat} {rest : List (Nat × Nat)} (runs : h.power.doms = d :: rest) (calm : h.power.escalate = false) :
    h.domainDone = ({ h with power := { h.power with doms := rest } } : Hw).onPg fun p =>
      (p.enableAll (p.domEnable d.1 d.2)).setb Reg.RST_STAT 31 (!rest.isEmpty) := by
  have still (g : Pages → Pages) : (({ h with power := { h.power with doms := rest } } : Hw).onPg g).power.escalate = false := calm
  simp only [Hw.domainDone, runs, still, Bool.false_and, Bool.false_eq_true, if_false]

theorem Hw.rstTimeout_unarmed {h : Hw} {d : Nat × Nat} {rest : List (Nat × Nat)} (runs : h.power.doms = d :: rest) (quiet : h.pg.unarmed Pg.rst = true)
    (i : WarmIn) : h.rstTimeout i = (h.onPg (Pages.raise Pg.rst 0 (d.1 * 2 ^ 28 + d.2) none)).warmReset 4 i := by
  simp only [Hw.rstTimeout, runs, Pages.detect_unarmed quiet, if_true]
  rfl

/-! ## The monitors of hangs (R531, R532, R536) -/

section Monitors
variable {h : Hw}

theorem Hw.coreHang_watched {n : Nat} (watched : h.coreWatched n = true) :
    h.coreHang n =
      let h1 := h.hangEvent 1 n ((h.pg.slotCtx (h.pg.bayPart (n / 9))).bind h.pg.ctxId)
      if h.pg.hangAct 1 then h1.fence n 2 0 0 else h1 := by
  simp only [Hw.coreHang, watched, Bool.not_true, Bool.false_eq_true, if_false]

theorem Hw.queueHang_watched {q c : Nat} (watched : h.queueWatched q = true) (owner : h.pg.qOwner q = some c) :
    h.queueHang q =
      let h1 := h.hangEvent 2 q (h.pg.ctxId c)
      if h.pg.hangAct 2 && decide (c ≠ 0) && h.pg.ctxSt c = 1 then h1.tearBegin c else h1 := by
  simp only [Hw.queueHang, watched, owner, Option.bind_some, Bool.not_true, Bool.false_eq_true, if_false]

theorem Hw.portHang_watched {k : Nat} (watched : h.portWatched k = true) :
    h.portHang k =
      let h1 := h.hangEvent 3 k (h.portCx k)
      if h.pg.hangAct 3 then h1.domainReset 3 k else h1 := by
  simp only [Hw.portHang, watched, Bool.not_true, Bool.false_eq_true, if_false]

theorem Hw.cmpHang_watched (watched : h.cmpWatched = true) (i : WarmIn) :
    h.cmpHang i =
      let h1 := h.hangEvent 4 0 none
      if h.pg.hangAct 4 then h1.warmReset 3 i else h1 := by
  simp only [Hw.cmpHang, watched, Bool.not_true, Bool.false_eq_true, if_false]

theorem Hw.blockWrite_consent (wi : WarmIn) (r : RegRow) (w : W32) : h.blockWrite wi Pg.hang 0x04C r w = h.hangConsent w := rfl

theorem Hw.hangConsent_oos (oos : h.pg.bit Reg.HANG_STAT 31 = true) {w : W32} (consent : wbit w 0 = true) :
    h.hangConsent w = (true, h.onPg (Pages.setb Reg.HANG_STAT 30 true)) := by
  have allowed : ¬ (!h.pg.bit Reg.HANG_STAT 31) = true := by rw [oos]; decide
  rw [Hw.hangConsent, if_neg allowed, if_pos consent]

end Monitors

/-- Settles O42: RST_CMD by its fields, the end of a reset by the oldest domain, each monitor by what it judges. -/
theorem resetsAndHangs : Obligations.ResetsAndHangs := by
  intro s live
  refine ⟨fun p a works => ⟨fun n good => ?core, fun b good => ?bay, fun k good => ?port, fun good => ?router, fun i good => ?warm⟩,
    fun d rest runs => ⟨fun calm => State.onHw_next live (Hw.domainDone_calm runs calm),
      fun i quiet => State.onHw_next live (Hw.rstTimeout_unarmed runs quiet i)⟩,
    fun n watched => State.onHw_next live (Hw.coreHang_watched watched),
    fun q c watched owner => State.onHw_next live (Hw.queueHang_watched watched owner),
    fun k watched => State.onHw_next live (Hw.portHang_watched watched),
    fun i watched => State.onHw_next live (Hw.cmpHang_watched watched i),
    fun p a oos => State.onHw_next live (Hw.regSet_taken a fun r => (Hw.blockWrite_consent _ r _).trans (Hw.hangConsent_oos oos (by decide)))⟩
  case core => exact State.onHw_next live (Hw.regSet_domain a works (by decide) (by omega) good)
  case bay => exact State.onHw_next live (Hw.regSet_domain a works (by decide) (by omega) good)
  case port => exact State.onHw_next live (Hw.regSet_domain a works (by decide) (by omega) good)
  case router => exact State.onHw_next live (Hw.regSet_domain a works (by decide) (by decide) good)
  case warm => exact State.onHw_next live (Hw.regCmd_warm a works good i)

end Sys2Proof.Machine

/-! # Proofs: spares and shadow mode (R542 to R559) -/

namespace Sys2Proof.Machine

/-! ## BAY_CMD (R542, R544, R546) -/

theorem Hw.blockWrite_bayCmd {b : Nat} (hb : b < 12) (h : Hw) (wi : WarmIn) (r : RegRow) (w : W32) :
    h.blockWrite wi (Pg.bay b) 0x04C r w = h.bayCmd b w := by
  have bay : Pg.bay b - Pg.bay 0 = b := by simp only [Pg.bay]; omega
  unfold Hw.blockWrite
  rw [pageKind_bay hb]
  simp only [if_true, bay]

theorem Hw.regSet_bayCmd {h t : Hw} {p : Path} {b : Nat} (hb : b < 12) (a : h.admits p (Pg.bay b) 0x04C = true) {w : W32} (taken : h.bayCmd b w = (true, t)) :
    h.regSet p (Pg.bay b) 0x04C w = t :=
  Hw.regSet_taken a fun r => (Hw.blockWrite_bayCmd hb h _ r w).trans taken

/-- CMD and SLOT of BAY_CMD. -/
theorem bayCmd_fields {cmd k : Nat} (hc : cmd < 16) (hk : k < 16) :
    let w := BitVec.ofNat 32 (cmd * 2 ^ 28 + k)
    fld w 31 28 = cmd ∧ fld w 3 0 = k := by
  simp only [fld, BitVec.toNat_ofNat]
  omega

section Spares
variable {h : Hw} {b : Nat}

theorem Hw.bayCmd_fence {k : Nat} (hk : k < 9) : h.bayCmd b (BitVec.ofNat 32 (1 * 2 ^ 28 + k)) = (true, h.fence (9 * b + k) 3 0 0) := by
  obtain ⟨cmd, slot⟩ := bayCmd_fields (cmd := 1) (k := k) (by decide) (by omega)
  simp only [Hw.bayCmd, cmd, slot, if_neg (Nat.not_le.2 hk), if_true]

/-- SWITCH where a slot is lost, a spare stands by and the Bay waits for neither. -/
theorem Hw.bayCmd_switch {i k : Nat} (waits : h.pg.mayswitch b = true) (lost : h.pg.lostSlot b = some i) (spare : h.pg.spareOf b = some k)
    (served : h.pg.bit (Reg.BAY_STAT b) 31 = false) (idle : (h.bay b).zeroing = none) :
    h.bayCmd b (BitVec.ofNat 32 (2 * 2 ^ 28 + 0)) =
      (true, (h.onPg fun g => ((g.put (Reg.BAY_L2P b) (4 * i + 3) (4 * i) k).setCoreSt (9 * b + k) 0).sat (Reg.BAY_SWITCH_CNT b) 1).modBay b
        fun x => { x with zeroing := some k }) := by
  obtain ⟨cmd, slot⟩ := bayCmd_fields (cmd := 2) (k := 0) (by decide) (by decide)
  have may : (h.pg.mayswitch b && (h.pg.lostSlot b).isSome && (h.pg.spareOf b).isSome && !h.pg.bit (Reg.BAY_STAT b) 31 && (h.bay b).zeroing.isNone) = true := by
    rw [waits, lost, spare, served, idle]
    rfl
  have switches : h.switchIn b =
      (h.onPg fun g => ((g.put (Reg.BAY_L2P b) (4 * i + 3) (4 * i) k).setCoreSt (9 * b + k) 0).sat (Reg.BAY_SWITCH_CNT b) 1).modBay b
        fun x => { x with zeroing := some k } := by
    simp only [Hw.switchIn, lost, spare, served, Bool.false_eq_true, if_false]
  have notFence : ¬ (2 : Nat) = 1 := by decide
  have inRange : ¬ (9 : Nat) ≤ 0 := by decide
  simp only [Hw.bayCmd, cmd, slot, if_neg inRange, if_neg notFence, if_pos may, if_true, switches]

theorem Hw.bayCmd_retest {k : Nat} (hk : k < 9) (offline : h.pg.coreSt (9 * b + k) = 3) (idle : (h.bay b).retest = none) :
    h.bayCmd b (BitVec.ofNat 32 (3 * 2 ^ 28 + k)) =
      (true, (h.modBay b fun x => { x with retest := some k }).onPg (Pages.setb (Reg.BAY_STAT b) 30 true)) := by
  obtain ⟨cmd, slot⟩ := bayCmd_fields (cmd := 3) (k := k) (by decide) (by omega)
  have may : (decide (h.pg.coreSt (9 * b + k) = 3) && (h.bay b).retest.isNone) = true := by
    rw [offline, idle]
    rfl
  have notFence : ¬ (3 : Nat) = 1 := by decide
  have notSwitch : ¬ (3 : Nat) = 2 := by decide
  simp only [Hw.bayCmd, cmd, slot, if_neg (Nat.not_le.2 hk), if_neg notFence, if_neg notSwitch, if_pos may, if_true]

/-! ## Ends of a zeroing and of a retest (R544, R546) -/

theorem Hw.spareZeroDone_zeroing {k : Nat} (zeroing : (h.bay b).zeroing = some k) :
    h.spareZeroDone b =
      ((h.modCore (9 * b + k) fun c => { c with scr := [], scrFlips := [] }).modBay b fun x => { x with zeroing := none }).onPg (Pages.capBays 0 1) := by
  simp only [Hw.spareZeroDone, zeroing]

section Retest
variable {k : Nat} (runs : (h.bay b).retest = some k) (quiet : h.pg.unarmed (Pg.bay b) = true)
include runs quiet

/-- A retest for whose failure nothing is armed passes as the core does (R546). -/
theorem Hw.retestDone_pass :
    h.retestDone b true =
      ((((h.modBay b fun x => { x with retest := none }).onPg (Pages.setb (Reg.BAY_STAT b) 30 false)).modCore (9 * b + k) fun _ => Core.reset).onPg
        fun p => ((corePages (9 * b + k)).foldl (fun p pg =>
          ((p.setb (Reg.PG_CTRL pg) 0 true).setb (Reg.PG_CTRL pg) 1 false).setb (Reg.PG_STAT pg) 30 false) p).setCoreSt (9 * b + k) 1) := by
  simp only [Hw.retestDone, runs, Pages.detect_unarmed quiet, Bool.not_true, Bool.false_eq_true, if_false]

theorem Hw.retestDone_fail :
    h.retestDone b false =
      (((h.onPg (Pages.raise (Pg.bay b) 3 k (h.pg.bayCx b))).modBay b fun x => { x with retest := none }).onPg
        (Pages.setb (Reg.BAY_STAT b) 30 false)).onPg fun p => (corePages (9 * b + k)).foldl (fun p pg => p.setb (Reg.PG_CTRL pg) 0 false) p := by
  simp only [Hw.retestDone, runs, Pages.detect_unarmed quiet, Bool.not_false, if_true]
  rfl

end Retest
end Spares

/-! ## SHDW_CTRL (R552) -/

theorem Hw.blockWrite_shdwCtrl (h : Hw) (wi : WarmIn) (r : RegRow) (w : W32) : h.blockWrite wi (Pg.bay 0) 0x100 r w = h.shdwCtrl w := rfl

theorem Hw.shdwCtrl_active {h : Hw} {w : W32} (quiet : h.anyLaunch = false) (storage : fld w 19 16 = 8 ∨ fld w 19 16 = 9)
    (active : h.pg.linkActive (fld w 19 16) = true) :
    h.shdwCtrl w = (true, h.onPg fun g =>
      (g.wr Reg.SHDW_CTRL (w &&& 0xC00F00FF#32)).setb Reg.SHDW_STAT 31 (fld w 31 30 = 1 || fld w 31 30 = 2)) := by
  have port : (h.anyLaunch || !((fld w 19 16 = 8 ∨ fld w 19 16 = 9) ∧ h.pg.linkActive (fld w 19 16) : Bool)) = false := by
    rw [quiet, decide_eq_true ⟨storage, active⟩]
    rfl
  rw [Hw.shdwCtrl, if_neg (Bool.not_eq_true _ ▸ port)]

/-- Settles O43: BAY_CMD by its command, a zeroing and a retest by their ends, SHDW_CTRL by the port that it names. -/
theorem sparesAndShadow : Obligations.SparesAndShadow := by
  intro s live b
  refine ⟨fun p a => ⟨fun k => ?fence, fun i k waits lost spare served idle => ?switch, fun k offline idle => ?retest⟩,
    fun k zeroing => State.onHw_next live (Hw.spareZeroDone_zeroing zeroing),
    fun k runs quiet => ⟨State.onHw_next live (Hw.retestDone_pass runs quiet), State.onHw_next live (Hw.retestDone_fail runs quiet)⟩,
    fun p w a quiet storage active => ?shadow⟩
  case fence => exact State.onHw_next live (Hw.regSet_bayCmd b.isLt a (Hw.bayCmd_fence k.isLt))
  case switch => exact State.onHw_next live (Hw.regSet_bayCmd b.isLt a (Hw.bayCmd_switch waits lost spare served idle))
  case retest => exact State.onHw_next live (Hw.regSet_bayCmd b.isLt a (Hw.bayCmd_retest k.isLt offline idle))
  case shadow =>
    exact State.onHw_next live (Hw.regSet_taken a fun r => (Hw.blockWrite_shdwCtrl _ _ r w).trans (Hw.shdwCtrl_active quiet storage active))

end Sys2Proof.Machine

/-! # Proofs: the messages of the pod (R562 to R571) -/

namespace Sys2Proof.Machine

/-! ## A message that the Chaise takes (R562) -/

/-- A message of a known KIND goes to its handler with its body. -/
theorem Hw.mgTake_accepted {h t : Hw} {k : Packet} {src : PktSrc} {kind : Nat} (known : mgKnown kind = true) (a : h.acceptsMg (mgTest kind) src k t)
    (is : leAt k.payload 0 1 = kind) (runs : t.extUp = true) (f : Packet → List Byte → Hw → Hw) : h.mgTake kind src f = f k k.mgBody t := by
  obtain ⟨inp, arrives⟩ := a
  have found : h.arrive (fun k => k.opc = 0x23 && (leAt k.payload 0 1 = kind || !mgKnown (leAt k.payload 0 1))) src = (some (k, inp), t) := arrives
  simp only [Hw.mgTake, found, runs, is, known, Bool.not_true, Bool.false_eq_true, if_false]
  rfl

section Roles
variable {h : Hw}

/-- What only the active does. -/
theorem Hw.asDareder_active (role : h.pg.isDareder = true) (active : h.pod.active = true) (f : Hw → Hw) : h.asDareder true f = f h := by
  rw [Hw.asDareder, role, active]
  rfl

theorem Hw.asDareder_either (role : h.pg.isDareder = true) (f : Hw → Hw) : h.asDareder false f = f h := by
  rw [Hw.asDareder, role]
  rfl

theorem Hw.asWorker_worker (role : h.pg.isDareder = false) (f : Hw → Hw) : h.asWorker f = f h := by
  rw [Hw.asWorker, role]
  rfl

end Roles

section Taken
variable {h t : Hw} {k : Packet} {src : PktSrc} {kind : Nat} (known : mgKnown kind = true) (a : h.acceptsMg (mgTest kind) src k t)
  (is : leAt k.payload 0 1 = kind) (runs : t.extUp = true)
include known a is runs

theorem Hw.mgTake_active (role : t.pg.isDareder = true) (active : t.pod.active = true) (f : Packet → List Byte → Hw → Hw) :
    h.mgTake kind src (fun k b => Hw.asDareder true (f k b)) = f k k.mgBody t :=
  (Hw.mgTake_accepted known a is runs _).trans (Hw.asDareder_active role active _)

theorem Hw.mgTake_dareder (role : t.pg.isDareder = true) (f : Packet → List Byte → Hw → Hw) :
    h.mgTake kind src (fun k b => Hw.asDareder false (f k b)) = f k k.mgBody t :=
  (Hw.mgTake_accepted known a is runs _).trans (Hw.asDareder_either role _)

theorem Hw.mgTake_worker (role : t.pg.isDareder = false) (f : Packet → List Byte → Hw → Hw) :
    h.mgTake kind src (fun k b => Hw.asWorker (f k b)) = f k k.mgBody t :=
  (Hw.mgTake_accepted known a is runs _).trans (Hw.asWorker_worker role _)

end Taken

/-! ## What the active makes of a message (R550, R563, R566) -/

section Notes
variable {h : Hw} {n : Nat} {b : List Byte}

theorem Hw.recordNote_other (other : leAt b 1 1 / 16 % 8 ≠ 6) : h.recordNote n b = h := if_neg other

theorem Hw.recordNote_device (device : leAt b 1 1 / 16 % 8 = 6) : h.recordNote n b = h.fenceDevice n := if_pos device

theorem Hw.eventNote_other (notEscalate : leAt b 3 1 ≠ 6) (notLink : leAt b 3 1 ≠ 7) : h.eventNote n b = h := by
  simp only [Hw.eventNote, notEscalate, notLink, false_and, if_false]

/-- LINK_STATE of a link that fails, and of which nothing is known yet. -/
theorem Hw.eventNote_fails (link : leAt b 3 1 = 7) (fails : leAt b 1 1 % 16 = 8) (new : (n, leAt b 2 1) ∉ h.pod.down) :
    h.eventNote n b = (h.onPod fun x => { x with down := (n, leAt b 2 1) :: x.down }).reroute := by
  have first : (leAt b 1 1 % 16 = 0 ∨ leAt b 1 1 % 16 = 8) ∧ (!decide ((n, leAt b 2 1) ∈ h.pod.down)) = true :=
    ⟨.inr fails, by rw [decide_eq_false new]; rfl⟩
  rw [Hw.eventNote, if_pos link, if_pos first]

theorem Hw.configNote_idle (idle : h.pod.config = none) (status ep : Nat) : h.configNote n status ep = h := by
  simp only [Hw.configNote, idle]

/-- The last OK of a configuration makes its epoch the pod's. -/
theorem Hw.configNote_last {ep status of : Nat} (waits : h.pod.config = some (ep, [n])) (ok : status = 0) (own : of = ep) :
    h.configNote n status of = h.onPod fun x => { x with config := none, cfgEp := ep } := by
  have rest : [n].filter (· ≠ n) = [] := by simp
  subst ok own
  simp only [Hw.configNote, waits, rest, List.mem_singleton, not_true_eq_false, ne_eq, or_self, if_false, if_true]

end Notes

/-! ## What the standby makes of a message (R569, R570) -/

section Standby
variable {h t : Hw} {k : Packet} {src : PktSrc} (runs : t.extUp = true) (role : t.pg.isDareder = true) (standby : t.pod.active = false)
include runs role standby

theorem Hw.logRx_standby (a : h.acceptsMg (mgTest 4) src k t) (is : leAt k.payload 0 1 = 4) :
    h.logRx src = t.onPod fun x => { x with logs := x.logs ++ [(k.mgSeq, k.mgBody)], gap := x.gap || decide (x.gen + 1 < k.mgSeq) } :=
  (Hw.mgTake_dareder (by decide) a is runs role _).trans (if_neg (Bool.not_eq_true _ ▸ standby))

/-- COMMIT of a generation whose records the standby has. -/
theorem Hw.commitRx_listed (a : h.acceptsMg (mgTest 5) src k t) (is : leAt k.payload 0 1 = 5) (newer : t.pod.gen < k.mgSeq)
    (listed : (t.pod.logs.filter fun l => l.1 = k.mgSeq) ≠ []) :
    h.commitRx src = t.onPod fun x =>
      { x with applied := if x.gap then x.logs.filter (fun l => l.1 = k.mgSeq) else x.applied ++ x.logs.filter (fun l => l.1 = k.mgSeq),
               gen := k.mgSeq, gap := false, logs := x.logs.filter fun l => decide (k.mgSeq < l.1) } := by
  have applies : ¬ ((t.pod.logs.filter fun l => l.1 = k.mgSeq).isEmpty = true ∨ k.mgSeq ≤ t.pod.gen) := by
    rw [List.isEmpty_iff, not_or]
    exact ⟨listed, Nat.not_le.2 newer⟩
  refine (Hw.mgTake_dareder (by decide) a is runs role _).trans ((if_neg (Bool.not_eq_true _ ▸ standby)).trans ?_)
  simp only [Hw.onPod, if_neg applies]

end Standby

theorem Hw.takeover_missed {h : Hw} (role : h.pg.isDareder = true) (standby : h.pod.active = false) (runs : h.extUp = true) (missed : 2 ≤ h.pod.missed) :
    h.takeover =
      let h1 := (h.podWrites 1).onPod fun x => { x with term := x.term + 1, active := true, logs := [], collected := [], acks := [], proven := false }
      let h2 := (h1.onPg (Pages.put Reg.BEAT_SERVO_CTRL 3 0 15)).podWrites 4
      (Config.podWorkers h2.pod.applied).foldl (fun h n => h.mgMsg ⟨n, 9, 0, BitVec.ofNat 32 h.pod.term, 0, []⟩) h2 := by
  have goes : ¬ (!h.pg.isDareder || h.pod.active || !h.extUp || decide (h.pod.missed < 2)) = true := by
    rw [role, standby, runs, decide_eq_false (Nat.not_lt.2 missed)]
    decide
  rw [Hw.takeover, if_neg goes]

/-! ## What a worker makes of a message (R563, R567, R571) -/

/-- CONFIG of another place, two beats ahead on a whole beat: BEAT_SET is armed for it. -/
theorem Hw.configRx_arms {h t : Hw} {k : Packet} {src : PktSrc} (a : h.acceptsMg (mgTest 6) src k t) (is : leAt k.payload 0 1 = 6) (runs : t.extUp = true)
    (role : t.pg.isDareder = false) (moves : t.pg.cfgMoves (cfgOf k.mgBody) = true) (quiet : t.anyLaunch = false)
    (ahead : t.pg.fbc.toNat + 2 * t.pg.beatLen ≤ (cfgOf k.mgBody).atFbc) (whole : (cfgOf k.mgBody).atFbc % t.pg.beatLen = 0)
    (steady : t.pg.bit Reg.BEAT_LEN_NEXT 31 = false) :
    h.configRx src = (t.onPg fun p => ((cfgOf k.mgBody).set p).setb Reg.BEAT_SET_CTRL 31 true).onPod fun x => { x with pending := some (cfgOf k.mgBody) } := by
  refine (Hw.mgTake_worker (by decide) a is runs role _).trans ?_
  have arms := Hw.cfgArm_arms t (cfgOf k.mgBody) (cfgOf_atFbc_lt _) quiet ahead whole steady
  simp only [moves, quiet, Nat.not_lt.2 ahead, whole, arms, Bool.not_true, Bool.false_eq_true, ne_eq, not_true_eq_false, if_false, if_true]

theorem Hw.congestPeriod_worker {h : Hw} (role : h.pg.isDareder = false) (runs : h.extUp = true) :
    h.congestPeriod =
      let body := (List.range 80).flatMap fun i => bytesLE 2 (tget (fun _ => 0) h.pod.busy i)
      (h.onPod fun x => { x with busy := [] }).mgMsg ⟨0xFFFF, 8, 0, 0, BitVec.setWidth 64 h.pg.beatNum, body⟩ := by
  have up : ¬ (!h.extUp) = true := by rw [runs]; decide
  rw [Hw.congestPeriod, Hw.asWorker_worker role, if_neg up]

/-- Settles O44: each message by the role that takes it and what the role makes of it, then the worker's report and the standby's takeover. -/
theorem podMessages : Obligations.PodMessages := by
  intro s src k t live
  refine ⟨fun runs kind a is => ⟨fun role active => ?active, fun role => ?heartbeat, fun role standby => ?standby, fun role => ?worker⟩,
    fun role runs => State.onHw_next live (Hw.congestPeriod_worker role runs),
    fun role standby runs missed => State.onHw_next live (Hw.takeover_missed role standby runs missed)⟩
  case active =>
    refine ⟨?ras, ?device, ?tele, ?fails, ?ack, ?last, ?congest, ?collected⟩
    case ras =>
      rintro rfl other
      exact State.onHw_next live ((Hw.mgTake_active (by decide) a is runs role active _).trans (Hw.recordNote_other other))
    case device =>
      rintro rfl device
      exact State.onHw_next live ((Hw.mgTake_active (by decide) a is runs role active _).trans (Hw.recordNote_device device))
    case tele =>
      rintro rfl notEscalate notLink
      exact State.onHw_next live ((Hw.mgTake_active (by decide) a is runs role active _).trans (Hw.eventNote_other notEscalate notLink))
    case fails =>
      rintro rfl link fails new
      exact State.onHw_next live ((Hw.mgTake_active (by decide) a is runs role active _).trans (Hw.eventNote_fails link fails new))
    case ack =>
      rintro rfl idle
      exact State.onHw_next live ((Hw.mgTake_active (by decide) a is runs role active _).trans (Hw.configNote_idle (by exact idle) _ _))
    case last =>
      rintro ep rfl waits ok own
      exact State.onHw_next live ((Hw.mgTake_active (by decide) a is runs role active _).trans (Hw.configNote_last (by exact waits) ok own))
    case congest =>
      rintro rfl
      exact State.onHw_next live (Hw.mgTake_active (by decide) a is runs role active _)
    case collected =>
      rintro rfl
      exact State.onHw_next live (Hw.mgTake_active (by decide) a is runs role active _)
  case heartbeat =>
    rintro rfl
    exact State.onHw_next live (Hw.mgTake_dareder (by decide) a is runs role _)
  case standby =>
    refine ⟨?log, ?commit⟩
    case log =>
      rintro rfl
      exact State.onHw_next live (Hw.logRx_standby runs role standby a is)
    case commit =>
      rintro rfl newer listed
      exact State.onHw_next live (Hw.commitRx_listed runs role standby a is newer listed)
  case worker =>
    refine ⟨?config, ?collect⟩
    case config =>
      rintro rfl moves quiet ahead whole steady
      exact State.onHw_next live (Hw.configRx_arms a is runs role moves quiet ahead whole steady)
    case collect =>
      rintro rfl
      exact State.onHw_next live (Hw.mgTake_worker (by decide) a is runs role _)

end Sys2Proof.Machine
